-- ==== Sys2Proof/Word.lean ====
section
/-!
DEFINITION. Word types of the device and the one sparse table that every indexed store of the model uses
(memories, slots, contexts, queues): a list of (index, value) pairs in one canonical form.
-/
namespace Sys2Proof

abbrev Byte := BitVec 8
abbrev W16 := BitVec 16
abbrev W32 := BitVec 32
abbrev W64 := BitVec 64
abbrev W128 := BitVec 128
abbrev W256 := BitVec 256
abbrev W512 := BitVec 512

/-- A sparse table: the indices whose value differs from the table's default value, in rising order.
A byte memory is `Tbl Byte`, which is a list of `Host.Cell`. -/
abbrev Tbl (α : Type) := List (Nat × α)

/-- The value at index `k`; an unlisted index reads as the default `d`. -/
def Tbl.get {α : Type} (d : α) : Tbl α → Nat → α
  | [], _ => d
  | (i, v) :: t, k => if i = k then v else Tbl.get d t k

/-- Removes index `k`: it then reads as the default. -/
def Tbl.erase {α : Type} : Tbl α → Nat → Tbl α
  | [], _ => []
  | (i, v) :: t, k => if i = k then Tbl.erase t k else (i, v) :: Tbl.erase t k

/-- Inserts a value at index `k`, keeping the indices in rising order. -/
def Tbl.insert {α : Type} : Tbl α → Nat → α → Tbl α
  | [], k, x => [(k, x)]
  | (i, v) :: t, k, x =>
    if k < i then (k, x) :: (i, v) :: t
    else if i = k then (k, x) :: t
    else (i, v) :: Tbl.insert t k x

/-- Writes `x` at index `k`. Writing the default value removes the entry, so equal tables are equal data. -/
def Tbl.set {α : Type} [DecidableEq α] (d : α) (t : Tbl α) (k : Nat) (x : α) : Tbl α :=
  if x = d then Tbl.erase t k else Tbl.insert t k x

/-- Applies `f` to the value at index `k`. -/
def Tbl.upd {α : Type} [DecidableEq α] (d : α) (t : Tbl α) (k : Nat) (f : α → α) : Tbl α :=
  Tbl.set d t k (f (Tbl.get d t k))

/-- Applies `f` to every listed value; a result equal to the default leaves the table. -/
def Tbl.map {α : Type} [DecidableEq α] (d : α) (f : Nat → α → α) : Tbl α → Tbl α
  | [] => []
  | (i, v) :: t => if f i v = d then Tbl.map d f t else (i, f i v) :: Tbl.map d f t

/-- Every listed index is at least `n`, the indices rise strictly, and no entry holds the default. -/
def Tbl.wfFrom {α : Type} [DecidableEq α] (d : α) : Nat → Tbl α → Bool
  | _, [] => true
  | n, (i, v) :: t => decide (n ≤ i) && decide (v ≠ d) && Tbl.wfFrom d (i + 1) t

/-- The canonical form of a sparse table. -/
def Tbl.wf {α : Type} [DecidableEq α] (d : α) (t : Tbl α) : Bool := Tbl.wfFrom d 0 t

end Sys2Proof
end

