-- ==== Sys2Proof/Machine/Types.lean ====
section
/-!
DEFINITION. The operand types of the commands: request headers and buffers of Arong (R124, R126), descriptors and their
lists (R86, R89), frames, and the small enumerations the commands name.
-/
namespace Sys2Proof.Machine

/-- Who issued an Arong request (R137): a slot of the admin mailbox, a VF's light mailbox, or the SMBus. -/
inductive Issuer where
  | pf (slot : Nat)
  | vf (v : Nat)
  | smb
deriving DecidableEq, Repr

/-- The request header of R124 as Horrov copied it (R118). `argLen` is ARG_LEN; `stage` is FLAGS bit 0. The CMD
field is the command itself. -/
structure Hdr where
  iss : Issuer := .pf 1
  /-- over SMBus: the packet error code of the request was good (R141, R143) -/
  pecOk : Bool := true
  level : Byte := 0
  stage : Bool := false
  seq : W32 := 0
  txn : W32 := 0
  argLen : Nat := 0
deriving DecidableEq, Repr

/-- How a DMA access ended (ST_DMA_ERROR details of R140): 1 timeout, 2 poisoned, 3 UR or CA. -/
inductive DmaErr where
  | timeout | poisoned | refused
deriving DecidableEq, Repr

def DmaErr.code : DmaErr → Nat
  | .timeout => 1
  | .poisoned => 2
  | .refused => 3

/-- A buf argument (R126) with what Horrov's DMA of it gave: the bytes read, or an error. For a result buffer
`data` is ignored. -/
structure Buf where
  addr : W64 := 0
  len : W32 := 0
  mbz : W32 := 0
  err : Option DmaErr := none
  data : List Byte := []
deriving DecidableEq, Repr

/-- What a source window showed to the health tests (R411): the longest run of identical samples that ends within it, and the
number of samples equal to its first one. -/
structure WindowTest where
  run : Nat := 0
  count : Nat := 0
deriving DecidableEq, Repr

/-- Engine kinds of the schedule classes (R100, R137). -/
inductive EKind where
  | render | lath | hawk | keccak | sha2
deriving DecidableEq, Repr

/-- A 64-byte descriptor (R86): every byte belongs to one of these fields. `body` holds bytes 32-63, byte 32 in bits 7:0. -/
structure Desc where
  opcode : Byte := 0
  flags : Byte := 0
  param : W16 := 0
  tag : W32 := 0
  inLen : W32 := 0
  outLen : W32 := 0
  inPtr : W64 := 0
  outPtr : W64 := 0
  body : W256 := 0
deriving DecidableEq, Repr

/-- One entry of a gather or scatter list (R89). -/
structure SglEnt where
  addr : W64 := 0
  len : W32 := 0
  eflags : W32 := 0
deriving DecidableEq, Repr

/-- What the read of a gather or scatter list gave (R90 check 4). -/
inductive SglRead where
  | fail (e : DmaErr)
  | got (ents : List SglEnt)
deriving DecidableEq, Repr

/-- What a descriptor fetch returned (R90, R105). For a pushed entry the descriptor is the pushed one. -/
inductive Fetched where
  | fail (e : DmaErr)
  | got (d : Desc) (inSgl outSgl : SglRead)
deriving DecidableEq, Repr

/-- The payload a job reads by DMA: the gathered input bytes, or the error that ends it (R105). -/
inductive JobIn where
  | fail (e : DmaErr)
  | got (bytes : List Byte)
deriving DecidableEq, Repr

/-- A job is named by its queue (4 096 for Horrov's own queue, R138) and the index of its entry. -/
structure JobId where
  q : Nat := 0
  idx : W16 := 0
deriving DecidableEq, Repr

/-- A frame on the wire without preamble, its FCS taken off; `fcsOk` tells whether the FCS was good (R156). -/
structure Frame where
  bytes : List Byte := []
  fcsOk : Bool := true
deriving DecidableEq, Repr

/-- The reset-like inputs of the part (R16, R579). -/
inductive ResetSrc where
  | perst | sysRst | self
deriving DecidableEq, Repr

/-- A unit of the cause map: group and UNIT (R543). -/
structure UnitId where
  group : Nat := 0
  unit : Nat := 0
deriving DecidableEq, Repr

/-- The grant kinds of R557; WIPE is Float's own reserve and is counted apart. -/
inductive FKind where
  | standing | renderLa | lath | hawk | sponge
deriving DecidableEq, Repr

/-- A holder of tokens: its kind and index (the pair for STANDING, the engine or core otherwise). -/
structure Holder where
  kind : FKind := .lath
  idx : Nat := 0
deriving DecidableEq, Repr

/-- A PMBus transaction of a command code (R551): a read, or a write of its data. -/
inductive PmOp where
  | read
  | write (data : W16)
  /-- a transaction whose packet error code is wrong (R141) -/
  | badPec
deriving DecidableEq, Repr

/-- What a start meets outside the device (R580): the failure that its steps run into, if any (the reason codes of R600);
whether the flash answers, and what the board has programmed into its slots since; the straps; the reading of a unit's
slack at S11; and whether the firmware comes to READY. -/
structure StartIn where
  fail : Option W16 := none
  flash : Bool := true
  slotA : Option (List Byte) := none
  slotB : Option (List Byte) := none
  bootSel : BitVec 2 := 0
  /-- in-situ readings of S11: unit, slack in ps, temperature in tenths of a degree (R618) -/
  slack : List (Nat × Int × Int) := []
  /-- units whose known-answer test of S11 failed, with the vector -/
  katFail : List (Nat × Nat) := []
  ready : Bool := true
  /-- HRV_BOOT.START_TIME and GRT seed time -/
  startTime : BitVec 24 := 0
  seedTime : Nat := 0
  /-- steps of the power sequence that stand still: the step at which it stalls (R575), and its duration -/
  stall : Option Nat := none
  seqUs : W32 := 0
deriving DecidableEq, Repr

/-- The vector slot of a Lath microword (R249), its VOP apart. -/
structure VSlot where
  vd : BitVec 5 := 0
  vs1 : BitVec 5 := 0
  vs2 : BitVec 5 := 0
  u : BitVec 1 := 0
  ew : BitVec 2 := 0
  msk : BitVec 3 := 0
  fn : BitVec 5 := 0
deriving DecidableEq, Repr

/-- The memory slot in V form (R269), its MOP apart. `ecc` is the element, and its field, whose access meets an uncorrectable
error, where one does (R270 check 5). -/
structure MemV where
  vr : BitVec 5 := 0
  xa : BitVec 5 := 0
  xb : BitVec 5 := 0
  msk : BitVec 3 := 0
  nf : BitVec 2 := 0
  ecc : Option (Nat × Nat) := none
deriving DecidableEq, Repr

/-- The memory slot in X form (R269), its MOP apart; `ecc` tells an uncorrectable error. -/
structure MemX where
  rg : BitVec 5 := 0
  xa : BitVec 5 := 0
  off : BitVec 10 := 0
  ecc : Bool := false
deriving DecidableEq, Repr

/-- The Sponge and port slot of OP 1-10 (R218), its OP apart. -/
structure PSlot where
  res : BitVec 4 := 0
  arg : BitVec 3 := 0
  vreg : BitVec 5 := 0
deriving DecidableEq, Repr

/-- How a reservation record write ends (R334): verified at its entry, verified at the next entry after one that failed, or
failed at both. -/
inductive ResWrite where
  | first | retry | fail
deriving DecidableEq, Repr

/-- A field of configuration space that the host writes (R43-R60): what acts on the device, the BARs, and the settings
that R43 and R49 give it. -/
inductive CfgField where
  | memSpace | busMaster | pmeEnable | ariHierarchy | numVfs | pageSize | aspmL1 | msixEnable | msixMask
  | bar0 | bar2 | vfBar0 | vfBar2 | maxPayload | maxRead | cplTimeout | ecrcGen | ecrcCheck | bigTags | acs
deriving DecidableEq, Repr

/-- A host write that has no row of its own (R9): to BAR0 or BAR2 of a function, `size` bytes of `v`, or to a field of its
configuration space; and an ARONG_REQ block write whose CMD the catalogue does not hold (R137, R142), with its SEQ and
whether its packet error code was good. -/
inductive RegWr where
  | bar (f off size : Nat) (v : W64)
  | bar2 (f off size : Nat) (v : W64)
  | cfg (f : Nat) (fld : CfgField) (v : Nat)
  | arongReq (cmd : W16) (seq : Byte) (pecOk : Bool)
deriving DecidableEq, Repr

/-- What a read that has no row of its own reads: BAR0 or BAR2 of a function, its configuration space, or ARONG_RSP over
SMBus (R142). -/
inductive RdSpace where
  | bar0 | bar2 | cfg | arongRsp
deriving DecidableEq, Repr

/-- A host read that has no row of its own: `size` bytes at offset `off`. -/
structure RegRd where
  f : Nat := 0
  off : Nat := 0
  size : Nat := 4
  space : RdSpace := .bar0
deriving DecidableEq, Repr

/-- The stageable commands of the catalogue (T in R137), each with its arguments at the basic or the expert level. -/
inductive TCmd where
  | fnQuotaProfile (profile : Nat)
  | fnQuotaVf (vf quota : Nat)
  | fnPerm (vf : Nat) (perm : W32)
  | queAssign (q fn slot cls : Nat)
  | queRelease (q : Nat)
  | queClassProfile (cls profile : Nat)
  | queClassMasks (cls weight : Nat) (masks : List W64)
  | queMove (q cls : Nat)
  | portModeProfile (pair profile : Nat)
  | portModeParams (pair : Nat) (params : List Byte)
  | portEnable (pair : Nat)
  | portDisable (pair : Nat)
  | saCreateProfile (dir sa pair suite : Nat)
  | saCreateParams (dir sa : Nat) (params : List Byte)
  | saStageBasic (dir sa : Nat) (key : W64)
  | saStageExpert (dir sa : Nat) (key : W64) (an : Byte) (pn : W64) (ssci : W32) (salt : BitVec 96)
  | saCommit (dir sa : Nat)
  | saDelete (dir sa : Nat)
  | saTimersProfile (profile : Nat)
  | saTimersMs (overlap drain : Nat)
  | fltBudgetProfile (profile : Nat)
  | fltBudgetTokens (tokens : Nat) (caps : List Nat)
deriving DecidableEq, Repr

end Sys2Proof.Machine
end

