-- ==== Sys2Proof/Syntax.lean ====
section
/-!
DEFINITION. The commands of the block: one constructor per row of the table of operations and events. An event row is
the occurrence that its rule names, with what the outside world contributes to it as operands; a microword row is one slot
of a Lath microword, issued at the engine it names.
-/
namespace Sys2Proof
open Sys2Proof.Machine

inductive Instr where
  -- Arong commands (R137)
  /-- `DEV_INFO` (R137): Arong command that returns the device code, stepping, life-cycle state, versions and
  DEVICE_ID. -/
  | devInfo (h : Hdr)
  /-- `DEV_STATUS` (R137): Arong command that returns the power, Grit, engine, Undercoat, tamper and Scrim status.
  -/
  | devStatus (h : Hdr)
  /-- `DEV_EXPERT` (R128): Arong command that opens or closes the expert diagnostic windows. -/
  | devExpert (h : Hdr) (enable : Nat)
  /-- `DEV_LOG` (R540): Arong command that returns device-log records starting from a given SEQ. -/
  | devLog (h : Hdr) (first : W32) (out : Buf)
  /-- `FN_INFO` (R655): Arong command that returns the generation, state, quota, dispatched jobs, queues and
  permissions of a function. -/
  | fnInfo (h : Hdr) (vf : Nat)
  /-- `FN_QUOTA` (R69): Arong command that sets VF job-token quotas, either by profile or per VF. -/
  | fnQuota (h : Hdr) (profile vf quota : Nat)
  /-- `FN_PERM` (R137): Arong command that sets the fn.perm mask of a VF. -/
  | fnPerm (h : Hdr) (vf : Nat) (perm : W32)
  /-- `QUE_ASSIGN` (R76): Arong command that assigns an unassigned queue to a function, slot or page, and class. -/
  | queAssign (h : Hdr) (q fn slot cls : Nat)
  /-- `QUE_RELEASE` (R78): Arong command that returns a DISABLED queue with no in-flight entry to the pool. -/
  | queRelease (h : Hdr) (q : Nat)
  /-- `QUE_CLASS` (R100): Arong command that sets the engines and weight of a schedule class. -/
  | queClass (h : Hdr) (cls profile weight : Nat) (masks : List W64)
  /-- `QUE_INFO` (R137): Arong command that returns the state, class, slot, ring size, PI and CI of a queue. -/
  | queInfo (h : Hdr) (queue : Nat)
  /-- `QUE_MOVE` (R78): Arong command that moves an assigned queue to another schedule class. -/
  | queMove (h : Hdr) (q cls : Nat)
  /-- `TXN_BEGIN` (R130): Arong command that opens a transaction and returns its TXN_ID. -/
  | txnBegin (h : Hdr) (timeout : Nat)
  /-- `TXN_COMMIT` (R134): Arong command that rechecks the staged commands and applies all of them at the next
  commit epoch, or rolls back. -/
  | txnCommit (h : Hdr)
  /-- `TXN_ROLLBACK` (R136): Arong command that discards every staged command and releases every lock. -/
  | txnRollback (h : Hdr)
  /-- `TXN_STATUS` (R137): Arong command that returns the open TXN_ID, the staged count and the remaining time. -/
  | txnStatus (h : Hdr)
  /-- `PORT_MODE` (R148): Arong command that sets the mode of a disabled port pair from a profile or a parameter
  block. -/
  | portMode (h : Hdr) (pair profile : Nat) (params : Buf)
  /-- `PORT_ENABLE` (R152): Arong command that enables a port pair and starts training once the mode, Grit, budget
  and engines allow. -/
  | portEnable (h : Hdr) (pair : Nat)
  /-- `PORT_DISABLE` (R151): Arong command that disables a port pair at its commit epoch and returns its lanes to
  electrical idle. -/
  | portDisable (h : Hdr) (pair : Nat)
  /-- `PORT_STATUS` (R153): Arong command that returns the mode, link state, lanes and FEC counts of a port. -/
  | portStatus (h : Hdr) (port : Nat)
  /-- `PORT_RECAL` (R620): Arong command that recalibrates one lane from scratch, retraining its sub-port. -/
  | portRecal (h : Hdr) (port lane disruptive : Nat)
  /-- `SA_CREATE` (R169): Arong command that creates an SA context in one direction. -/
  | saCreate (h : Hdr) (dir sa pair suite : Nat) (params : Buf)
  /-- `SA_STAGE` (R175): Arong command that loads a key into a free epoch slot of an SA as STAGED. -/
  | saStage (h : Hdr) (dir sa : Nat) (key : W64) (an : Byte) (pn : W64) (ssci : W32) (salt : BitVec 96)
  /-- `SA_COMMIT` (R177): Arong command that makes the staged epoch current at its commit epoch and starts draining
  the former current epoch. -/
  | saCommit (h : Hdr) (dir sa : Nat)
  /-- `SA_DELETE` (R180): Arong command that empties every epoch slot of an SA at its commit epoch. -/
  | saDelete (h : Hdr) (dir sa : Nat)
  /-- `SA_TIMERS` (R179): Arong command that sets the device-wide overlap and drain timers. -/
  | saTimers (h : Hdr) (profile overlap drain : Nat)
  /-- `SA_STATUS` (R181): Arong command that returns the epoch states, ANs and next PN of an SA. -/
  | saStatus (h : Hdr) (dir sa : Nat)
  /-- `KEY_INFO` (R466): Arong command that returns the metadata of a Bond slot named by a handle. -/
  | keyInfo (h : Hdr) (key : W64)
  /-- `KEY_FREE` (R440): Arong command that frees a key run to awaiting wipe, subject to epoch, transaction and
  origin checks. -/
  | keyFree (h : Hdr) (key : W64)
  /-- `KEY_IMPORT` (R463): Arong command that unwraps a key blob under a WRAP_ONLY key into a new volatile slot run.
  -/
  | keyImport (h : Hdr) (usage : Nat) (alg : W16) (wrap : W64) (blob : Buf)
  /-- `KEY_UPDATE` (R459): Arong command that checks a key update record and applies it as one journal commit. -/
  | keyUpdate (h : Hdr) (record : Buf)
  /-- `KEY_ATTEST` (R465): Arong command that returns the counter, measurements and a KMAC response to a challenge.
  -/
  | keyAttest (h : Hdr) (challenge : W256)
  /-- `KEY_LIST` (R466): Arong command that writes the list of allocated keys, or the DTK public block, into a host
  buffer. -/
  | keyList (h : Hdr) (first : Nat) (out : Buf)
  /-- `FLT_BUDGET` (R559): Arong command that sets the configured Float budget and per-kind caps. -/
  | fltBudget (h : Hdr) (profile tokens : Nat) (caps : List Nat)
  /-- `FLT_STATUS_CMD` (R558): Arong command flt.status that returns the ledger budget, free, granted and in-transit
  tokens and the FLT_LIMIT_N state. -/
  | fltStatus (h : Hdr)
  /-- `PWR_TELEMETRY` (R552): Arong command that returns the 1 ms means of rail voltage, current and temperature. -/
  | pwrTelemetry (h : Hdr) (rail : Nat)
  /-- `PWR_STATE` (R570): Arong command that requests entry to DUSTSHEET. -/
  | pwrState (h : Hdr) (profile target ms : Nat)
  /-- `PWR_WAKE` (R574): Arong command that sets the RTC wake alarm. -/
  | pwrWake (h : Hdr) (alarm : W64)
  /-- `GRT_STATUS` (R654): Arong command that returns the healthy sources, seeded parts and window-failure counts.
  -/
  | grtStatus (h : Hdr)
  /-- `GRT_KAT` (R423): Arong command that runs a known-answer test on the conditioner or an expander. -/
  | grtKat (h : Hdr) (target : Nat) (pass : Bool)
  /-- `SCR_STATUS` (R542): Arong command that returns the latched cause groups, the recovery count and the event-
  queue fill. -/
  | scrStatus (h : Hdr)
  /-- `SCR_CLEAR` (R530): Arong command that clears latched causes whose reporters read normal and closes emptied
  held records. -/
  | scrClear (h : Hdr) (cause : Nat)
  /-- `SCR_CONFIG` (R541): Arong command that sets the Scrim rank map profile, a cause rank or the quiet period. -/
  | scrConfig (h : Hdr) (profile cause rank quiet : Nat)
  /-- `TMP_STATUS_CMD` (R137): Arong command tmp.status that returns the sticky flags, last source and RTC stamp. -/
  | tmpStatusCmd (h : Hdr)
  /-- `TMP_CLEAR` (R508): Arong command that checks and applies a tamper record clearing flags or setting
  configuration or RTC. -/
  | tmpClear (h : Hdr) (buf : Buf) (ok : Bool)
  /-- `TMP_TEST` (R510): Arong command that stimulates one tamper detector internally and reports whether it
  detected. -/
  | tmpTest (h : Hdr) (source : Nat) (detected after : Bool)
  /-- `LCY_STATUS_CMD` (R482): Arong command lcy.status that returns the state, pending transition and debug scope.
  -/
  | lcyStatusCmd (h : Hdr)
  /-- `LCY_ADVANCE` (R475): Arong command that checks a signed transition request and runs the life-cycle transition
  steps. -/
  | lcyAdvance (h : Hdr) (buf : Buf) (wordFails candFails : Nat)
  /-- `LCY_DEBUG` (R486): Arong command that checks a debug token and opens its scope. -/
  | lcyDebug (h : Hdr) (token : Buf)
  /-- `FW_INFO` (R598): Arong command that returns the active image, slot versions and failed-start count. -/
  | fwInfo (h : Hdr)
  /-- `FW_STAGE` (R595): Arong command that checks an image and writes it into the non-running flash slot. -/
  | fwStage (h : Hdr) (image : Nat) (buf : Buf) (ok : Bool)
  /-- `FW_ACTIVATE` (R596): Arong command that sets PENDING to a slot whose image passed its checks in this start.
  -/
  | fwActivate (h : Hdr) (image : Nat)
  /-- `FW_PUTTY` (R227): Arong command that checks a Putty patch set and loads it into every Lath engine. -/
  | fwPutty (h : Hdr) (buf : Buf)
  /-- `FW_RECOVER` (R597): Arong command that writes an image into a slot, sets PENDING and clears START_FAILS, for
  recovery from Undercoat. -/
  | fwRecover (h : Hdr) (buf : Buf) (ok : Bool)
  /-- `ENG_STATUS` (R603): Arong command that returns the state, frequency step and margin of one unit. -/
  | engStatus (h : Hdr) (kind idx : Nat)
  /-- `ENG_RETIRE` (R616): Expert Arong command that retires a unit and returns the spares left. -/
  | engRetire (h : Hdr) (kind idx : Nat)
  /-- `ENG_KAT` (R612): Arong command that queues a known-answer test of one unit. -/
  | engKat (h : Hdr) (kind idx : Nat)
  /-- `ENG_MARGIN` (R615): Arong command that starts an immediate margin re-plan from the readings held. -/
  | engMargin (h : Hdr)
  /-- `HASH_EXPORT` (R367): Expert Arong command that exports an idle unkeyed Sponge context as a 400-byte record.
  -/
  | hashExport (h : Hdr) (n : Nat) (out : Buf)
  /-- `CTX_FREE` (R364): Arong command that frees and wipes an idle Sponge context. -/
  | ctxFree (h : Hdr) (n : Nat)
  /-- `OP_FAMILY` (R138): Arong command that runs a 64-byte descriptor as a job on Horrov's queue and returns its
  completion record. -/
  | opFamily (h : Hdr) (code : Byte) (d : Desc) (li lo : SglRead)
  -- Mailbox and SMBus events
  /-- `CMD_TIME_LIMIT` (R123): A mailbox command reaches its maximum time and completes with ST_ABORTED, its effects
  undone. -/
  | cmdTimeLimit (h : Hdr)
  /-- `MBX_DONE_CLEAR` (R120): Writing 1 to a slot's MBX_DONE bit returns the DONE slot to FREE. -/
  | mbxDoneClear (mask : W32)
  /-- `VMB_DONE_CLEAR` (R120): Writing 1 to VMB_DONE.DONE returns the VF light mailbox to FREE. -/
  | vmbDoneClear (vf : Nat)
  /-- `SMBUS_TIMEOUT` (R634): SMB_CLK held low for 25–35 ms resets the SMBus interface. -/
  | smbusTimeout
  -- PMBus and telemetry (R551, R552)
  /-- `PMBUS_PAGE` (R551): PMBus PAGE command that selects the rail page. -/
  | pmbusPage (op : PmOp)
  /-- `OPERATION` (R551): PMBus OPERATION command that reads 0x80. -/
  | operation (op : PmOp)
  /-- `CLEAR_FAULTS` (R551): PMBus command that clears status bits whose condition has ended. -/
  | clearFaults (op : PmOp)
  /-- `CAPABILITY` (R551): PMBus command that returns the capability byte. -/
  | capability (op : PmOp)
  /-- `VOUT_MODE` (R551): PMBus command that returns the output data format. -/
  | voutMode (op : PmOp)
  /-- `IOUT_OC_WARN_LIMIT` (R551): PMBus command that reads or sets a rail's overcurrent warning limit. -/
  | ioutOcWarnLimit (op : PmOp)
  /-- `OT_WARN_LIMIT` (R551): PMBus command that reads or sets a rail's overtemperature warning limit. -/
  | otWarnLimit (op : PmOp)
  /-- `VIN_OV_WARN_LIMIT` (R551): PMBus command that reads or sets the VIN overvoltage warning limit. -/
  | vinOvWarnLimit (op : PmOp)
  /-- `VIN_UV_WARN_LIMIT` (R551): PMBus command that reads or sets the VIN undervoltage warning limit. -/
  | vinUvWarnLimit (op : PmOp)
  /-- `STATUS_BYTE` (R551): PMBus command that returns the status byte of a page. -/
  | statusByte (op : PmOp)
  /-- `STATUS_WORD` (R551): PMBus command that returns the status word of a page. -/
  | statusWord (op : PmOp)
  /-- `STATUS_VOUT` (R551): PMBus command that returns the output voltage status. -/
  | statusVout (op : PmOp)
  /-- `STATUS_IOUT` (R551): PMBus command that returns the output current status. -/
  | statusIout (op : PmOp)
  /-- `STATUS_INPUT` (R551): PMBus command that returns the input status. -/
  | statusInput (op : PmOp)
  /-- `STATUS_TEMPERATURE` (R551): PMBus command that returns the temperature status. -/
  | statusTemperature (op : PmOp)
  /-- `STATUS_MFR_SPECIFIC` (R551): PMBus command that returns the FLT_LIMIT, sequence-stopped and failed step code
  bits. -/
  | statusMfrSpecific (op : PmOp)
  /-- `READ_VIN` (R551): PMBus command that returns the input voltage. -/
  | readVin (op : PmOp)
  /-- `READ_IIN` (R551): PMBus command that returns the input current. -/
  | readIin (op : PmOp)
  /-- `READ_VOUT` (R551): PMBus command that returns a rail's voltage. -/
  | readVout (op : PmOp)
  /-- `READ_IOUT` (R551): PMBus command that returns a rail's current. -/
  | readIout (op : PmOp)
  /-- `READ_TEMPERATURE_1` (R551): PMBus command that returns the hottest phase or controller temperature. -/
  | readTemperature1 (op : PmOp)
  /-- `READ_POUT` (R551): PMBus command that returns a rail's output power. -/
  | readPout (op : PmOp)
  /-- `READ_PIN` (R551): PMBus command that returns the input power. -/
  | readPin (op : PmOp)
  /-- `PMBUS_REVISION` (R551): PMBus command that returns the revision 0x44. -/
  | pmbusRevision (op : PmOp)
  /-- `MFR_ID` (R551): PMBus command that returns the manufacturer name. -/
  | mfrId (op : PmOp)
  /-- `MFR_MODEL` (R551): PMBus command that returns the model name. -/
  | mfrModel (op : PmOp)
  /-- `ALERT_RESPONSE` (R552): An SMBus Alert Response Address read that deasserts ALERT_N once no status bit
  remains set. -/
  | alertResponse
  /-- `TELEMETRY_SAMPLE` (R552): The 10 kHz rail sample that updates the 1 ms means and checks warning limits. -/
  | telemetrySample (page mv ma : Nat) (dc : Int)
  -- JTAG (R489)
  /-- `IDCODE` (R489): JTAG instruction that selects the IDCODE register. -/
  | jIdcode
  /-- `EXTEST` (R489): JTAG instruction that drives the boundary register while the device is held in warm reset. -/
  | jExtest
  /-- `SAMPLE_PRELOAD` (R489): JTAG instruction SAMPLE/PRELOAD of the boundary register. -/
  | jSamplePreload (value : W64)
  /-- `CLAMP` (R489): JTAG instruction CLAMP, available as EXTEST. -/
  | jClamp
  /-- `HIGHZ` (R489): JTAG instruction HIGHZ, available as EXTEST. -/
  | jHighz
  /-- `DBG_HALT` (R489): JTAG instruction for scope HRV_HALT, bypass unless the scope is open. -/
  | jDbgHalt
  /-- `DBG_DIAG` (R489): JTAG instruction for scope ENG_DIAG. -/
  | jDbgDiag
  /-- `DBG_TRACE` (R489): JTAG instruction for scope TRACE. -/
  | jDbgTrace
  /-- `DBG_SERDES` (R489): JTAG instruction for scope SERDES_DBG. -/
  | jDbgSerdes
  /-- `DBG_LSTEP` (R489): JTAG instruction for scope LATH_STEP. -/
  | jDbgLstep
  /-- `DBG_MRAM` (R489): JTAG instruction for scope MRAM_RAW. -/
  | jDbgMram
  /-- `DBG_SCAN` (R489): JTAG instruction for scope SCAN. -/
  | jDbgScan
  /-- `BYPASS` (R489): JTAG instruction that selects the bypass register. -/
  | jBypass
  -- Host writes, and reads with side effects
  /-- `REG_WRITE` (R9): A host write to a register that has no row of its own, applied under its access codes. -/
  | regWrite (w : RegWr)
  /-- `UNMAPPED_READ` (R15): A read of a BAR address holding no register returns 0 and records a LOG cause. -/
  | unmappedRead (r : RegRd)
  /-- `EXPERT_WINDOW_READ` (R36): A read of an expert diagnostic window, which returns 0 and records EXPERT_READ
  unless the expert level is open. -/
  | expertWindowRead (o size : Nat)
  /-- `REG64_LOW_READ` (R14): A 32-bit read of the lower half of a 64-bit register, which latches the upper half. -/
  | reg64LowRead (f o : Nat)
  /-- `PCIE_ERR_CNT_READ` (R74): A read of a PCIe error counter that returns and clears it. -/
  | pcieErrCntRead (k : Nat)
  /-- `QUE_JOBS_CNT_READ` (R12): A read of QUE_JOBS_CNT that returns and clears it. -/
  | queJobsCntRead (f p : Nat)
  /-- `SPG_YIELD_CNT_READ` (R12): A read of SPG_YIELD_CNT that returns and clears it. -/
  | spgYieldCntRead
  /-- `BND_FULL_CNT_READ` (R12): A read of BND_FULL_CNT that returns and clears it. -/
  | bndFullCntRead
  /-- `FLT_WAIT_CNT_READ` (R12): A read of FLT_WAIT_CNT that returns and clears it. -/
  | fltWaitCntRead
  /-- `FLT_LIMIT_CNT_READ` (R12): A read of FLT_LIMIT_CNT that returns and clears it. -/
  | fltLimitCntRead
  /-- `RND_SAEV_READ` (R204): A read of RND_SAEV that returns and removes the oldest SA event record. -/
  | rndSaevRead
  /-- `RND_SAEV_STAT_READ` (R204): A read of RND_SAEV_STAT that returns and clears LOST. -/
  | rndSaevStatRead
  /-- `EVQ_REC_LO_READ` (R537): A read of EVQ_REC_LO that returns and removes the highest-ranked record and latches
  its upper half. -/
  | evqRecLoRead
  /-- `EVQ_REC_HI_READ` (R537): A read of EVQ_REC_HI that returns the upper half latched by the last EVQ_REC_LO
  read. -/
  | evqRecHiRead
  /-- `EVQ_STATUS_READ` (R539): A read of EVQ_STATUS that returns and clears LOST. -/
  | evqStatusRead
  -- Queues
  /-- `QUE_PI_WRITE` (R91): A write of QUE_PI that posts entries, consumes the push window, or puts the queue into
  ERROR on overflow. -/
  | quePiWrite (f page : Nat) (v : W16)
  /-- `PUSH_SLOT_WRITE` (R93): A write into a push window slot that marks its 8-byte words. -/
  | pushSlotWrite (f page off : Nat) (data : List Byte)
  /-- `QUE_INVAL_HOLD` (R97): QUE_INVAL write with OP HOLD that holds an undispatched entry and stops later
  dispatch. -/
  | queInvalHold (f page : Nat) (idx : W16)
  /-- `QUE_INVAL_RELEASE` (R98): QUE_INVAL write with OP RELEASE that refetches the held entry and resumes dispatch.
  -/
  | queInvalRelease (f page : Nat) (idx : W16)
  /-- `QUEUE_ENABLE` (R82): QUE_CTRL.EN set from 0 to 1 resets the indices and enters ACTIVE or ERROR with CONFIG.
  -/
  | queueEnable (f page : Nat) (irq : Bool)
  /-- `QUEUE_DISABLE` (R83): QUE_CTRL.EN cleared from 1 to 0 stops fetching and enters STOPPING. -/
  | queueDisable (f page : Nat) (irq : Bool)
  /-- `QUEUE_STOPPED` (R83): The last dispatched job and outstanding read of a STOPPING queue end, and the queue
  enters DISABLED. -/
  | queueStopped (q : Nat)
  /-- `QUE_MOD_WRITE` (R112): A write of QUE_MOD that takes effect at the next CI advance. -/
  | queModWrite (f page timer count : Nat)
  /-- `MSIX_UNMASK` (R57): Unmasking a vector or function, or enabling MSI-X, sends the pending messages. -/
  | msixUnmask (f : Nat) (vec : Option Nat) (enable : Bool)
  /-- `DESCRIPTOR_FETCH` (R90): A fetched descriptor returns from host memory, or a pushed one is received, and is
  checked. -/
  | descriptorFetch (q : Nat) (r : Fetched)
  /-- `JOB_DISPATCH` (R99): An entry becomes next in dispatch order with its fences met, passes its handle checks,
  takes a job token and joins its class wait list. -/
  | jobDispatch (q : Nat)
  /-- `JOB_END` (R103): A job ends on its engine and its completion record is written, with zero-fill where it
  failed. -/
  | jobEnd (id : JobId)
  /-- `QUE_MOD_TIMER` (R111): The queue moderation timer reaches TIMER µs with a pending count and raises the
  interrupt. -/
  | queModTimer (q : Nat)
  /-- `FENCE` (R88): FENCE descriptor that completes with ST_OK once all earlier entries have completed. -/
  | fence (q : Nat)
  /-- `NOP` (R88): NOP descriptor that completes with ST_OK at dispatch. -/
  | nop (q : Nat)
  -- Jobs
  /-- `AEAD_SEAL` (R197): Lookaside AES-GCM authenticated encryption job. -/
  | aeadSeal (id : JobId) (inp : JobIn)
  /-- `AEAD_OPEN` (R197): Lookaside AES-GCM authenticated decryption job. -/
  | aeadOpen (id : JobId) (inp : JobIn)
  /-- `GMAC_TAG` (R197): Lookaside GMAC tag generation job. -/
  | gmacTag (id : JobId) (inp : JobIn)
  /-- `GMAC_CHECK` (R197): Lookaside GMAC verification job. -/
  | gmacCheck (id : JobId) (inp : JobIn)
  /-- `KEM_KEYGEN` (R289): ML-KEM key generation job into a DEC_ONLY seed slot. -/
  | kemKeygen (id : JobId) (inp : JobIn) (ok : Bool)
  /-- `KEM_ENCAPS` (R291): ML-KEM encapsulation job that writes ct and a shared-secret slot. -/
  | kemEncaps (id : JobId) (inp : JobIn)
  /-- `KEM_DECAPS` (R292): ML-KEM decapsulation job with implicit rejection into a shared-secret slot. -/
  | kemDecaps (id : JobId) (inp : JobIn)
  /-- `HYB_ENCAPS` (R304): Hybrid ML-KEM and X25519 encapsulation job into a combined-secret slot. -/
  | hybEncaps (id : JobId) (inp : JobIn)
  /-- `HYB_DECAPS` (R304): Hybrid ML-KEM and X25519 decapsulation job into a combined-secret slot. -/
  | hybDecaps (id : JobId) (inp : JobIn)
  /-- `KEM_REKEY` (R307): Encapsulation or decapsulation, optionally hybrid, followed by a KMAC KDF into traffic-key
  slots. -/
  | kemRekey (id : JobId) (inp : JobIn)
  /-- `HYBRID_LATH_PART` (R304): The Hawk part of a hybrid job ends and its Lath part joins the Lath wait list. -/
  | hybridLathPart (id : JobId) (inp : JobIn) (ok : Bool)
  /-- `DSA_KEYGEN` (R294): ML-DSA key generation job. -/
  | dsaKeygen (id : JobId) (inp : JobIn) (ok : Bool)
  /-- `DSA_SIGN` (R296): ML-DSA signing job running the rejection loop. -/
  | dsaSign (id : JobId) (inp : JobIn) (ok : Bool)
  /-- `DSA_VERIFY` (R297): ML-DSA verification job at level 0. -/
  | dsaVerify (id : JobId) (inp : JobIn)
  /-- `SLH_KEYGEN` (R327): SLH-DSA key generation job. -/
  | slhKeygen (id : JobId) (inp : JobIn) (ok : Bool)
  /-- `SLH_SIGN` (R327): SLH-DSA signing job. -/
  | slhSign (id : JobId) (inp : JobIn) (ok : Bool)
  /-- `SLH_VERIFY` (R327): SLH-DSA verification job. -/
  | slhVerify (id : JobId) (inp : JobIn)
  /-- `LMS_KEYGEN` (R330): HSS key generation job into a persistent slot. -/
  | lmsKeygen (id : JobId) (inp : JobIn) (ok : Bool)
  /-- `LMS_SIGN` (R333): HSS signing job that takes an index at dispatch. -/
  | lmsSign (id : JobId) (inp : JobIn) (ok : Bool)
  /-- `LMS_VERIFY` (R331): HSS verification job. -/
  | lmsVerify (id : JobId) (inp : JobIn)
  /-- `RESERVATION_WRITE_DONE` (R332): An LMS/HSS reservation record is written and verified, raising the reserved
  limit. -/
  | reservationWriteDone (k : Nat) (how : ResWrite)
  /-- `LMS_REBUILD_DONE` (R339): The tree-state rebuild of an LMS/HSS key in its home Quad completes. -/
  | lmsRebuildDone (k : Nat)
  /-- `HQC_KEYGEN` (R343): HQC key generation job. -/
  | hqcKeygen (id : JobId) (inp : JobIn) (ok : Bool)
  /-- `HQC_ENCAPS` (R343): HQC encapsulation job. -/
  | hqcEncaps (id : JobId) (inp : JobIn)
  /-- `HQC_DECAPS` (R343): HQC decapsulation job. -/
  | hqcDecaps (id : JobId) (inp : JobIn)
  /-- `MCE_KEYGEN` (R349): Classic McEliece key generation job running elimination attempts. -/
  | mceKeygen (id : JobId) (inp : JobIn) (ok : Bool)
  /-- `MCE_ENCAPS` (R348): Classic McEliece encapsulation job with a cached or supplied key. -/
  | mceEncaps (id : JobId) (inp : JobIn)
  /-- `MCE_DECAPS` (R346): Classic McEliece decapsulation job. -/
  | mceDecaps (id : JobId) (inp : JobIn)
  /-- `MCE_CACHE` (R347): Job that loads a Classic McEliece public key into the key cache of every Quad. -/
  | mceCache (id : JobId) (inp : JobIn)
  /-- `REGION_ALLOC` (R341): A Quad memory region becomes available to a waiting job. -/
  | regionAlloc (id : JobId) (q : Nat)
  /-- `MCE_KEY_LOADED` (R348): The load of a supplied Classic McEliece key into its region ends and the job joins
  the Lath wait list. -/
  | mceKeyLoaded (id : JobId) (inp : JobIn)
  /-- `HASH_DIGEST` (R358): Plain digest or XOF job in one shot or in phases. -/
  | hashDigest (id : JobId) (inp : JobIn)
  /-- `HASH_IMPORT` (R368): Job that creates a Sponge context from an exported state record. -/
  | hashImport (id : JobId) (inp : JobIn)
  /-- `MAC_HMAC` (R370): HMAC generation or verification job. -/
  | macHmac (id : JobId) (inp : JobIn)
  /-- `MAC_KMAC` (R371): KMAC generation or verification job. -/
  | macKmac (id : JobId) (inp : JobIn)
  /-- `KDF_DERIVE` (R373): Key derivation job into Bond slots. -/
  | kdfDerive (id : JobId) (inp : JobIn)
  /-- `POOL_YIELD` (R366): A pool job reaches a block boundary past its quantum with a job waiting and yields its
  core to a save slot. -/
  | poolYield (id : JobId)
  /-- `POOL_RESUME` (R366): A yielded pool job restores into a free core of its kind. -/
  | poolResume (id : JobId)
  /-- `EC_KEYGEN` (R391): X25519, Ed25519, P-256 or P-384 key generation job. -/
  | ecKeygen (id : JobId) (inp : JobIn) (ok : Bool)
  /-- `EC_DH` (R397): X25519 or ECDH job into a DERIVE_ONLY slot. -/
  | ecDh (id : JobId) (inp : JobIn) (ok : Bool)
  /-- `EC_SIGN` (R395): Ed25519 or ECDSA signing job. -/
  | ecSign (id : JobId) (inp : JobIn) (ok : Bool)
  /-- `EC_VERIFY` (R397): Ed25519 or ECDSA verification job. -/
  | ecVerify (id : JobId) (inp : JobIn)
  /-- `RSA_SIGN` (R395): RSASSA-PSS or PKCS1-v1_5 signing job. -/
  | rsaSign (id : JobId) (inp : JobIn) (ok : Bool)
  /-- `RSA_VERIFY` (R400): RSA signature verification job. -/
  | rsaVerify (id : JobId) (inp : JobIn)
  /-- `RSA_ENCRYPT` (R400): RSAES-OAEP encryption job. -/
  | rsaEncrypt (id : JobId) (inp : JobIn)
  /-- `RSA_DECRYPT` (R397): RSAES-OAEP decryption job. -/
  | rsaDecrypt (id : JobId) (inp : JobIn) (ok : Bool)
  /-- `BN_MODEXP` (R400): Public modular exponentiation job. -/
  | bnModexp (id : JobId) (inp : JobIn)
  /-- `BN_MODMUL` (R400): Public modular multiplication job. -/
  | bnModmul (id : JobId) (inp : JobIn)
  -- Lath microwords: the sequencing slot (R213)
  /-- `SEQ` (R213): Microword sequencing to NEXT in the current space. -/
  | mSeq (n : Nat) (next : BitVec 14)
  /-- `BRANCH` (R214): Microword sequencing to NEXT with bit 0 set by a condition. -/
  | mBranch (n : Nat) (csel : BitVec 6) (next : BitVec 14)
  /-- `CALL` (R215): Microword sequencing that pushes the return address and goes to NEXT. -/
  | mCall (n : Nat) (next : BitVec 14)
  /-- `RETURN` (R215): Microword sequencing that pops the return stack. -/
  | mReturn (n : Nat)
  /-- `SAFE` (R231): Microword safe point at which pending aborts, faults and preemptions are taken. -/
  | mSafe (n : Nat) (next : BitVec 14)
  /-- `HALT` (R217): Microword that ends the job, builds its completion and allocates or discards staged slots. -/
  | mHalt (n : Nat)
  /-- `DISPATCH` (R213): Microword sequencing to NEXT with bits 3:0 from a scalar register. -/
  | mDispatch (n : Nat) (reg : BitVec 5) (next : BitVec 14)
  /-- `PJUMP` (R213): Microword sequencing into PATCH space. -/
  | mPjump (n : Nat) (next : BitVec 14)
  /-- `RJUMP` (R213): Microword sequencing into ROM space. -/
  | mRjump (n : Nat) (next : BitVec 14)
  -- Lath microwords: the scalar slot (R211)
  /-- `ADD` (R211): Scalar addition. -/
  | mAdd (n : Nat) (rd rs1 rs2 : BitVec 5)
  /-- `SUB` (R211): Scalar subtraction. -/
  | mSub (n : Nat) (rd rs1 rs2 : BitVec 5)
  /-- `AND` (R211): Scalar AND. -/
  | mAnd (n : Nat) (rd rs1 rs2 : BitVec 5)
  /-- `OR` (R211): Scalar OR. -/
  | mOr (n : Nat) (rd rs1 rs2 : BitVec 5)
  /-- `XOR` (R211): Scalar XOR. -/
  | mXor (n : Nat) (rd rs1 rs2 : BitVec 5)
  /-- `SLL` (R211): Scalar logical shift left. -/
  | mSll (n : Nat) (rd rs1 rs2 : BitVec 5)
  /-- `SRL` (R211): Scalar logical shift right. -/
  | mSrl (n : Nat) (rd rs1 rs2 : BitVec 5)
  /-- `SRA` (R211): Scalar arithmetic shift right. -/
  | mSra (n : Nat) (rd rs1 rs2 : BitVec 5)
  /-- `MUL` (R211): Scalar low multiply. -/
  | mMul (n : Nat) (rd rs1 rs2 : BitVec 5)
  /-- `MULHU` (R211): Scalar high unsigned multiply. -/
  | mMulhu (n : Nat) (rd rs1 rs2 : BitVec 5)
  /-- `ADDI` (R211): Scalar add immediate. -/
  | mAddi (n : Nat) (rd rs1 : BitVec 5) (imm : W16)
  /-- `ANDI` (R211): Scalar AND immediate. -/
  | mAndi (n : Nat) (rd rs1 : BitVec 5) (imm : W16)
  /-- `ORI` (R211): Scalar OR immediate. -/
  | mOri (n : Nat) (rd rs1 : BitVec 5) (imm : W16)
  /-- `XORI` (R211): Scalar XOR immediate. -/
  | mXori (n : Nat) (rd rs1 : BitVec 5) (imm : W16)
  /-- `SHI` (R211): Scalar shift by immediate. -/
  | mShi (n : Nat) (rd rs1 : BitVec 5) (mode : BitVec 2) (cnt : BitVec 6)
  /-- `LUI` (R211): Scalar load upper immediate. -/
  | mLui (n : Nat) (rd : BitVec 5) (imm : W16)
  /-- `CMP` (R211): Scalar compare setting flags. -/
  | mCmp (n : Nat) (rs1 rs2 : BitVec 5)
  /-- `CMPI` (R211): Scalar compare with immediate setting flags. -/
  | mCmpi (n : Nat) (rs1 : BitVec 5) (imm : W16)
  /-- `MFS` (R212): Scalar move from special register. -/
  | mMfs (n : Nat) (rd : BitVec 5) (num : Byte)
  /-- `MTS` (R212): Scalar move to special register VL or VSTART. -/
  | mMts (n : Nat) (rs1 : BitVec 5) (num : Byte)
  /-- `SEL` (R211): Scalar constant-time select on Z. -/
  | mSel (n : Nat) (rd rs1 rs2 : BitVec 5)
  -- Lath microwords: the vector slot
  /-- `VADD` (R254): Vector addition. -/
  | mVadd (n : Nat) (v : VSlot)
  /-- `VSUB` (R254): Vector subtraction. -/
  | mVsub (n : Nat) (v : VSlot)
  /-- `VAND` (R254): Vector AND. -/
  | mVand (n : Nat) (v : VSlot)
  /-- `VOR` (R254): Vector OR. -/
  | mVor (n : Nat) (v : VSlot)
  /-- `VXOR` (R254): Vector XOR. -/
  | mVxor (n : Nat) (v : VSlot)
  /-- `VSLL` (R254): Vector shift left. -/
  | mVsll (n : Nat) (v : VSlot)
  /-- `VSRL` (R254): Vector logical shift right. -/
  | mVsrl (n : Nat) (v : VSlot)
  /-- `VSRA` (R254): Vector arithmetic shift right. -/
  | mVsra (n : Nat) (v : VSlot)
  /-- `VMUL` (R254): Vector low multiply. -/
  | mVmul (n : Nat) (v : VSlot)
  /-- `VMULHU` (R254): Vector high unsigned multiply. -/
  | mVmulhu (n : Nat) (v : VSlot)
  /-- `VMINU` (R254): Vector unsigned minimum. -/
  | mVminu (n : Nat) (v : VSlot)
  /-- `VMAXU` (R254): Vector unsigned maximum. -/
  | mVmaxu (n : Nat) (v : VSlot)
  /-- `VMV` (R254): Vector move. -/
  | mVmv (n : Nat) (v : VSlot)
  /-- `VCMP` (R254): Vector compare into a mask register. -/
  | mVcmp (n : Nat) (v : VSlot)
  /-- `VCLMUL` (R254): Vector carry-less multiply. -/
  | mVclmul (n : Nat) (v : VSlot)
  /-- `VADDQ` (R255): Vector modular addition. -/
  | mVaddq (n : Nat) (v : VSlot)
  /-- `VSUBQ` (R255): Vector modular subtraction. -/
  | mVsubq (n : Nat) (v : VSlot)
  /-- `VMULQ` (R255): Vector modular multiplication. -/
  | mVmulq (n : Nat) (v : VSlot)
  /-- `VREDQ` (R255): Vector modular reduction. -/
  | mVredq (n : Nat) (v : VSlot)
  /-- `VNTT` (R256): Forward NTT layer. -/
  | mVntt (n : Nat) (v : VSlot)
  /-- `VINTT` (R256): Inverse NTT layer. -/
  | mVintt (n : Nat) (v : VSlot)
  /-- `VTWID` (R256): Twiddle vector generation. -/
  | mVtwid (n : Nat) (v : VSlot)
  /-- `VBMUL` (R257): ML-KEM base-case product. -/
  | mVbmul (n : Nat) (v : VSlot)
  /-- `VCPRS` (R258): Compress_d. -/
  | mVcprs (n : Nat) (v : VSlot)
  /-- `VDCPRS` (R258): Decompress_d. -/
  | mVdcprs (n : Nat) (v : VSlot)
  /-- `VUNPK` (R259): Unpack bit fields into elements. -/
  | mVunpk (n : Nat) (v : VSlot)
  /-- `VPACK` (R259): Pack elements into bit fields. -/
  | mVpack (n : Nat) (v : VSlot)
  /-- `VCOMPRESS` (R259): Compress active elements. -/
  | mVcompress (n : Nat) (v : VSlot)
  /-- `VPOPC` (R259): Count mask bits into a scalar register. -/
  | mVpopc (n : Nat) (v : VSlot)
  /-- `SETVL` (R259): Set VL from a scalar register. -/
  | mSetvl (n : Nat) (v : VSlot)
  /-- `VMOP` (R259): Mask register logic operation. -/
  | mVmop (n : Nat) (v : VSlot)
  /-- `VMVXV` (R259): Move one vector element to a scalar register. -/
  | mVmvxv (n : Nat) (v : VSlot)
  /-- `VMVVX` (R259): Move a scalar into one vector element. -/
  | mVmvvx (n : Nat) (v : VSlot)
  /-- `SMVXS` (R259): Move a short-vector register to a scalar register. -/
  | mSmvxs (n : Nat) (v : VSlot)
  /-- `SMVSX` (R259): Move a scalar register to a short-vector register. -/
  | mSmvsx (n : Nat) (v : VSlot)
  /-- `VSLIDEDN` (R259): Slide elements down. -/
  | mVslidedn (n : Nat) (v : VSlot)
  /-- `VSLIDEUP` (R259): Slide elements up. -/
  | mVslideup (n : Nat) (v : VSlot)
  /-- `VRED` (R259): Reduction into a scalar register. -/
  | mVred (n : Nat) (v : VSlot)
  /-- `VPERM` (R259): Constant-time permutation. -/
  | mVperm (n : Nat) (v : VSlot)
  /-- `VBSLL` (R260): Binary-mode shift left. -/
  | mVbsll (n : Nat) (v : VSlot)
  /-- `VBSRL` (R260): Binary-mode shift right. -/
  | mVbsrl (n : Nat) (v : VSlot)
  /-- `VBROT` (R260): Binary-mode rotation. -/
  | mVbrot (n : Nat) (v : VSlot)
  /-- `VBPOPC` (R260): Binary-mode population count. -/
  | mVbpopc (n : Nat) (v : VSlot)
  /-- `VBTRN` (R260): Binary-mode 32 by 32 transpose. -/
  | mVbtrn (n : Nat) (v : VSlot)
  /-- `VGFMUL` (R260): GF(2^m) multiplication. -/
  | mVgfmul (n : Nat) (v : VSlot)
  /-- `VFCLR` (R278): Clear the vector fault record, optionally VSTART. -/
  | mVfclr (n : Nat) (v : VSlot)
  /-- `VFRD` (R278): Read the vector fault record into a scalar register. -/
  | mVfrd (n : Nat) (v : VSlot)
  /-- `VADDQ_S` (R264): Share-wise modular addition. -/
  | mVaddqS (n : Nat) (v : VSlot)
  /-- `VSUBQ_S` (R264): Share-wise modular subtraction. -/
  | mVsubqS (n : Nat) (v : VSlot)
  /-- `VMULQ_S` (R264): Share-wise modular multiplication by a public operand. -/
  | mVmulqS (n : Nat) (v : VSlot)
  /-- `VNTT_S` (R264): Forward NTT layer on each share. -/
  | mVnttS (n : Nat) (v : VSlot)
  /-- `VINTT_S` (R264): Inverse NTT layer on each share. -/
  | mVinttS (n : Nat) (v : VSlot)
  /-- `VBMUL_S` (R264): Base-case product of each share with a public register. -/
  | mVbmulS (n : Nat) (v : VSlot)
  /-- `VXOR_S` (R264): Share-wise exclusive OR. -/
  | mVxorS (n : Nat) (v : VSlot)
  /-- `VAND_S` (R264): Share-wise or masked AND. -/
  | mVandS (n : Nat) (v : VSlot)
  /-- `VSH_S` (R264): Share-wise logical shift. -/
  | mVshS (n : Nat) (v : VSlot)
  /-- `VREF_S` (R264): Refresh of a sharing. -/
  | mVrefS (n : Nat) (v : VSlot)
  /-- `VA2B_S` (R264): Arithmetic to Boolean sharing conversion. -/
  | mVa2bS (n : Nat) (v : VSlot)
  /-- `VB2A_S` (R264): Boolean to arithmetic sharing conversion. -/
  | mVb2aS (n : Nat) (v : VSlot)
  /-- `VCPRS_S` (R264): Masked Compress_d. -/
  | mVcprsS (n : Nat) (v : VSlot)
  /-- `VMEQZ_S` (R264): Masked all-zero test of a Boolean sharing. -/
  | mVmeqzS (n : Nat) (v : VSlot)
  /-- `VRECOMB` (R264): Recombine a sharing into a single register. -/
  | mVrecomb (n : Nat) (v : VSlot)
  /-- `VSPLIT` (R264): Split a single register into a fresh sharing. -/
  | mVsplit (n : Nat) (v : VSlot)
  -- Lath microwords: the memory slot (R269)
  /-- `VLE` (R269): Unit-stride vector load. -/
  | mVle (n : Nat) (m : MemV)
  /-- `VSE` (R269): Unit-stride vector store. -/
  | mVse (n : Nat) (m : MemV)
  /-- `VLSE` (R269): Strided vector load. -/
  | mVlse (n : Nat) (m : MemV)
  /-- `VSSE` (R269): Strided vector store. -/
  | mVsse (n : Nat) (m : MemV)
  /-- `VLUX` (R269): Indexed gather. -/
  | mVlux (n : Nat) (m : MemV)
  /-- `VSUX` (R273): Indexed scatter. -/
  | mVsux (n : Nat) (m : MemV)
  /-- `VLSEG` (R272): Structure load of interleaved fields. -/
  | mVlseg (n : Nat) (m : MemV)
  /-- `VSSEG` (R272): Structure store of interleaved fields. -/
  | mVsseg (n : Nat) (m : MemV)
  /-- `SLD` (R269): Short-vector register load. -/
  | mSld (n : Nat) (m : MemX)
  /-- `SST` (R269): Short-vector register store. -/
  | mSst (n : Nat) (m : MemX)
  /-- `XLD` (R269): Scalar register load. -/
  | mXld (n : Nat) (m : MemX)
  /-- `XST` (R269): Scalar register store. -/
  | mXst (n : Nat) (m : MemX)
  -- Lath microwords: the Sponge and port slot (R218)
  /-- `ACQ` (R237): Open a claim on an arbiter resource. -/
  | mAcq (n : Nat) (p : PSlot)
  /-- `REL` (R218): Close a claim on an arbiter resource. -/
  | mRel (n : Nat) (p : PSlot)
  /-- `LOCK` (R240): Start a locked sequence over the claimed resources. -/
  | mLock (n : Nat) (p : PSlot)
  /-- `UNLOCK` (R240): End the locked sequence. -/
  | mUnlock (n : Nat) (p : PSlot)
  /-- `SINIT` (R218): Reset a claimed Sponge core to a mode. -/
  | mSinit (n : Nat) (p : PSlot)
  /-- `SABS` (R219): Absorb vector bytes into a claimed Sponge core. -/
  | mSabs (n : Nat) (p : PSlot)
  /-- `SSQZ` (R218): Squeeze output bytes from a claimed Sponge core. -/
  | mSsqz (n : Nat) (p : PSlot)
  /-- `MGET` (R223): Fill a vector register with mask words. -/
  | mMget (n : Nat) (p : PSlot)
  /-- `BLOAD` (R220): Load a job key as shares into vector registers. -/
  | mBload (n : Nat) (p : PSlot)
  /-- `BSTOR` (R217): Stage a result key from vector registers. -/
  | mBstor (n : Nat) (p : PSlot)
  /-- `DIN` (R221): Asynchronous copy from job input to local memory. -/
  | mDin (n : Nat) (xa xb : BitVec 5)
  /-- `DOUT` (R221): Asynchronous copy from local memory to job output. -/
  | mDout (n : Nat) (xa xb : BitVec 5)
  -- Lath and engine events
  /-- `SPONGE_OP_DONE` (R219): The last block of a SABS or SSQZ is processed and the operation completes. -/
  | spongeOpDone (n : Nat)
  /-- `DMA_DONE` (R221): Every DIN and DOUT issued by the job has finished. -/
  | dmaDone (n : Nat) (inp : JobIn)
  /-- `ARB_ROUND` (R238): An arbitration round at the end of a tenure or on an idle cycle chooses the next winner.
  -/
  | arbRound (q k : Nat) (ready : List Nat) (cyc : Nat)
  /-- `LOCK_OVER` (R240): A locked sequence reaches LOCK_MAX cycles and the arbiter ends it. -/
  | lockOver (q r : Nat)
  /-- `SAFE_MISS` (R232): The issue-cycle count since the last safe point reaches 4 096. -/
  | safeMiss (n : Nat)
  /-- `PREEMPT_REQUEST` (R235): A drained engine's running job has not ended within 50 µs and Horrov requests
  preemption. -/
  | preemptRequest (n : Nat)
  /-- `JOB_RESUME` (R235): A suspended job resumes on the first free engine of its Quad. -/
  | jobResume (n : Nat)
  /-- `ENGINE_WIPE_DONE` (R233): An engine finishes its wipe sequence and may accept work again. -/
  | engineWipeDone (hawk : Bool) (n : Nat)
  -- Frames and ports
  /-- `HOST_FRAME_RX` (R161): A complete frame arrives at a host sub-port and is classified to a transmit SA, the
  uncontrolled set, or dropped. -/
  | hostFrameRx (n sub corr unc : Nat) (f : Frame)
  /-- `LINE_FRAME_RX` (R162): A complete frame arrives at a line sub-port and is classified to a receive SA and
  epoch, the uncontrolled set, or dropped. -/
  | lineFrameRx (n sub corr unc : Nat) (f : Frame)
  /-- `PAUSE_REFRESH` (R157): Half a quanta duration elapses with occupancy above XON and the PAUSE is repeated. -/
  | pauseRefresh (n sub : Nat)
  /-- `RENDER_FRAME_DONE` (R26): A Render engine finishes a frame and the egress stage checks replay, restores order
  and transmits it. -/
  | renderFrameDone (e : Nat)
  /-- `COMMIT_EPOCH` (R134): The commit epoch passes and each port takes up the committed state at its next frame
  boundary. -/
  | commitEpoch
  /-- `OVERLAP_TIMER` (R179): The overlap window of a DRAIN_ACCEPT receive epoch expires and the epoch becomes
  DRAINING. -/
  | overlapTimer (a i : Nat)
  /-- `DRAIN_TIMER` (R179): The drain timer of a draining epoch expires, the slot empties and its Bond reference is
  released. -/
  | drainTimer (dir a i : Nat)
  /-- `TXN_TIMEOUT` (R136): An open transaction reaches its timeout and is rolled back. -/
  | txnTimeout
  /-- `PORT_UP` (R153): A training sub-port locks its PCS and reports UP. -/
  | portUp (port sub : Nat)
  /-- `PORT_LOCK_LOSS` (R153): A sub-port loses PCS lock or the FEC reports degradation and enters LOCAL_FAULT. -/
  | portLockLoss (port sub : Nat) (fec : Bool)
  /-- `REMOTE_FAULT` (R153): A link partner sends Remote Fault and the sub-port enters REMOTE_FAULT. -/
  | remoteFault (port sub : Nat)
  /-- `RENDER_TAKEOVER` (R193): A spare Render engine, granted by Float, takes over a retired engine's assignment.
  -/
  | renderTakeover (u : Nat)
  /-- `MASK_FEED_STALL` (R191): A Render Quad mask generator cannot deliver and its engines stop admitting work. -/
  | maskFeedStall (q : Nat) (stall : Bool)
  -- Functions and the link
  /-- `VF_ENABLE` (R53): Setting VF Enable creates VF1 to VF(NumVFs) with EVEN quotas. -/
  | vfEnable
  /-- `VF_READY` (R54): A created VF becomes ready and stops answering with Request Retry Status. -/
  | vfReady (v : Nat)
  /-- `VF_DISABLE` (R55): Clearing VF Enable removes every VF through FLR-like steps. -/
  | vfDisable
  /-- `FLR` (R61): A function-level reset starts, increments the generation and stops fetch and dispatch. -/
  | flr (f : Nat)
  /-- `FLR_COMPLETE` (R64): Every old-generation job, engine wipe and slot wipe of an FLR has ended and the FLR
  completes. -/
  | flrComplete (f : Nat)
  /-- `PERSIST_RESTORE` (R441): Persistent slots released at a PF FLR are restored from the active journal image. -/
  | persistRestore
  /-- `BUS_MASTER_ENABLE` (R51): Setting Bus Master Enable lets the function's waiting DMA jobs proceed. -/
  | busMasterEnable (f : Nat)
  /-- `D3HOT_ENTRY` (R59): A function enters D3hot; fetch and dispatch stop and completions are held. -/
  | d3hotEntry (f : Nat)
  /-- `D3HOT_EXIT` (R113): A function returns to D0 and its held records, writeback and interrupts are written. -/
  | d3hotExit (f : Nat)
  /-- `LINK_DOWN` (R47): Link down, hot reset or link disable acts as a PF0 FLR and resets configuration space. -/
  | linkDown
  /-- `LINK_CHANGE` (R45): The link trains at a new speed or width and the degraded status is updated. -/
  | linkChange (speed width : Nat) (flit : Bool)
  /-- `L1_ENTRY` (R46): The link has been idle for 8 µs and the device requests ASPM L1. -/
  | l1Entry
  /-- `DMA_READ_ERROR` (R105): A job's DMA read times out, is poisoned or is refused, ending the job with
  ST_DMA_ERROR. -/
  | dmaReadError (id : JobId) (e : DmaErr)
  -- Float, power and clocks
  /-- `FLOAT_GRANT` (R561): Float grants tokens to a waiting request once free tokens and caps allow. -/
  | floatGrant
  /-- `REVOKE_ACK` (R563): A revoked engine stops its clock and its tokens leave in-transit. -/
  | revokeAck (h : Holder)
  /-- `FLT_REVOKE_LATE` (R563): A revoke not acknowledged within 1 µs raises a cause for its holder. -/
  | fltRevokeLate (h : Holder)
  /-- `FLT_LIMIT_ASSERT` (R564): FLT_LIMIT_N falls, the target drops to 640 tokens and grants are revoked. -/
  | fltLimitAssert
  /-- `FLT_LIMIT_DEASSERT` (R564): FLT_LIMIT_N rises, the target returns and paused jobs are regranted. -/
  | fltLimitDeassert
  /-- `FLT_OVERDRAW` (R566): An engine draws more than 25 % above its grant for 1 µs. -/
  | fltOverdraw (h : Holder)
  /-- `TJ_WARN` (R565): A compute-die sensor reads above 105 °C and the thermal cap applies. -/
  | tjWarn
  /-- `TJ_CRIT` (R565): A compute-die sensor reads above 125 °C and HALT is raised. -/
  | tjCrit
  /-- `PHASE_FAULT` (R550): A VCORE phase faults and is switched out. -/
  | phaseFault
  /-- `RAIL_OOR` (R548): A rail stays outside ±5 % for 10 µs. -/
  | railOor (page : Nat)
  /-- `VCORE_SLEW_DONE` (R549): VCORE reaches its new set point. -/
  | vcoreSlewDone
  /-- `CLOCK_RELOCK` (R554): An engine clock generator relocks at a new step and the unit may take work. -/
  | clockRelock (u : Nat)
  /-- `ROOT_UNLOCK` (R556): REFCLK_CORE is lost or the root PLL loses lock. -/
  | rootUnlock (refclk : Bool)
  /-- `SD_UNLOCK` (R556): An SD_REFCLK is lost and its ports go to LOCAL_FAULT. -/
  | sdUnlock (k : Nat)
  /-- `PCIE_REFCLK_LOSS` (R556): PCIE_REFCLK is lost and the link goes down. -/
  | pcieRefclkLoss
  -- Starts and power states
  /-- `COLD_START` (R579): VIN rises above the lockout and the power-up sequence and start run. -/
  | coldStart (inp : StartIn)
  /-- `WARM_RESET` (R579): PERST_N or SYS_RST_N is held low for 1 µs, or the device resets itself, and the start
  runs from S1. -/
  | warmReset (src : ResetSrc) (held : Bool) (inp : StartIn)
  /-- `VIN_LOSS` (R546): VIN falls below the undervoltage lockout and the rails are discharged. -/
  | vinLoss
  /-- `VIN_OVERVOLTAGE` (R546): VIN rises above the overvoltage shutdown and the rails are discharged. -/
  | vinOvervoltage
  /-- `VIN_WARN` (R547): VIN falls below its warning threshold and new MRAM commits are held. -/
  | vinWarn
  /-- `POWER_STEP_READY` (R575): A power-up step reports ready and the next step starts after its delay. -/
  | powerStepReady (inp : StartIn)
  /-- `SEQ_STEP_TIMEOUT` (R576): A power-up step reaches its timeout and is retried or the sequence fails. -/
  | seqStepTimeout
  /-- `START_TIMEOUT` (R581): The start watchdog reaches 1 000 ms without READY and the start fails. -/
  | startTimeout
  /-- `START_RETRY` (R581): The 100 ms hold after a failed start ends and the start runs again from S1. -/
  | startRetry (inp : StartIn)
  /-- `LC_RESET` (R478): 10 ms after a transition's response the device causes a warm reset. -/
  | lcReset (inp : StartIn)
  /-- `FW_RECOVER_RESET` (R597): 10 ms after fw.recover responds the device causes a warm reset. -/
  | fwRecoverReset (inp : StartIn)
  /-- `IDLE_ENTRY` (R569): 100 µs with no pair, job or command places the device in IDLE. -/
  | idleEntry
  /-- `DUST_JOB_TIMEOUT` (R571): Jobs still running 50 ms into a DUSTSHEET entry end with ST_ABORTED. -/
  | dustJobTimeout
  /-- `DUST_SAMPLE` (R572): A DUST_PERIOD expires and the custody die samples and compares its monitors. -/
  | dustSample (out : Bool)
  /-- `DUST_WAKE` (R573): A wake source ends DUSTSHEET, or abandons its entry, and the resume runs. -/
  | dustWake (inp : StartIn)
  /-- `WAKE_N` (R573): WAKE_N held low for 10 µs is a wake source. -/
  | wakeN
  /-- `RTC_ALARM` (R574): The RTC reaches the alarm set by pwr.wake. -/
  | rtcAlarm
  -- Custody die
  /-- `TAMPER_ALARM` (R495): A tamper detector raises its alarm; the flag is set and its rank and any ERASE are
  carried out. -/
  | tamperAlarm (i : Nat) (stays : Bool)
  /-- `DEBUG_EXPIRE` (R487): The RTC passes NOT_AFTER and the open debug scope closes. -/
  | debugExpire
  /-- `SOURCE_WINDOW_END` (R411): A 128 µs source window ends and its health tests pass or fail. -/
  | sourceWindowEnd (i : Nat) (w : WindowTest)
  /-- `SEED_DONE` (R410): The conditioner completes a 384-bit seed that crosses Seam to an expander. -/
  | seedDone (lost : Bool) (t : Nat)
  /-- `GRIT_START_TIMEOUT` (R419): 10 ms after a Grit start fewer than four sources have passed and Grit fails. -/
  | gritStartTimeout
  /-- `RESEED_DUE` (R415): A generator reaches 2^16 requests or 1 000 ms and starts a reseed. -/
  | reseedDue (n : Nat) (byCount : Bool)
  /-- `RESEED_COMPLETE` (R415): A generator reseed completes and an OVERDUE FAIL returns to OK. -/
  | reseedComplete (n : Nat)
  /-- `GEN_OVERDUE` (R416): A reseed overdue for 100 ms or 2^16 requests puts the generator into FAIL. -/
  | genOverdue (n : Nat) (byCount : Bool)
  /-- `RNG_WAIT_TIMEOUT` (R420): A draw waiting on an UNSEEDED generator reaches GRT_WAIT_MAX and its job completes
  with ST_RNG_NOT_READY. -/
  | rngWaitTimeout (id : JobId) (n : Nat)
  /-- `REFRESH_SWEEP` (R429): Every 4 ms Bond refreshes the shares of every slot and checks its ledger. -/
  | refreshSweep
  /-- `SLOT_WIPE` (R430): A slot awaiting wipe with no job references is wiped and becomes FREE. -/
  | slotWipe
  /-- `JOURNAL_COMMIT_DONE` (R450): A journal image is read back with a valid MAC, passing the commit point, and the
  change is applied to Bond. -/
  | journalCommitDone (ok : Bool)
  -- Scrim
  /-- `CAUSE_REPORT` (R517): A reporter pair holds error for 4 samples; Scrim latches the cause, opens or merges a
  record and carries out its rank. -/
  | causeReport (c unit : Nat) (stays : Bool)
  /-- `WIRE` (R515): A reporter pair held at 0b00 or 0b11 for 8 samples latches WIRE. -/
  | wire (g b unit : Nat)
  /-- `SCR_CHECK` (R516): The two Scrim collector copies disagree. -/
  | scrCheck
  /-- `AUTO_EXIT` (R531): A held record's causes stay deasserted for the quiet period and it closes automatically.
  -/
  | autoExit (w : UnitId) (dev : Bool) (inp : StartIn)
  /-- `SEAM_RETRANSMIT` (R534): A Seam transfer fails its CRC or tag and is resent. -/
  | seamRetransmit (auth : Bool) (fails : Nat)
  -- Plumb
  /-- `KAT_DONE` (R613): A unit's known-answer test ends and it returns to service or stays out on a mismatch. -/
  | katDone (u : Nat) (fail : Option (BitVec 6))
  /-- `UNIT_DRAINED` (R611): A unit drained for test, measurement, derate or Putty load carries no more work. -/
  | unitDrained (u : Nat)
  /-- `ENG_KAT_TIMEOUT` (R612): An eng.kat whose unit has not drained within 1 s completes with ST_ABORTED and stays
  queued. -/
  | engKatTimeout (u : Nat)
  /-- `DAILY_CYCLE` (R615): 24 h after the last cycle Horrov measures every unit and re-plans the margins. -/
  | dailyCycle
  /-- `PLB_MARGIN_LOW` (R610): An in-situ reading below 15 ps starts an immediate re-plan. -/
  | plbMarginLow (u : Nat) (slack temp : Int)
  /-- `REPLAN_RETRY` (R607): 10 s after a re-plan a unit still above 850 mV is re-planned again. -/
  | replanRetry
  -- Further events
  /-- `MBX_DOORBELL` (R117): A write of MBX_DOORBELL or VMB_DOORBELL.GO queues a FREE slot, or is ignored and logged
  when it names slot 0 or a slot that is not FREE. -/
  | mbxDoorbell (vf slot : Nat) (bad : Option (W16 × W32))
  /-- `VBAT_LOSS` (R499): VBAT falls below 2.2 V while VIN is absent, the backup domain loses its state and BKEK,
  and the device passes from BACKUP to OFF. -/
  | vbatLoss
  /-- `VBAT_APPLIED` (R644): VBAT is applied while VIN is absent and the backup domain starts from reset, moving the
  device from OFF to BACKUP. -/
  | vbatApplied
  /-- `VIN_RECOVERY` (R547): VIN rises back above the VIN_WARN threshold and the held MRAM commits, mark writes and
  reservation records resume. -/
  | vinRecovery
  /-- `THERMAL_CAP_LIFT` (R565): Every compute-die sensor reads 100 °C or below and the 960-token thermal cap lifts,
  raising the Float target. -/
  | thermalCapLift
  /-- `PCIE_LINK_ERROR` (R74): A receiver error, replay, entry to Recovery or poisoned inbound TLP on the link
  increments its counter and sets FN_EVENT.PCIE_ERR. -/
  | pcieLinkError (kind : Nat)
  /-- `PAUSE_EXPIRY` (R159): The quanta of a PAUSE or PFC frame received on a host sub-port run out and the held
  line-to-host frames of that sub-port or priority are released. -/
  | pauseExpiry (n sub : Nat) (prios : Byte)
  /-- `SEQUENCE_RESTART` (R576): 100 ms after a power sequence has failed its third retry, the controller runs the
  sequence again from P1. -/
  | sequenceRestart (inp : StartIn)
  /-- `MRAM_SCRUB` (R650): Every 7 days the custody die reads every MRAM word, rewrites single-bit errors and raises
  MRAM_CORR. -/
  | mramScrub (corr unc : Nat)
  /-- `DRAINED_MEASUREMENT_DONE` (R604): The drained slack sweep of a unit ends after 3–5 ms and the unit returns to
  service with its new reading. -/
  | drainedMeasurementDone (u : Nat) (slack temp : Int)
  /-- `CYCLE_WAIT_EXPIRY` (R615): One hour into a daily cycle, units not yet measured are planned from their in-situ
  minimum and the re-plan proceeds. -/
  | cycleWaitExpiry
deriving DecidableEq, Repr

end Sys2Proof
end

