-- ==== Sys2Proof/Decode.lean ====
section
/-!
DEFINITION. The command that a word spells by the bits of the table of operations. The table gives no row any bits: the
commands reach the block as accesses, frames, pins and events, not as words of one encoding.
-/
namespace Sys2Proof

def decodeTableWord (_nbits _w : Nat) : Option Instr := none

end Sys2Proof
end

