-- ==== Sys2Proof/Config.lean ====
section
/-!
DEFINITION. What the model takes as given: the free values (opaque, without a body, so no proof can see a value of
them), and the constants of the part. The standards' algorithms that the spec names and does not define are opaque
functions of their inputs (log entry 3); a random word is an opaque function of a counter that the state holds
(log entry 2).
-/
namespace Sys2Proof.Config

/-- Word number n that Grit delivers (R406). -/
opaque gritWord : Nat → W512
/-- A value that the spec leaves open, number n. -/
opaque openValue : Nat → W64

/-- A byte of a mailbox frame area that nothing has written: area (15 slots of PF0, then the VFs), offset. -/
opaque frameByte : Nat → Nat → Byte
/-- A dword of configuration space that PCIe lays out and whose contents neither the spec nor the state gives: whether it is
a VF's, and its offset. -/
opaque cfgWord : Bool → Nat → W32

/-- The control store (R224): the microword at a ROM address. -/
opaque lathRom : BitVec 14 → W128
/-- The routine, as OPCODE - 0x80 and ROM address - 0x80, of a known-answer test (false) or a margin measurement (R216). -/
opaque lathRoutine : Bool → BitVec 7

/-- OWNER_PKH after a resumed entry to MISSION whose request was lost before its commit: the spec states no value (R453,
R480). -/
opaque lostOwner : Nat → W256

/-- DETAIL of the device-log record of an undervoltage or an overvoltage (R546), for which the spec states no code. -/
opaque vinLogDetail : Bool → W32

/-! Hashes, MACs and signatures -/

opaque sha3 : List Byte → W256
/-- KMAC256(K, X, L, S), L in bits. -/
opaque kmac256 : List Byte → List Byte → Nat → List Byte → List Byte
/-- KMAC128 and its XOF forms, by Sponge ALG code: key, input, bytes, customisation. -/
opaque kmac : Byte → List Byte → List Byte → Nat → List Byte → List Byte
/-- Digest or XOF output of a Sponge ALG code (R354): the state it starts from (none for the algorithm's own initial
state), the customisation prefix, the message, output bytes. -/
opaque digest : Byte → List Byte → List Byte → List Byte → Nat → List Byte
/-- The 200 STATE bytes of R367 after the whole blocks of a message: ALG, state it starts from, prefix, blocks. -/
opaque spongeState : Byte → List Byte → List Byte → List Byte → List Byte
/-- CRC-32C (R334, R367). -/
opaque crc32c : List Byte → W32
/-- The output of a Quad Sponge core: resource rank, mode, absorbed bytes, whether they were padded, offset, length (R218). -/
opaque quadSponge : Nat → Nat → List Byte → Bool → Nat → Nat → List Byte
/-- Verification of the dual signature of R458 and R474: context string, signed bytes, public key section, signatures. -/
opaque dualSigOk : List Byte → List Byte → List Byte → List Byte → Bool
/-- The vendor key hash in ROM (R458). -/
opaque vendorPkh : W256
/-- SEAM_PK, the pairing key of R585. -/
opaque seamPk : W256
/-- The conditioner output for raw bits (R410). -/
opaque conditioner : Nat → W512

/-! AES-GCM -/

/-- AES-GCM encryption: key bytes, IV, associated data, plaintext; ciphertext and 16-byte tag. -/
opaque gcmSeal : List Byte → List Byte → List Byte → List Byte → List Byte × List Byte
/-- AES-GCM decryption: key, IV, associated data, ciphertext, tag; none on a tag mismatch. -/
opaque gcmOpen : List Byte → List Byte → List Byte → List Byte → List Byte → Option (List Byte)
/-- The GHASH key of an AES key. -/
opaque ghashKey : List Byte → W128

/-! Public-key operations. Each takes a parameter-set code, the key and message bytes, and random words. -/

/-- The public output of a key generation from a private seed: opcode, set, seed. -/
opaque pubOf : Byte → Nat → List Byte → List Byte
/-- Encapsulation: opcode, set, public key, randomness; ciphertext and shared secret. -/
opaque encaps : Byte → Nat → List Byte → W512 → List Byte × List Byte
/-- Decapsulation: opcode, set, private key, ciphertext; the shared secret, pseudorandom where it is rejected (R31). -/
opaque decaps : Byte → Nat → List Byte → List Byte → List Byte
/-- X25519 of a scalar and a point, and the public point of a scalar (R444, R457). -/
opaque x25519 : List Byte → List Byte → List Byte
opaque x25519Pub : List Byte → List Byte
/-- Signing: opcode, set, private key, message, randomness. -/
opaque sign : Byte → Nat → List Byte → List Byte → W512 → List Byte
/-- The number of iterations of the rejection loop of ML-DSA signing (R296). -/
opaque signIters : Nat → List Byte → List Byte → W512 → Nat
/-- Verification: opcode, set, public key, message, signature. -/
opaque verify : Byte → Nat → List Byte → List Byte → List Byte → Bool
/-- The input checks of a public value: opcode, set, bytes. -/
opaque pubValid : Byte → Nat → List Byte → Bool
/-- The import checks of a private key (R390): algorithm binding, key bytes. -/
opaque keyValid : W16 → List Byte → Bool
/-- Modular exponentiation and multiplication, RSA and big-number results: opcode, parameter, operands. -/
opaque bignum : Byte → Nat → List Byte → List Byte → W512 → List Byte
/-- A division corner or range test that the operands decide: opcode, parameter, operands. -/
opaque inRange : Byte → Nat → List Byte → Bool
/-- One elimination attempt of Classic McEliece key generation (R349): attempt number, seed. -/
opaque mceAttemptOk : Nat → W512 → Bool

/-! Encodings that the spec names and leaves a choice in -/

/-- The PMBus Linear11 word in which the controller reports a value, in thousandths; the format has several words for
most values. -/
opaque linear11 : Int → W16

/-! Constants of the part -/

/-- The device code, stepping and ROM versions (FN_ID, LTH_ROM_VER). -/
def deviceCode : W16 := 0x6400
def stepping : Byte := 0x02
def lathRomVer : W32 := 0x00020001
/-- The Primer ROM version, which the spec does not give. -/
opaque primerVer : W32
/-- The planner's trims (R605, R606): k in hundredths of ps/mV, c_T in hundredths of ps per degree. -/
def trimK : Nat := 60
def trimCT : Nat := 15

end Sys2Proof.Config
end

