-- ==== Sys2Proof/Machine/State.lean ====
section
/-!
DEFINITION. The state of the device as plain data: every register, store, queue and mode that the spec names, the
queue of waiting commands, and the state at reset. INVENTORY.md lists every field with its rule and reset value.
-/
namespace Sys2Proof.Machine

/-- Reasons for a stop that the machine itself gives. -/
inductive Fault where
  /-- Raised by the Lath microword rows when the operand names an engine above 35. Safe: the device has no such
  engine (R19), so no run of the hardware holds such a command. -/
  | noSuchEngine
deriving DecidableEq, Repr

/-- Reasons for which the model gives a command no meaning. -/
inductive Refusal where
  /-- Raised by an arm of `exec` that has no meaning yet. Safe: nothing is claimed about the command. -/
  | notModelled (mnemonic : String)
deriving DecidableEq, Repr

/-! ## Host interface and functions -/

/-- One MSI-X vector of a function (R57). Mask bits come up set, as PCIe gives them (log entry 6). -/
structure Vec where
  masked : Bool := true
  pend : Bool := false
  /-- message address and data of the table entry -/
  addr : W64 := 0
  data : W32 := 0
deriving DecidableEq, Repr

/-- FN_VF_STATE.STATE. -/
inductive VfState where
  | absent | active | sleep | flr | drain
deriving DecidableEq, Repr

/-- One function: PF0 at index 0, VFv at index v. -/
structure Fn where
  gen : Byte := 0
  st : VfState := .absent
  quota : Nat := 0
  dispatched : Nat := 0
  perm : W32 := 0
  /-- a quota change that waits for the end of the VF's FLR (R66) -/
  pendQuota : Option Nat := none
  pendPerm : Option W32 := none
  mse : Bool := false
  bme : Bool := false
  pmeEn : Bool := false
  msixEn : Bool := false
  msixMask : Bool := false
  d3hot : Bool := false
  pmeSent : Bool := false
  /-- a PME message held pending while Bus Master Enable is 0 (R51) -/
  pmePend : Bool := false
  /-- an FLR, or a removal, is in progress (R61-R65) -/
  flr : Bool := false
  /-- configuration requests are answered with Request Retry Status (R54, R64) -/
  rrs : Bool := false
  /-- VF Enable was set again while this VF was in DRAIN (R56) -/
  reenable : Bool := false
  vecs : Tbl Vec := []
  /-- PF0: the base addresses in BAR0-BAR1 and BAR2-BAR3 (R50) -/
  bar0 : W64 := 0
  bar2 : W64 := 0
  /-- Max Payload Size and Max Read Request Size as PCIe codes them (128 bytes shifted left by the code), the completion
  timeout value, ECRC generation and checking, and the 10-bit tag requester enable (R43) -/
  maxPayload : Nat := 0
  maxRead : Nat := 2
  cplTimeout : Nat := 0
  ecrcGen : Bool := false
  ecrcCheck : Bool := false
  bigTags : Bool := false
  /-- changes of a VF's queues that wait for the end of its FLR (R66), oldest first -/
  pendQueues : List TCmd := []
  /-- upper halves latched by 32-bit reads of lower halves, by the address of the register (R14) -/
  upper : Tbl (Option W32) := []
deriving DecidableEq, Repr

/-- The link and the function registers (R43-R74). -/
structure Pcie where
  linkUp : Bool := false
  flit : Bool := false
  speed : Nat := 0
  width : Nat := 0
  degraded : Bool := false
  ari : Bool := false
  vfEn : Bool := false
  vfLimited : Bool := false
  numVfs : Nat := 0
  /-- System Page Size, one bit per size from 4 KiB up, as PCIe SR-IOV numbers it -/
  pageSize : W32 := 1
  aspmL1 : Bool := false
  inL1 : Bool := false
  /-- VF BAR0 and VF BAR2 of the SR-IOV capability (R50), and the ACS control register (R49) -/
  vfBar0 : W64 := 0
  vfBar2 : W64 := 0
  acs : W16 := 0
  /-- FN_EVENT: bit 3 LINK_CHANGE, 2 VF_FLR_DONE, 1 VF_TOK_STALL, 0 PCIE_ERR -/
  event : BitVec 4 := 0
  /-- FN_VF_FLR_DONE0-3, bit v for VFv -/
  flrDone : W256 := 0
  rxErr : W32 := 0
  replay : W32 := 0
  recovery : W32 := 0
  cplTimeout : W32 := 0
  poison : W32 := 0
  ur : W32 := 0
  fns : Tbl Fn := []
deriving DecidableEq, Repr

/-! ## Queues and jobs -/

/-- QUE_STATUS.STATE. -/
inductive QState where
  | disabled | active | stopping | error
deriving DecidableEq, Repr

/-- QUE_STATUS.ERR. -/
inductive QErr where
  | none | overflow | fetch | config
deriving DecidableEq, Repr

/-- QUE_INVAL.RESULT; PENDING lasts at most 0.1 µs and is never seen between two commands. -/
inductive Inval where
  | idle | held | started | notPosted | busy
deriving DecidableEq, Repr

/-- A completion record (R103); `result` holds bytes 28-63. -/
structure Comp where
  status : W16 := 0
  cflags : Byte := 0
  gen : Byte := 0
  tag : W32 := 0
  outBytes : W32 := 0
  detail : W32 := 0
  wait : W32 := 0
  service : W32 := 0
  engine : W16 := 0
  result : List Byte := []
deriving DecidableEq, Repr

/-- Where an entry that the device holds stands: pushed but not yet checked, checked and waiting for dispatch,
dispatched as a job, or ended with its record written. -/
inductive EntSt where
  | pushed | ready | dispatched | written
deriving DecidableEq, Repr

/-- A ring entry between CI and the fetch pointer. -/
structure Entry where
  st : EntSt := .ready
  /-- its job ended in D3hot and was counted as pending moderation then (R113) -/
  counted : Bool := false
  desc : Desc := {}
  inSgl : List SglEnt := []
  outSgl : List SglEnt := []
deriving DecidableEq, Repr

/-- One work queue (R75-R113 and the queue registers). -/
structure Queue where
  assigned : Bool := false
  fn : Nat := 0
  slot : Nat := 0
  cls : Nat := 0
  st : QState := .disabled
  err : QErr := .none
  en : Bool := false
  irqEn : Bool := false
  pi : W16 := 0
  ci : W16 := 0
  fetch : W16 := 0
  inval : Inval := .idle
  invalIndex : W16 := 0
  /-- the entry held under R97 -/
  hold : Option W16 := none
  /-- QUE_MOD as written, and as in force since the last CI advance (R112) -/
  timer : Nat := 0
  count : Nat := 1
  timerEff : Nat := 0
  countEff : Nat := 1
  sizeLog2 : Nat := 0
  base : W64 := 0
  ciwb : W64 := 0
  jobsCnt : W32 := 0
  /-- push window: written 8-byte words, word w of slot s at 8 s + w (R93) -/
  push : Tbl (Option W64) := []
  /-- the old queue of a VF in FLR or removal: it returns to the pool when that completes (R63) -/
  leaving : Bool := false
  /-- entries held by the device, by index value -/
  entries : Tbl (Option Entry) := []
  /-- entries covered since the last interrupt, and whether the timer runs (R111) -/
  modPend : Nat := 0
  modTimer : Bool := false
  /-- a moderated interrupt came due in D3hot (R113) -/
  irqDue : Bool := false
  /-- a CI writeback that waits for the return to D0 (R113) -/
  wbDue : Bool := false
deriving DecidableEq, Repr

/-- How a job stands (R99, R100, R562): waiting in its class, holding an engine and waiting for its Float grant,
running, paused by a revoke, or ended on its engine with its record still to write. -/
inductive JobSt where
  | waiting | assigned | running | paused | suspended | ended
deriving DecidableEq, Repr

/-- What a job ends with: the fields of its record that the operation decides, and its output bytes. -/
structure JobRes where
  status : W16 := 0
  detail : W32 := 0
  out : List Byte := []
  result : List Byte := []
deriving DecidableEq, Repr

/-- A dispatched job (R68, R85, R99). -/
structure Job where
  id : JobId := {}
  fn : Nat := 0
  gen : Byte := 0
  /-- schedule class 0-15, or 16 for Horrov's own class (R138) -/
  cls : Nat := 0
  desc : Desc := {}
  outSgl : List SglEnt := []
  kind : EKind := .lath
  st : JobSt := .waiting
  engine : Nat := 0
  /-- an engine was started: R104 applies to a failure -/
  started : Bool := false
  /-- the effective protection level (R287, R388) -/
  level : Nat := 0
  /-- the abort that the job meets at its next safe point -/
  abort : Option (W16 × W32) := none
  /-- the bytes of the keys it named, taken at dispatch: it uses them until it ends (R300, R433) -/
  keys : List (List Byte) := []
  res : JobRes := {}
  retried : Bool := false
  faults : Nat := 0
  /-- CLK_SLOW times of dispatch and of engine start -/
  tDisp : W64 := 0
  tStart : W64 := 0
  /-- Bond slots the job refers to (R433) -/
  refs : List Nat := []
  /-- the mailbox slot that waits for the job (op family, R138) -/
  mbx : Option (Nat × W32) := none
  /-- the part reached by a two-part job (R304), its transient slot, and its Quad where it is bound to one -/
  part : Nat := 0
  transient : Option Nat := none
  quad : Option Nat := none
  /-- an index, region, context or cache entry the job holds -/
  hold : Option Nat := none
  /-- the Float grant its engine needs, 0 for none (R234) -/
  grant : Nat := 0
  /-- why it cannot start yet (R100): 0 nothing, 1 a Quad memory region, 2 the load of a supplied key into its region -/
  blocked : Nat := 0
  /-- the unseeded part of Grit on which its draw waits (R417, R420) -/
  waitOn : Option Nat := none
deriving DecidableEq, Repr

/-- One schedule class (R100, R129): its weight, its engine masks and whether the Sponge quantum is doubled. -/
structure Cls where
  weight : Nat := 1
  /-- `none` is every in-service unit of the kind -/
  masks : Option (List W64) := none
  bulk : Bool := false
deriving DecidableEq, Repr

/-- A record held for a function in D3hot (R59). -/
structure HeldRec where
  fn : Nat := 0
  id : JobId := {}
  comp : Comp := {}
  /-- the output writes of its job, which go before the record (R108) -/
  segs : List (W64 × List Byte) := []
  /-- its job still holds a token (R68) -/
  token : Bool := false
deriving DecidableEq, Repr

/-- The queues, the dispatched jobs in dispatch order, and the schedule classes. -/
structure Que where
  queues : Tbl Queue := []
  jobs : List Job := []
  classes : Tbl Cls := []
  /-- weighted round robin: the class served last and the starts it has left, per engine kind code -/
  rr : Tbl (Nat × Nat) := []
  heldRecs : List HeldRec := []
  /-- Horrov's own queue: the index of its next entry (R138) -/
  horrovIdx : W16 := 0
deriving DecidableEq, Repr

/-! ## Arong -/

/-- The states of a mailbox slot (R117). -/
inductive SlotSt where
  | free | queued | running | done
deriving DecidableEq, Repr

/-- A response frame (R125). -/
structure Resp where
  status : W16 := 0
  staged : Bool := false
  gen : Byte := 0
  seq : W32 := 0
  detail : W32 := 0
  results : List Byte := []
deriving DecidableEq, Repr

/-- A mailbox slot with the response written last into it. -/
structure MSlot where
  st : SlotSt := .free
  /-- the queued frame names a command code outside the catalogue (R137): the code and its SEQ -/
  bad : Option (W16 × W32) := none
  resp : Resp := {}
  /-- the slot's page, or the frame area of a light mailbox (R116): the bytes that the host and the responses wrote -/
  area : Tbl (Option Byte) := []
deriving DecidableEq, Repr

/-- A VF's light mailbox. -/
structure VMbx where
  slot : MSlot := {}
  irqEn : Bool := false
deriving DecidableEq, Repr

/-- The open transaction (R130-R136), `remain` in milliseconds. -/
structure Txn where
  id : W32 := 1
  remain : Nat := 5000
  staged : List TCmd := []
deriving DecidableEq, Repr

/-- A checked `txn.commit` that waits for the commit epoch (R134). `done` is the epoch at which it was applied, while it waits
for the standing grants of the pairs it enabled (R23, R561). -/
structure PendCommit where
  slot : Nat := 0
  seq : W32 := 0
  cmds : List TCmd := []
  done : Option W64 := none
deriving DecidableEq, Repr

/-- The mailboxes, the transaction and ARONG_RSP. -/
structure Mbx where
  ready : Bool := false
  undercoat : Bool := false
  expert : Bool := false
  slots : Tbl MSlot := []
  irqEn : Bool := false
  /-- QUEUED admin slots in doorbell order (R119) -/
  order : List Nat := []
  running : Nat := 0
  vfs : Tbl VMbx := []
  /-- the last turn was the admin mailbox's, and the VF served last (R121) -/
  lastPf : Bool := false
  lastVf : Nat := 0
  txn : Option Txn := none
  nextTxn : W32 := 1
  expired : List W32 := []
  pend : Option PendCommit := none
  /-- `port.enable` commands that wait for the standing grant of their pair (R561): slot, SEQ, pair -/
  waitEnable : List (Nat × W32 × Nat) := []
  /-- a `port.recal` that waits for its sub-port to be UP (R620): slot, SEQ, port, sub-port -/
  waitRecal : List (Nat × W32 × Nat × Nat) := []
  /-- the commit epoch counter, counted from 0 after a warm reset (log entry 20) -/
  epoch : W64 := 0
  /-- ARONG_RSP: STATUS, SEQ, STATE, results (R142); STATE 1 while the request of that SEQ waits for its turn (R145) -/
  smbStatus : W16 := 0
  smbSeq : Byte := 0
  smbState : Byte := 0
  smbResults : List Byte := []
deriving DecidableEq, Repr

/-! ## Ports, SAs and Render -/

/-- The mode settings and the enable of a port pair (R146-R152). -/
structure Pair where
  modeSet : Bool := false
  mode : Nat := 0
  proto : Byte := 0
  fc : Nat := 0
  pfcMask : Byte := 0
  steer : Nat := 0
  unctrl : Byte := 0
  maxFrame : Nat := 0
  beadEtype : W16 := 0
  xoff : Nat := 0
  xon : Nat := 0
  txPol : Byte := 0
  rxPol : Byte := 0
  enabled : Bool := false
deriving DecidableEq, Repr

/-- The state of one sub-port (R153); HELD is the report of an UP sub-port whose forwarding is held. -/
inductive LinkSt where
  | disabled | training | up | localFault | remoteFault
deriving DecidableEq, Repr

/-- One sub-port of a port, at index 4 p + s. -/
structure SubPort where
  st : LinkSt := .disabled
  lanes : Nat := 0
  /-- priorities the device has paused at its partner, and those the partner has paused here (R157, R159) -/
  pausing : Byte := 0
  paused : Byte := 0
  /-- the occupancy has risen above XOFF, and since then not fallen to XON (R157): the sub-port's, and each priority's -/
  overTot : Bool := false
  overPrio : Byte := 0
  /-- counters of R202 by offset div 8 -/
  cnt : Tbl Nat := []
deriving DecidableEq, Repr

/-- Where an admitted frame stands: in the ingress buffer, in a Render engine, or finished (by an engine, or past
every engine where it is uncontrolled) and waiting for its turn at the egress stage. -/
inductive FrmTodo where
  | waitEngine | inEngine (n : Nat) | processed (n : Option Nat)
deriving DecidableEq, Repr

/-- What the engine makes of a frame: the bytes that go out, or why a received frame fails (R168, R186). -/
inductive FrmRes where
  | pass (bytes : List Byte)
  | icvFail
  | padErr
  | dummy
deriving DecidableEq, Repr

/-- What the classifier decided for a frame (R161-R163): the uncontrolled port, a transmit epoch slot with the PN it
took, or a receive epoch slot with the PN it carries. -/
inductive FrmUse where
  | uncontrolled
  | protect (sa slot : Nat) (pn : W64)
  | verify (sa slot : Nat) (pn : W64) (crypt : Bool)
deriving DecidableEq, Repr

/-- A frame inside the device. -/
structure Frm where
  sub : Nat := 0
  prio : Nat := 0
  use : FrmUse := .uncontrolled
  /-- the SA, by its creation order, and the epoch, by its serial number, that the classifier gave the frame (R177) -/
  sa : Nat := 0
  ep : Nat := 0
  todo : FrmTodo := .waitEngine
  bytes : List Byte := []
  res : FrmRes := .pass []
deriving DecidableEq, Repr

/-- States of an epoch slot (R173). -/
inductive EpSt where
  | empty | staged | current | drainAccept | draining
deriving DecidableEq, Repr

/-- One epoch slot of an SA context (R174, R203). `serial` is the model's own number of the epoch, by which frames in
flight are told from those of the slot's next epoch (log entry 107). -/
structure Epoch where
  st : EpSt := .empty
  serial : Nat := 0
  an : BitVec 2 := 0
  spi : W32 := 0
  ssci : W32 := 0
  salt : BitVec 96 := 0
  nextPn : W64 := 0
  replay : BitVec 1024 := 0
  key0 : W256 := 0
  key1 : W256 := 0
  h0 : W128 := 0
  h1 : W128 := 0
  slot : W64 := 0
  tCommit : W64 := 0
  /-- the sa.timers values under which it was committed (R179) -/
  overlap : Nat := 0
  drain : Nat := 0
  seen : Bool := false
  warned : Bool := false
  exhausted : Bool := false
  /-- frames under this slot: sent, or verified; and frames whose ICV failed (R203) -/
  frames : Nat := 0
  invalid : Nat := 0
deriving DecidableEq, Repr

/-- One SA context (R169-R174), transmit SA a at index a, receive SA a at index 16 384 + a. -/
structure Sa where
  present : Bool := false
  suite : Nat := 0
  pair : Nat := 0
  sub : Nat := 0
  flags : Byte := 0
  window : W32 := 0
  sci : W64 := 0
  pnWarn : W64 := 0
  vid : W16 := 0xFFFF
  tmplLen : Nat := 0
  tmpl : List Byte := []
  /-- creation order (R161, R180) and whether it is the sub-port's default -/
  order : Nat := 0
  deflt : Bool := false
  ipId : W16 := 0
  ep0 : Epoch := {}
  ep1 : Epoch := {}
  /-- counters of R203: frames and octets protected, PN_EXHAUSTED; or LATE, NOT_USING_SA, octets validated and
  decrypted, ESP_PAD_ERR, ESP_DUMMY -/
  protFrames : Nat := 0
  protOctets : Nat := 0
  pnExhausted : Nat := 0
  late : Nat := 0
  notUsing : Nat := 0
  octValidated : Nat := 0
  octDecrypted : Nat := 0
  padErr : Nat := 0
  dummy : Nat := 0
deriving DecidableEq, Repr

/-- Render engine states of RND_ENG_STATE; HELD is computed from the mask feed. -/
inductive RndSt where
  | spare | inline | lookaside | draining | retired | test
deriving DecidableEq, Repr

/-- One Render engine; `pair` and `dir` (0 host to line) hold in INLINE. -/
structure Rnd where
  st : RndSt := .spare
  fstep : Nat := 0
  pair : Nat := 0
  dir : Nat := 0
  /-- the engine keeps its assignment while it is reset and tested after a RETRY (R521) -/
  kept : Bool := false
deriving DecidableEq, Repr

/-- One SA event record of R204. -/
structure SaEv where
  type : Nat := 0
  dir : Nat := 0
  slot : Nat := 0
  an : BitVec 2 := 0
  sa : Nat := 0
  time : BitVec 30 := 0
deriving DecidableEq, Repr

/-- The inline path. -/
structure Rdr where
  pairs : Tbl Pair := []
  subs : Tbl SubPort := []
  /-- frames admitted at pair-direction 2 n + d, oldest first (R26, R157, R200) -/
  flows : Tbl (List Frm) := []
  sas : Tbl Sa := []
  saCount : Nat := 0
  /-- epochs staged so far -/
  epochCount : Nat := 0
  overlap : Nat := 2000
  drain : Nat := 3000
  engs : Tbl Rnd := []
  /-- Quads whose mask generator cannot deliver (R191) -/
  feedStall : Tbl Bool := []
  /-- assignments of retired engines that wait for a spare's takeover (R193): engine, pair, dir -/
  takeover : List (Nat × Nat × Nat) := []
  saev : List SaEv := []
  saevOverflow : Bool := false
  saevLost : W16 := 0
  /-- the next record signals vector 67 (R204) -/
  saevArmed : Bool := true
deriving DecidableEq, Repr

/-! ## Scrim -/

/-- An open record (R518). -/
structure Rec where
  /-- the record's number, by which its queued record is found -/
  rid : Nat := 0
  who : UnitId := {}
  dev : Bool := false
  cause : Nat := 0
  causes : W32 := 0
  merges : Nat := 0
  rank : Nat := 0
  perm : Bool := false
  startBound : Bool := false
  wire : Option Nat := none
  /-- the cause numbers merged into the record, of any group -/
  nums : List Nat := []
  time : W64 := 0
  /-- CLK_SLOW time of its last cause -/
  last : W64 := 0
deriving DecidableEq, Repr

/-- A record of the event queue (R536, EVQ_REC). `rtype`: 0 OPEN, 1 CLOSE, 2 WIRE. -/
structure EvRec where
  rtype : Nat := 0
  lost : Bool := false
  auto : Bool := false
  rc : Rec := {}
deriving DecidableEq, Repr

/-- A record of the device log (R540). -/
structure LogRec where
  seq : W32 := 0
  stamp : W64 := 0
  cause : W16 := 0
  unit : W16 := 0
  rank : Byte := 0
  rtype : Byte := 0
  flags : Byte := 0
  merges : Byte := 0
  causes : W32 := 0
  detail : W32 := 0
deriving DecidableEq, Repr

/-- The Scrim collector, the event queue and the device log. -/
structure Scr where
  cause : Tbl W32 := []
  /-- reporters that read 0b10: cause and unit -/
  asserted : List (Nat × Nat) := []
  recs : List Rec := []
  nextRid : Nat := 0
  devRec : Option Rec := none
  /-- expert rank changes, by cause; SCR_CFG -/
  ranks : Tbl (Option Nat) := []
  profile : Nat := 0
  quietMs : Nat := 1000
  /-- ZEROIZE_ALL or HALT has been carried out -/
  terminal : Bool := false
  halted : Bool := false
  /-- automatic exits: the total, and the times of those in the preceding hour -/
  total : W16 := 0
  exits : List W64 := []
  /-- RETRY occurrences per unit: group, unit and time (R526) -/
  occ : List (UnitId × W64) := []
  evq : List EvRec := []
  evqIrqEn : Bool := false
  evqLevel : Nat := 1
  overrun : Bool := false
  lost : W16 := 0
  /-- the next record to enter has LOST = 1 (R539) -/
  lostMark : Bool := false
  hiLatch : W64 := 0
  log : List LogRec := []
  logSeq : W32 := 0
  /-- records written in the second that began at this CLK_SLOW time -/
  logSec : W64 := 0
  logInSec : Nat := 0
deriving DecidableEq, Repr

/-! ## Float, power and clocks -/

/-- A grant that Float has issued; `revoked` grants are in transit until acknowledged (R563). -/
structure Grant where
  who : Holder := {}
  size : Nat := 0
  revoked : Bool := false
deriving DecidableEq, Repr

/-- A waiting request; `paused` marks a job paused by a revoke (R561, R562). -/
structure FReq where
  who : Holder := {}
  size : Nat := 0
  paused : Bool := false
deriving DecidableEq, Repr

/-- The Float ledger (R557-R566). `wipe` is the reserve of 24 tokens and is part of `granted`. -/
structure Flt where
  lb : Nat := 1280
  free : Nat := 1256
  /-- grants, oldest first -/
  grants : List Grant := []
  reqs : List FReq := []
  /-- engines to which the WIPE reserve is lent (R562) -/
  wipeLent : Option Holder := none
  limit : Bool := false
  thermal : Bool := false
  phaseCap : Option Nat := none
  profile : Nat := 0
  configured : Nat := 1280
  /-- RENDER_LA, LATH, HAWK, SPONGE -/
  capRender : Nat := 0xFFFF
  capLath : Nat := 0xFFFF
  capHawk : Nat := 0xFFFF
  capSponge : Nat := 0xFFFF
  waitCnt : W32 := 0
  limitCnt : W32 := 0
deriving DecidableEq, Repr

/-- The power situation of the part (R568), with the power sequence and the starts it runs. -/
inductive PowerSt where
  | run | idle | dustEntry | dustsheet | backup | off | sequencing | stopped
deriving DecidableEq, Repr

/-- A rail's telemetry: millivolts, milliamperes, tenths of a degree (R548, R552), and its status bits and limits. -/
structure Rail where
  mv : Nat := 0
  ma : Nat := 0
  dc : Int := 0
  /-- the limits as written over PMBus; none is the default of R551 -/
  ocWarn : Option W16 := none
  otWarn : Option W16 := none
  /-- STATUS_IOUT and STATUS_TEMPERATURE bytes of the page -/
  stIout : Byte := 0
  stTemp : Byte := 0
  stVout : Byte := 0
deriving DecidableEq, Repr

/-- The power stage, its PMBus side and the clocks (R545-R577). -/
structure Pwr where
  st : PowerSt := .run
  ap : Nat := 7
  abandoned : Bool := false
  lastWake : BitVec 5 := 0
  lastStart : Nat := 0
  samples : W16 := 0
  dustMs : Nat := 1000
  /-- wake sources present, in the bit order of LAST_WAKE, and WAKE_N as the device drives it (R573) -/
  wakes : BitVec 5 := 0
  /-- tamper sources whose rank waits for the resume from DUSTSHEET (R498) -/
  dustAlarms : List Nat := []
  wakeOut : Bool := false
  vin : Bool := true
  vbat : Bool := true
  vinWarn : Bool := false
  /-- the step being run (1-10), its retries, and what ran last -/
  step : Nat := 0
  fromP5 : Bool := false
  lastFail : Byte := 0
  retries : Nat := 0
  /-- retries spent on the step being run -/
  tries : Nat := 0
  failed : W16 := 0
  seqUs : W32 := 0
  /-- failed sequences in a row (R577) -/
  failRow : Nat := 0
  slewing : Bool := false
  vcoreTarget : Nat := 0
  phases : Nat := 0
  vcoreMeas : Nat := 0
  rails : Tbl Rail := []
  vinMv : Nat := 0
  vinMa : Nat := 0
  page : Byte := 0
  vinOvWarn : Option W16 := none
  vinUvWarn : Option W16 := none
  stInput : Byte := 0
  cml : Bool := false
  alert : Bool := false
  rootLock : Bool := false
  refclkOk : Bool := false
  pcieRefOk : Bool := false
  sdLock : BitVec 4 := 0
  sdRefOk : BitVec 4 := 0
  relocks : W16 := 0
  /-- records the controller holds for the device log (R546, R576) -/
  heldLog : List LogRec := []
  /-- the rails are off after an overvoltage (R546) -/
  ovShut : Bool := false
deriving DecidableEq, Repr
/-! ## Grit -/

/-- States of Grit and of a generator (GRT_STATE, GRT_EXP_STATE, GRT_MG_STATUS). -/
inductive GSt where
  | unseeded | ok | fail
deriving DecidableEq, Repr

/-- Cause of a generator's FAIL (GRT_EXP_STATE.CAUSE). -/
inductive GCause where
  | none | health | overdue | kat
deriving DecidableEq, Repr

/-- One entropy source (R411, R412): window failures since the last Grit start, the numbers of the failed windows
of the last 2^20, the number of its current window, and its start-up progress. All eight are always fitted. -/
structure Source where
  disabled : Bool := false
  passed : Bool := false
  fails : W32 := 0
  recent : List Nat := []
  window : Nat := 0
  /-- bits of passed windows that no seed has used (R410) -/
  bits : Nat := 0
deriving DecidableEq, Repr

/-- One expander or mask generator, instance 0-37 of R414. -/
structure Gen where
  st : GSt := .unseeded
  cause : GCause := .none
  fill : Nat := 0
  reseeds : Nat := 0
  requests : Nat := 0
  ageMs : W32 := 0
  due : Bool := false
  /-- a seed for the reseed is in hand -/
  fresh : Bool := false
  stalls : W16 := 0
  generated : W64 := 0
  consumed : W64 := 0
  discarded : W64 := 0
deriving DecidableEq, Repr

/-- Grit (R405-R425, R654). -/
structure Grt where
  st : GSt := .unseeded
  started : Bool := false
  srcs : Tbl Source := []
  gens : Tbl Gen := []
  seedTime : W16 := 0
  waitMax : Nat := 50
  katTarget : Nat := 0
  katResult : Nat := 0
  katCount : W16 := 0
  /-- the source whose bits the conditioner takes next (R410) -/
  turn : Nat := 0
  condFailed : Bool := false
deriving DecidableEq, Repr

/-! ## Bond and the custody die -/

/-- Slot states of R426. -/
inductive BSt where
  | free | allocated | awaitWipe
deriving DecidableEq, Repr

/-- Usage attributes (R426): codes 0 to 3 in this order. -/
inductive Usage where
  | enc | dec | wrap | derive
deriving DecidableEq, Repr

/-- Origins of R438: codes 0 to 6 in this order. -/
inductive Origin where
  | generated | agreed | derived | imported | owner | root | system
deriving DecidableEq, Repr

/-- A Bond slot (R426). The key data is `s0 xor s1`. -/
structure BSlot where
  st : BSt := .free
  usage : Usage := .enc
  alg : W16 := 0
  klen : Nat := 0
  level : Nat := 0
  fn : Nat := 0
  gen : Byte := 0
  serial : BitVec 24 := 0
  origin : Origin := .generated
  persist : Bool := false
  run : Nat := 0
  epochRefs : Nat := 0
  jobRefs : Nat := 0
  txn : Bool := false
  stamp : W32 := 0
  s0 : W512 := 0
  s1 : W512 := 0
deriving DecidableEq, Repr

/-- Bond's store and its registers. -/
structure Bnd where
  slots : Tbl BSlot := []
  /-- slots in AWAIT_WIPE, in release order (R430) -/
  wipeQ : List Nat := []
  fullCnt : W32 := 0
  paused : Bool := false
  pos : BitVec 17 := 0
  sweeps : W64 := 0
  loaded : Bool := false
deriving DecidableEq, Repr

/-- A directory entry of a journal image (R448). -/
structure DirEnt where
  kind : Nat := 0
  usage : Usage := .enc
  alg : W16 := 0
  level : Nat := 0
  klen : Nat := 0
  cell : Nat := 0
  stamp : W32 := 0
  run : Nat := 0
deriving DecidableEq, Repr

/-- A blob cell (R449): the plaintext it protects and the key it was sealed under. -/
structure BlobCell where
  stamp : W32 := 0
  slot : Nat := 0
  data : List Byte := []
  bk : W256 := 0
deriving DecidableEq, Repr

/-- A journal image (R447): `bk` is the blob key its MAC was made with. -/
structure Journal where
  present : Bool := false
  torn : Bool := false
  lcs : Nat := 0
  seq : W64 := 0
  counter : W64 := 0
  stampNext : W32 := 1
  ownerPkh : W256 := 0
  att : Option W512 := none
  dir : Tbl DirEnt := []
  bk : W256 := 0
deriving DecidableEq, Repr

/-- A persistent key that a commit places (R456, R330): `kind` 1 OWNER, 2 ROOT, 3 LMS. `data` is the key, or the label
of a ROOT key. -/
structure Put where
  slot : Nat := 0
  kind : Nat := 1
  usage : Usage := .enc
  alg : W16 := 0
  level : Nat := 1
  klen : Nat := 0
  data : List Byte := []
deriving DecidableEq, Repr

/-- A life-cycle transition that waits or runs (R476): its target and NEW_OWNER_PKH; how many LCW words and DUS candidates
fail their programming before one works (R472, R473). -/
structure LifeReq where
  dst : Nat := 0
  owner : W256 := 0
  wordFails : Nat := 0
  candFails : Nat := 0
deriving DecidableEq, Repr

/-- A requested commit (R450, R451): the change that it makes when it passes its commit point, and who waits for it, a
mailbox slot or a job. `started` is false while it is held or waits for its turn (R451, R547). -/
structure Commit where
  counter : Option W64 := none
  ownerPkh : Option W256 := none
  att : Option W512 := none
  drops : List Nat := []
  puts : List Put := []
  mbx : Option (Nat × W32) := none
  job : Option JobId := none
  life : Option LifeReq := none
  started : Bool := false
deriving DecidableEq, Repr

/-- A progress mark of R477. -/
structure Mark where
  valid : Bool := false
  src : Nat := 0
  dst : Nat := 0
  step : Nat := 0
  word : Nat := 0
  seq : W64 := 0
  cand : Nat := 0xFF
  mkey : W256 := 0
deriving DecidableEq, Repr

/-- The tamper anchor (R502), `ak` the key its MAC was made with. -/
structure Anchor where
  valid : Bool := false
  lcs : Nat := 0
  seq : W64 := 0
  counter : W64 := 0
  stampNext : W32 := 0
  enable : Byte := 0
  ownerPkh : W256 := 0
  vendorDseq : W64 := 0
  ownerDseq : W64 := 0
  clearSeq : W64 := 0
  response : List Byte := []
  swNormal : BitVec 4 := 0xF
  bkSet : Bool := false
  sticky : W32 := 0
  ak : W256 := 0
deriving DecidableEq, Repr

/-- The boot record (R592), `brk` the key its MAC was made with. -/
structure BootRec where
  valid : Bool := false
  active : Nat := 0
  pending : Nat := 0
  trial : Nat := 0
  fails : Nat := 0
  seq : W64 := 0
  fwMinSvn : W32 := 0
  puttyMin : W32 := 0
  puttyRom : W32 := 0
  lastReason : W16 := 0
  brk : W256 := 0
deriving DecidableEq, Repr

/-- One entry of the margin plan (R617). -/
structure PlanUnit where
  st : Nat := 1
  step : Nat := 0
  reason : Nat := 0
  slack : Int := 0
  vreq : Nat := 0
  tDerate : W32 := 0
  tRetire : W32 := 0
deriving DecidableEq, Repr

/-- The margin plan in MRAM (R617). -/
structure Plan where
  valid : Bool := false
  vcoreMv : Nat := 800
  seq : W64 := 0
  cycleRtc : W64 := 0
  cycles : W32 := 0
  units : Tbl PlanUnit := []
deriving DecidableEq, Repr

/-- A history record of the daily cycle (R617). -/
structure Hist where
  rtc : W64 := 0
  vcoreMv : Nat := 0
  slack : Int := 0
  unit : Nat := 0
  derated : Nat := 0
  retired : Nat := 0
deriving DecidableEq, Repr

/-- An entry of the ring of LMS/HSS reservation records (R334): whether its CRC is valid, its SEQ, key slot and stamp, and the
limit that it reserves. -/
structure ResRec where
  ok : Bool := false
  slot : Nat := 0
  stamp : W32 := 0
  limit : W64 := 0
  seq : W64 := 0
deriving DecidableEq, Repr

/-- MRAM of the custody die: it survives every reset (R16). -/
structure Mram where
  ja : Journal := {}
  jb : Journal := {}
  cells : Tbl BlobCell := []
  /-- the blob cell after the one written last: cells are taken in ring order (R651) -/
  cellHead : Nat := 0
  mark : Mark := {}
  /-- the other mark cell: the mark written before (R477) -/
  markOld : Mark := {}
  anchor : Anchor := {}
  /-- the other anchor cell: the copy written before (R502) -/
  anchorOld : Anchor := {}
  boot : BootRec := {}
  /-- the other boot-record cell: the copy written before (R592) -/
  bootOld : BootRec := {}
  plan : Plan := {}
  /-- the other plan cell: the copy written before (R617) -/
  planOld : Plan := {}
  hist : List Hist := []
  log : List LogRec := []
  logSeq : W32 := 0
  /-- the 1 024 entries of the reservation ring, the entry written next, and the SEQ written last (R334) -/
  res : Tbl ResRec := []
  resHead : Nat := 0
  resSeq : W64 := 0
  bootCount : W64 := 0
  /-- highest accepted Putty VERSION per ROM_VER (R227) is kept in the boot record; failure record of Seam (R535) -/
  seamFail : Option W64 := none
deriving DecidableEq, Repr

/-- A DUS candidate (R473): value and seal. -/
structure DusCand where
  value : W256 := 0
  mark : W32 := 0
deriving DecidableEq, Repr

/-- The one-time-programmable words (R470, R473, R483). `vref` figures are the trims the planner uses. -/
structure Otp where
  lcw : List W64 := [0, 0, 0, 0, 0, 0, 0, 0]
  dus : List DusCand := [{}, {}, {}, {}]
  fserial : W128 := 0
  /-- the conditioner key, which never leaves the custody die (R410, R483) -/
  condKey : W256 := 0
  /-- the SMBus address trim (R141) -/
  smbAddr : BitVec 7 := 0x5A
  /-- trims of Grit: the claim H in hundredths of a bit, the cutoffs of the two health tests (R408, R411), and
  GRT_WAIT_MAX in ms (R420) -/
  entropy : Byte := 50
  cutRep : W16 := 81
  cutProp : W16 := 826
  waitMax : W16 := 50
  burned : Bool := false
  /-- factory map: units that production left as spares, and units it retired (R21, R618) -/
  spares : List Nat := [32, 33, 34, 35, 68, 69, 70, 71, 80]
  retired : List Nat := []
deriving DecidableEq, Repr

/-- The life cycle as Horrov holds it while it runs (R467-R489). -/
structure Lcy where
  /-- decoded state code of R467; 0xFF when unknown (R583) -/
  st : Nat := 0
  pending : Bool := false
  dst : Nat := 0
  step : Nat := 0
  /-- the warm reset of R478 is due -/
  resetDue : Bool := false
  /-- the start completed a transition (R480): LC_RESUMED is raised when Scrim runs -/
  resumed : Bool := false
  scope : BitVec 7 := 0
  notAfter : W64 := 0
  /-- a prepared scope was opened: no pair and no job until the next warm reset (R488) -/
  prepared : Bool := false
deriving DecidableEq, Repr

/-! ## Tamper and the backup domain -/

/-- Stamps and count of a source's alarms (R501). -/
structure SrcStamp where
  first : W64 := 0
  last : W64 := 0
  count : Byte := 0
deriving DecidableEq, Repr

/-- The backup domain (R491-R513): reset values are the defaults of R491. -/
structure Bkp where
  bkek : W256 := 0
  bkekValid : Bool := false
  flags : W32 := 0
  stamps : Tbl SrcStamp := []
  /-- LOOP0-3 in bits 3:0, SW0-3 in bits 7:4 -/
  enable : Byte := 0
  swNormal : BitVec 4 := 0xF
  /-- response byte per source 0-18 (R504) -/
  response : List Byte := [14, 14, 14, 14, 14, 14, 14, 14, 14, 14, 5, 5, 5, 14, 4, 1, 1, 14, 1]
  rtc : W64 := 0
  rtcValid : Bool := false
  /-- set by a backup reset, taken by the next start (R503) -/
  wasReset : Bool := true
  seeds : W64 := 0
  rtcAlarm : W64 := 0
deriving DecidableEq, Repr

/-- The mirror of TMP_STATUS and the test window. -/
structure Tmp where
  sticky : W32 := 0
  bkekValid : Bool := false
  rtcValid : Bool := false
  testing : Bool := false
  reinit : Bool := false
  last : Nat := 0
  alarms : W16 := 0
  lastStamp : W64 := 0
  /-- sources whose detector is in alarm now (R501) -/
  inAlarm : W32 := 0
  enable : Byte := 0
  swNormal : BitVec 4 := 0xF
  erase : W32 := 0x000223FF
  /-- an ERASE happened in this run: no commit passes (R496); the source -/
  erased : Option Nat := none
deriving DecidableEq, Repr

/-! ## Start-up and firmware -/

/-- A firmware image as R590 reads it. -/
structure Image where
  version : W32 := 0
  svn : W32 := 0
  primerMin : W32 := 0
  loadLen : Nat := 0
  bytes : List Byte := []
  putty : List Byte := []
deriving DecidableEq, Repr

/-- HRV_BOOT, the controller's START_FAILS and LAST_REASON, and the flash. -/
structure Boot where
  startFails : Nat := 0
  lastReason : W16 := 0
  reason : W16 := 0
  bootSel : BitVec 2 := 0
  step : Nat := 0
  image : Nat := 3
  startTime : BitVec 24 := 0
  /-- compute die held in reset for 100 ms after a failed start (R581) -/
  hold : Bool := false
  /-- an external reset ball is held low -/
  resetHeld : Bool := false
  flashA : Option Image := none
  flashB : Option Image := none
  passedA : Bool := false
  passedB : Bool := false
  /-- the VERSION of each slot at its last check in this start (R598) -/
  verA : W32 := 0
  verB : W32 := 0
  recoverReset : Bool := false
deriving DecidableEq, Repr

/-! ## Plumb -/

/-- Unit states of PLB_UNITu. -/
inductive USt where
  | spare | inService | draining | test | retired
deriving DecidableEq, Repr

/-- One unit of R603. `back` is the state it returns to after a drain. -/
structure PUnit where
  st : USt := .spare
  step : Nat := 0
  /-- the latest drained reading, corrected (R605), with the set point and the time it was taken at -/
  drained : Int := 0
  drainedV : Nat := 0
  drainedAt : W64 := 0
  drainedStep : Nat := 0
  hasDrained : Bool := false
  /-- the in-situ minimum and its set point -/
  insitu : Int := 0
  insituV : Nat := 0
  insituAt : W64 := 0
  insituStep : Nat := 0
  hasInsitu : Bool := false
  vreq : Nat := 0
  /-- the spare that holds this unit's inline assignment while it drains or is under test (R611) -/
  cover : Option Nat := none
  back : USt := .inService
  /-- a retirement asked for during the drain (R616) -/
  retireDue : Bool := false
  /-- the unit's entry of the margin plan as Horrov holds it, written with the next plan write (R617) -/
  entry : PlanUnit := {}
deriving DecidableEq, Repr

/-- A die monitor (PLB_DIEm). -/
structure Die where
  temp : Int := 0
  /-- the 24 h minimum and the time it was taken at -/
  insitu : Int := 0
  insituAt : W64 := 0
  has : Bool := false
  last : Int := 0
deriving DecidableEq, Repr

/-- What a place of the test queue is for (R611, R612). -/
inductive Purpose where
  | kat | measure | derate | putty
deriving DecidableEq, Repr

/-- An entry of the test queue (R612): the unit, and the mailbox slot and SEQ of an `eng.kat` that waits. `active` is
set while its unit drains or is under test. -/
structure TestEnt where
  unit : Nat := 0
  purpose : Purpose := .kat
  own : Bool := false
  active : Bool := false
  waiters : List (Nat × W32) := []
  late : Bool := false
deriving DecidableEq, Repr

/-- Plumb's registers and queues (R603-R618). -/
structure Plb where
  units : Tbl PUnit := []
  dies : Tbl Die := []
  vcoreMv : Nat := 0
  replan : Bool := false
  cycle : Bool := false
  factory : Bool := false
  lowSlack : Int := 0
  lowUnit : Nat := 0
  testq : List TestEnt := []
  lastUnit : Nat := 0
  lastResult : Nat := 0
  lastVector : Nat := 0
  running : Nat := 0
  /-- a unit above 850 mV is re-planned after 10 s (R607) -/
  retryDue : Bool := false
  /-- the `eng.margin` that waits for its drains (slot, SEQ), and the units derated and retired by the re-plan -/
  waitMargin : Option (Nat × W32) := none
  derated : Nat := 0
  retiredCnt : Nat := 0
  /-- the re-plan under way (R608): 0 none, 1 VCORE rises, 2 units derate; its set point and its units -/
  phase : Nat := 0
  vNew : Nat := 0
  toDerate : List Nat := []
  toRetire : List Nat := []
  /-- the re-plan under way is the one that ends the daily cycle; another one is to follow it -/
  cyclePlan : Bool := false
  again : Bool := false
deriving DecidableEq, Repr

/-! ## JTAG -/

/-- The TAP (R489): the instruction register and the data register it selects. -/
structure Jtag where
  ir : Byte := 0x01
  boundary : W64 := 0
  /-- what the balls do: 0 functional, 1 driven from the boundary register, 2 clamped, 3 high-impedance -/
  drive : Nat := 0
  tdo : W32 := 0
  /-- the debug register that the instruction selects, by its scope bit -/
  dbg : Option Nat := none
deriving DecidableEq, Repr
/-! ## Lath engines and Quads -/

/-- A micro-address (R213): the space, ROM or PATCH, and the address. -/
structure UAddr where
  patch : Bool := false
  addr : BitVec 14 := 0
deriving DecidableEq, Repr

/-- LTH_ENG_STATE.STATE. A suspended or paused engine keeps BUSY. -/
inductive LSt where
  | spare | idle | busy | draining | retired | wiping | test
deriving DecidableEq, Repr

/-- A staged result key of BSTOR (R217): key index, share registers and length in words. -/
structure BStage where
  arg : Nat := 0
  shares : List (List W32) := []
deriving DecidableEq, Repr

/-- An asynchronous DMA of the engine (R221): DIN when `inn`, from or to the job's offset `off`. -/
structure LDma where
  inn : Bool := true
  addr : Nat := 0
  off : Nat := 0
  len : Nat := 0
deriving DecidableEq, Repr

/-- The Sponge operation in progress at an engine (R219): SSQZ when `squeeze`. -/
structure LSpg where
  core : Nat := 1
  squeeze : Bool := false
  vreg : Nat := 0
  bytes : List Byte := []
  len : Nat := 0
  last : Bool := false
  /-- tenures of the core that the operation needs: one for each block -/
  need : Nat := 0
deriving DecidableEq, Repr

/-- LTH_VFAULT (R271). -/
structure VFault where
  valid : Bool := false
  cause : Nat := 0
  element : Nat := 0
  address : BitVec 24 := 0
deriving DecidableEq, Repr

/-- What the slots of the microword in progress have staged; the sequencing slot makes them take effect (R210). -/
structure Stage where
  x : List (Nat × W64) := []
  s : List (Nat × W64) := []
  v : List (Nat × List W32) := []
  m : List (Nat × W256) := []
  vl : List Nat := []
  /-- Z, N and C, each where the scalar slot writes it -/
  zf : Option Bool := none
  nf : Option Bool := none
  cf : Option Bool := none
  /-- VSTART as the vector slot leaves it, as MTS sets it, as VFCLR clears it, and as a fault sets it -/
  vsElem : Bool := false
  vsMts : Option Nat := none
  vsClr : Bool := false
  /-- destinations that a slot names without a value: the V register that an SSQZ is to fill, and those of an operation that
  writes no element. They count as writes for R210. -/
  vClaim : List Nat := []
  xClaim : List Nat := []
  sClaim : List Nat := []
  mClaim : List Nat := []
  /-- VFCLR clears the fault record; a memory fault fills it -/
  vfClr : Bool := false
  fault : Option VFault := none
  /-- a slot waits, so the microword does not issue (R210) -/
  stall : Bool := false
deriving DecidableEq, Repr

/-- A Quad memory window (LTH_QWIN). -/
structure QWin where
  valid : Bool := false
  limit : Nat := 0
  base : Nat := 0
deriving DecidableEq, Repr

/-- The architectural registers of a Lath engine (R205). -/
structure LRegs where
  x : Tbl W64 := []
  s : Tbl W64 := []
  /-- element e of V register r at index 256 r + e -/
  v : Tbl W32 := []
  m : Tbl W256 := []
  z : Bool := false
  n : Bool := false
  c : Bool := false
  vl : Nat := 0
  vstart : Nat := 0
  stack : List UAddr := []
deriving DecidableEq, Repr

/-- One Lath engine. -/
structure Lath where
  st : LSt := .spare
  fstep : Nat := 0
  r : LRegs := {}
  /-- the address of the microword that issues next, and of the one issued last (LTH_UPC) -/
  pc : UAddr := {}
  upc : UAddr := {}
  running : Bool := false
  /-- shuffle state and the share-mode instructions it has left (R266) -/
  shuffle : W128 := 0
  shufLeft : Nat := 0
  gap : Nat := 0
  maxGap : Nat := 0
  vfault : VFault := {}
  stage : Stage := {}
  scratch : Tbl Byte := []
  /-- dirty bits of the 512-bit scratch words and of the window-0 beats (R207, R209) -/
  dirty : Tbl Bool := []
  qdirty : Tbl Bool := []
  qwin0 : QWin := {}
  qwin1 : QWin := {}
  /-- LTH_MATCH0-63 (EN, ROM_ADDR, PATCH_ADDR) and the patch RAM (R225) -/
  matches_ : Tbl (Option (BitVec 14 × BitVec 10)) := []
  patchRam : Tbl W128 := []
  puttyVer : W32 := 0
  /-- LTH_CAUSE bits 12:0, IN_PATCH and ECC_CORR -/
  cause : BitVec 13 := 0
  inPatch : Bool := false
  eccCorr : Byte := 0
  job : Option JobId := none
  resumed : Bool := false
  jobLevel : Nat := 0
  jobOpcode : Byte := 0
  tStart : W64 := 0
  /-- claims on arbiter resources by rank, and the lock (R237, R240) -/
  claims : List Nat := []
  lock : Bool := false
  spg : Option LSpg := none
  dma : List LDma := []
  bstage : List BStage := []
  /-- a preemption that the next safe point without claim and lock takes (R231) -/
  preempt : Bool := false
  /-- number of the Horrov routine that runs, 0x80-0xFF (R216) -/
  routine : Option Byte := none
  /-- function and generation of the job that the wipe in progress follows (R64) -/
  wipeFn : Nat := 0
  wipeGen : Byte := 0
deriving DecidableEq, Repr

/-- The state that a Quad Sponge core keeps for one claim (R219): mode, absorbed bytes, bytes squeezed. -/
structure QClaim where
  mode : Nat := 0
  absorbed : List Byte := []
  padded : Bool := false
  squeezed : Nat := 0
deriving DecidableEq, Repr

/-- One resource of a Quad arbiter (R237-R241): requester of the tenure in progress, the last winner, the lock and
the wait counts of the six requesters. -/
structure ArbRes where
  cur : Option Nat := none
  last : Nat := 5
  locked : Option Nat := none
  waits : Tbl Nat := []
  /-- CLK_ENG cycles of the wait in progress, by requester (R244) -/
  waitCyc : Tbl Nat := []
  /-- tenures granted to an engine in rounds (ARB_ROUND) ahead of the slot that uses them, by requester -/
  won : Tbl Nat := []
deriving DecidableEq, Repr

/-- Arbiter statistics of one requester (R244). -/
structure ArbStat where
  grants : W64 := 0
  waits : W64 := 0
  longest : W32 := 0
deriving DecidableEq, Repr

/-- A suspended job in a Quad's save area (R235): the job and what its engine held. -/
structure Saved where
  job : JobId := {}
  regs : LRegs := {}
  pc : UAddr := {}
  vfault : VFault := {}
  scratch : Tbl Byte := []
  dirty : Tbl Bool := []
  qdirty : Tbl Bool := []
  qwin0 : QWin := {}
  qwin1 : QWin := {}
  bstage : List BStage := []
  jobLevel : Nat := 0
  jobOpcode : Byte := 0
  tStart : W64 := 0
deriving DecidableEq, Repr

/-- One Lath Quad: its memory, save area, arbiter and Sponge core claims. -/
structure Quad where
  mem : Tbl Byte := []
  save : Option Saved := none
  lockMax : Nat := 2048
  wlim : List Nat := [64, 64, 64, 64, 64, 64]
  res : Tbl ArbRes := []
  stats : Tbl ArbStat := []
  /-- claim state of core resource k (1-6) for the engine at position p, at index 4 k + p -/
  cores : Tbl QClaim := []
deriving DecidableEq, Repr

/-- Regions of banks 0-3 of a Quad given to jobs (R341): Quad, first byte, bytes, and the job. -/
structure Region where
  quad : Nat := 0
  base : Nat := 0
  size : Nat := 0
  job : JobId := {}
deriving DecidableEq, Repr

/-- An entry of the Classic McEliece key cache (R347). -/
structure McE where
  set : Nat := 0
  tag : W32 := 0
  loading : Bool := false
  valid : Bool := false
  pk : List Byte := []
deriving DecidableEq, Repr

/-- The signing state of an LMS/HSS key (R332-R339), by its slot. -/
structure Hss where
  next : W64 := 0
  limit : W64 := 0
  /-- a reservation write in progress, with the limit it raises -/
  writing : Option W64 := none
  /-- its record is being written: VIN was above the warning threshold when it could start (R547) -/
  started : Bool := false
  home : Option Nat := none
  rebuilding : Bool := false
  /-- leaves of the next tree of each level that are built, and the first index whose job waits for a next tree that is
  not complete (R338, R339) -/
  built : List Nat := []
  waitFrom : Option Nat := none
deriving DecidableEq, Repr

/-- A Putty patch set (R226): VERSION, patch words and match entries. -/
structure Putty where
  ver : W32 := 0
  words : Tbl W128 := []
  matches_ : Tbl (Option (BitVec 14 × BitVec 10)) := []
deriving DecidableEq, Repr

/-- Lath Quads and the stores of the hash and code operations. -/
structure Lth where
  /-- a patch set on its way into every engine (R228, R230), the engine it reaches next, and the `fw.putty` that waits -/
  load : Option Putty := none
  loadNext : Nat := 0
  loadWait : Option (Nat × W32) := none
  engs : Tbl Lath := []
  quads : Tbl Quad := []
  /-- times of PATCH-space faults within the hour (R230) -/
  patchFaults : List W64 := []
  regions : List Region := []
  cache : Tbl McE := []
  hss : Tbl Hss := []
  /-- the keys of `hss` by their last use, the oldest first (R338) -/
  hssUse : List Nat := []
deriving DecidableEq, Repr

/-! ## Sponge pool and Hawk -/

/-- A Sponge context (R361-R365). A START reserves it at dispatch (`alloc`) and brings it to life when it ends with
ST_OK (`live`). Its content is the algorithm's state as it was imported (`base`, none where the context was started),
the customisation prefix, the key and the message bytes since then. -/
structure Ctx where
  alloc : Bool := false
  live : Bool := false
  fn : Nat := 0
  gen : Byte := 0
  q : Nat := 0
  opcode : Byte := 0
  alg : Byte := 0
  shares : Nat := 1
  verify : Bool := false
  keyed : Bool := false
  count : W64 := 0
  base : List Byte := []
  pre : List Byte := []
  key : List Byte := []
  absorbed : List Byte := []
deriving DecidableEq, Repr

/-- One pool or Quad core of the Sponge chapter (SPG_CORE_STATE). -/
structure Core where
  st : Nat := 0
  fstep : Nat := 0
  shares : Nat := 0
  alg : Byte := 0
  cls : Nat := 0
  units : W64 := 0
  job : Option JobId := none
deriving DecidableEq, Repr

/-- The Sponge contexts and cores: pool Keccak 0-7, pool SHA-2 8-15, Quad Keccak 16-33, Quad SHA-2 34-69. -/
structure Spg where
  ctxs : Tbl Ctx := []
  cores : Tbl Core := []
  noSave : Bool := false
  saved : List JobId := []
  yieldCnt : W32 := 0
deriving DecidableEq, Repr

/-- One Hawk engine (HWK_ENG_STATE, HWK_JOB, HWK_CAUSE, HWK_STATS). -/
structure Hawk where
  st : Nat := 0
  fstep : Nat := 0
  job : Option JobId := none
  tStart : W64 := 0
  cause : BitVec 6 := 0
  eccCorr : Byte := 0
  early : W32 := 0
  jobs : W32 := 0
  abort : Option (W16 × W32) := none
  wipeFn : Nat := 0
  wipeGen : Byte := 0
deriving DecidableEq, Repr

/-! ## What leaves the device -/

/-- A transaction or signal that the device has sent over its pins. The list of them in `State.sent`, oldest first, is
the model's own record (log entry 4): nothing in the device reads it. -/
inductive Out where
  | readData (fn : Nat) (v : W64)
  | readUr (fn : Nat)
  | cfgRetry (fn : Nat)
  | fetch (q : Nat) (addr : W64)
  | completion (id : JobId) (addr : W64) (c : Comp)
  | output (fn : Nat) (segs : List (W64 × List Byte))
  | ciwb (q : Nat) (addr : W64) (ci : W16) (gen : Byte) (err : Bool)
  | msix (fn vec : Nat)
  | pme (fn : Nat)
  | bufOut (fn : Nat) (addr : W64) (bytes : List Byte)
  | frame (port sub : Nat) (bytes : List Byte)
  | pause (port sub : Nat) (prios : Byte) (quanta : W16)
  | localFault (port sub : Nat) (on : Bool)
  | smbus (bytes : List Byte)
  | smbusNack
  | l1Exit
deriving DecidableEq, Repr

/-! ## The whole state -/

/-- The state of the device. -/
structure State where
  pcie : Pcie := {}
  que : Que := {}
  mbx : Mbx := {}
  rdr : Rdr := {}
  lth : Lth := {}
  spg : Spg := {}
  hwk : Tbl Hawk := []
  grt : Grt := {}
  bnd : Bnd := {}
  scr : Scr := {}
  flt : Flt := {}
  pwr : Pwr := {}
  boot : Boot := {}
  plb : Plb := {}
  lcy : Lcy := {}
  tmp : Tmp := {}
  bkp : Bkp := {}
  mram : Mram := {}
  otp : Otp := {}
  /-- a commit of the persistent state in progress, and those that wait (R450, R451) -/
  commits : List Commit := []
  jtag : Jtag := {}
  /-- CLK_SLOW time, 40 ns units -/
  clk : W64 := 0
  /-- the model's own counter behind the free values (log entry 2) -/
  freeCtr : Nat := 0
  sent : List Out := []
  pending : List Instr := []
deriving DecidableEq, Repr

/-- The state right after reset: every register at the value of its Reset column, every store empty, MRAM and OTP
as they leave the factory blank, and no power applied (log entry 5). -/
def State.reset : State :=
  { pwr := { st := .off, vin := false, vbat := false } }

end Sys2Proof.Machine
end

