-- ==== Sys2Proof/Machine/Ops.lean ====
section
/-!
DEFINITION. The named operations that every family of commands shares: access to the tables of the state, byte
strings, the outbox, interrupts, random words, status codes and the device log.
-/
namespace Sys2Proof.Machine

/-! ## Byte strings -/

/-- The `n` low bytes of a number, least significant first (R8). -/
def leBytes : Nat → Nat → List Byte
  | 0, _ => []
  | n + 1, x => BitVec.ofNat 8 x :: leBytes n (x / 256)

/-- The number that a little-endian byte string holds. -/
def ofLe : List Byte → Nat
  | [] => 0
  | b :: t => b.toNat + 256 * ofLe t

/-- The `n` low bytes of a number, most significant first. -/
def beBytes (n x : Nat) : List Byte := (leBytes n x).reverse

/-- The number that a big-endian byte string holds. -/
def ofBe (l : List Byte) : Nat := ofLe l.reverse

/-- Bytes `off` to `off + n - 1` of a string. -/
def slice (l : List Byte) (off n : Nat) : List Byte := (l.drop off).take n

/-- The little-endian field of `n` bytes at `off`. -/
def fieldLe (l : List Byte) (off n : Nat) : Nat := ofLe (slice l off n)

/-- True when bytes `off` to `off + n - 1` are present and all 0. -/
def allZero (l : List Byte) (off n : Nat) : Bool := (slice l off n).all (fun b => b == 0)

/-- The ASCII bytes of a string. -/
def ascii (t : String) : List Byte := t.toList.map (fun c => BitVec.ofNat 8 c.toNat)

/-- A byte string cut or filled with zeros to `n` bytes. -/
def fit (n : Nat) (l : List Byte) : List Byte := (l ++ List.replicate n 0).take n

/-- A counter that saturates at its all-ones value (R12). -/
def satInc {w : Nat} (x : BitVec w) : BitVec w := if x = BitVec.allOnes w then x else x + 1

/-- Bit `i` of a word set. -/
def setBit {w : Nat} (x : BitVec w) (i : Nat) : BitVec w := x ||| BitVec.ofNat w (2 ^ i)

/-- Bit `i` of a word cleared. -/
def clrBit {w : Nat} (x : BitVec w) (i : Nat) : BitVec w := x &&& ~~~ (BitVec.ofNat w (2 ^ i))

/-! ## Status codes (R140) -/

def stOk : W16 := 0x0000
def stBadCommand : W16 := 0x0101
def stBadArg : W16 := 0x0102
def stLevel : W16 := 0x0103
def stNotPermitted : W16 := 0x0104
def stUnsupported : W16 := 0x0105
def stUndercoat : W16 := 0x0106
def stNotReady : W16 := 0x0107
def stBusy : W16 := 0x0108
def stAborted : W16 := 0x0109
def stBadOpcode : W16 := 0x0201
def stBadDesc : W16 := 0x0202
def stLenMismatch : W16 := 0x0203
def stOutTooSmall : W16 := 0x0204
def stDmaError : W16 := 0x0205
def stHandleInvalid : W16 := 0x0301
def stKeyUsage : W16 := 0x0302
def stKeyAlg : W16 := 0x0303
def stKeyOwner : W16 := 0x0304
def stKeyInUse : W16 := 0x0305
def stBondFull : W16 := 0x0306
def stKeyInvalid : W16 := 0x0307
def stAuthFail : W16 := 0x0401
def stVerifyFail : W16 := 0x0402
def stSigFault : W16 := 0x0403
def stRange : W16 := 0x0404
def stPointInvalid : W16 := 0x0405
def stLmsExhausted : W16 := 0x0406
def stRngNotReady : W16 := 0x0501
def stRngFail : W16 := 0x0502
def stNoQueue : W16 := 0x0601
def stQueueBusy : W16 := 0x0602
def stQuotaExceeded : W16 := 0x0603
def stNoEngine : W16 := 0x0604
def stCtxFull : W16 := 0x0605
def stBudget : W16 := 0x0606
def stTxnOpen : W16 := 0x0701
def stTxnNone : W16 := 0x0702
def stTxnExpired : W16 := 0x0703
def stTxnConflict : W16 := 0x0704
def stTxnFull : W16 := 0x0705
def stNotStageable : W16 := 0x0706
def stSaInvalid : W16 := 0x0801
def stEpochBusy : W16 := 0x0802
def stNoStaged : W16 := 0x0803
def stPortState : W16 := 0x0804
def stSigInvalid : W16 := 0x0901
def stCounter : W16 := 0x0902
def stDeviceId : W16 := 0x0903
def stLifecycle : W16 := 0x0904
def stToken : W16 := 0x0905
def stTamperErased : W16 := 0x0906
def stMramFail : W16 := 0x0907
def stOtpFail : W16 := 0x0908

/-! ## Tables of the state -/

def State.fn (s : State) (f : Nat) : Fn := Tbl.get {} s.pcie.fns f

def State.updFn (s : State) (f : Nat) (g : Fn → Fn) : State :=
  { s with pcie := { s.pcie with fns := Tbl.upd {} s.pcie.fns f g } }

def State.queue (s : State) (q : Nat) : Queue := Tbl.get {} s.que.queues q

def State.updQueue (s : State) (q : Nat) (g : Queue → Queue) : State :=
  { s with que := { s.que with queues := Tbl.upd {} s.que.queues q g } }

def State.slot (s : State) (k : Nat) : BSlot := Tbl.get {} s.bnd.slots k

def State.updSlot (s : State) (k : Nat) (g : BSlot → BSlot) : State :=
  { s with bnd := { s.bnd with slots := Tbl.upd {} s.bnd.slots k g } }

def State.pair (s : State) (n : Nat) : Pair := Tbl.get {} s.rdr.pairs n

def State.updPair (s : State) (n : Nat) (g : Pair → Pair) : State :=
  { s with rdr := { s.rdr with pairs := Tbl.upd {} s.rdr.pairs n g } }

/-- Sub-port `sub` of port `p` (0-7 H0-H7, 8-15 L0-L7). -/
def State.subPort (s : State) (p sub : Nat) : SubPort := Tbl.get {} s.rdr.subs (4 * p + sub)

def State.updSub (s : State) (p sub : Nat) (g : SubPort → SubPort) : State :=
  { s with rdr := { s.rdr with subs := Tbl.upd {} s.rdr.subs (4 * p + sub) g } }

/-- SA context `a` of direction `dir` (0 transmit, 1 receive). -/
def State.sa (s : State) (dir a : Nat) : Sa := Tbl.get {} s.rdr.sas (16384 * dir + a)

def State.updSa (s : State) (dir a : Nat) (g : Sa → Sa) : State :=
  { s with rdr := { s.rdr with sas := Tbl.upd {} s.rdr.sas (16384 * dir + a) g } }

def State.rnd (s : State) (n : Nat) : Rnd := Tbl.get {} s.rdr.engs n

def State.updRnd (s : State) (n : Nat) (g : Rnd → Rnd) : State :=
  { s with rdr := { s.rdr with engs := Tbl.upd {} s.rdr.engs n g } }

def State.lath (s : State) (n : Nat) : Lath := Tbl.get {} s.lth.engs n

def State.updLath (s : State) (n : Nat) (g : Lath → Lath) : State :=
  { s with lth := { s.lth with engs := Tbl.upd {} s.lth.engs n g } }

def State.quad (s : State) (q : Nat) : Quad := Tbl.get {} s.lth.quads q

def State.updQuad (s : State) (q : Nat) (g : Quad → Quad) : State :=
  { s with lth := { s.lth with quads := Tbl.upd {} s.lth.quads q g } }

def State.hawk (s : State) (n : Nat) : Hawk := Tbl.get {} s.hwk n

def State.updHawk (s : State) (n : Nat) (g : Hawk → Hawk) : State :=
  { s with hwk := Tbl.upd {} s.hwk n g }

def State.ctx (s : State) (n : Nat) : Ctx := Tbl.get {} s.spg.ctxs n

def State.updCtx (s : State) (n : Nat) (g : Ctx → Ctx) : State :=
  { s with spg := { s.spg with ctxs := Tbl.upd {} s.spg.ctxs n g } }

def State.core (s : State) (n : Nat) : Core := Tbl.get {} s.spg.cores n

def State.updCore (s : State) (n : Nat) (g : Core → Core) : State :=
  { s with spg := { s.spg with cores := Tbl.upd {} s.spg.cores n g } }

def State.gen (s : State) (n : Nat) : Gen := Tbl.get {} s.grt.gens n

def State.updGen (s : State) (n : Nat) (g : Gen → Gen) : State :=
  { s with grt := { s.grt with gens := Tbl.upd {} s.grt.gens n g } }

def State.src (s : State) (n : Nat) : Source := Tbl.get {} s.grt.srcs n

def State.updSrc (s : State) (n : Nat) (g : Source → Source) : State :=
  { s with grt := { s.grt with srcs := Tbl.upd {} s.grt.srcs n g } }

def State.unit (s : State) (u : Nat) : PUnit := Tbl.get {} s.plb.units u

def State.updUnit (s : State) (u : Nat) (g : PUnit → PUnit) : State :=
  { s with plb := { s.plb with units := Tbl.upd {} s.plb.units u g } }

def State.rail (s : State) (n : Nat) : Rail := Tbl.get {} s.pwr.rails n

def State.updRail (s : State) (n : Nat) (g : Rail → Rail) : State :=
  { s with pwr := { s.pwr with rails := Tbl.upd {} s.pwr.rails n g } }

def State.mslot (s : State) (n : Nat) : MSlot := Tbl.get {} s.mbx.slots n

def State.updMslot (s : State) (n : Nat) (g : MSlot → MSlot) : State :=
  { s with mbx := { s.mbx with slots := Tbl.upd {} s.mbx.slots n g } }

def State.vmbx (s : State) (v : Nat) : VMbx := Tbl.get {} s.mbx.vfs v

def State.updVmbx (s : State) (v : Nat) (g : VMbx → VMbx) : State :=
  { s with mbx := { s.mbx with vfs := Tbl.upd {} s.mbx.vfs v g } }

def State.cls (s : State) (c : Nat) : Cls := Tbl.get {} s.que.classes c

def State.cause (s : State) (g : Nat) : W32 := Tbl.get 0 s.scr.cause g

def State.hss (s : State) (k : Nat) : Hss := Tbl.get {} s.lth.hss k

def State.updHss (s : State) (k : Nat) (g : Hss → Hss) : State :=
  { s with lth := { s.lth with hss := Tbl.upd {} s.lth.hss k g } }

def State.findJob (s : State) (id : JobId) : Option Job := s.que.jobs.find? (fun j => j.id == id)

/-- Applies `g` to the job named `id`. -/
def State.updJob (s : State) (id : JobId) (g : Job → Job) : State :=
  { s with que := { s.que with jobs := s.que.jobs.map (fun j => if j.id = id then g j else j) } }

def State.dropJob (s : State) (id : JobId) : State :=
  { s with que := { s.que with jobs := s.que.jobs.filter (fun j => j.id ≠ id) } }

/-! ## Random words, the outbox and interrupts -/

/-- Draws the next Grit word: each word goes to one consumer only (R406). -/
def State.draw (s : State) : W512 × State := (Config.gritWord s.freeCtr, { s with freeCtr := s.freeCtr + 1 })

def State.emit (s : State) (o : Out) : State := { s with sent := s.sent ++ [o] }

/-- Leaves ASPM L1 when the device has something to send (R46, R114). -/
def State.wakeLink (s : State) : State :=
  if s.pcie.inL1 then { s with pcie := { s.pcie with inL1 := false } }.emit .l1Exit else s

def State.vec (s : State) (f v : Nat) : Vec := Tbl.get {} (s.fn f).vecs v

/-- A message of vector `v` of function `f` can be sent now (R51, R57, R59). -/
def State.msixOpen (s : State) (f v : Nat) : Bool :=
  let fn := s.fn f
  fn.msixEn && !fn.msixMask && !(s.vec f v).masked && fn.bme && !fn.d3hot && s.pcie.linkUp

/-- BAR accesses of function `f` reach its registers (R51, R59, R60). -/
def State.barOpen (s : State) (f : Nat) : Bool :=
  let x := s.fn f
  s.pcie.linkUp && x.mse && !x.d3hot && !x.rrs && !x.flr && (f == 0 || x.st == .active)

/-- Signals MSI-X vector `v` of function `f`: the message, or its pending bit (R57). In Undercoat only vector 64 of
the PF is signalled (R599). -/
def State.msix (s : State) (f v : Nat) : State :=
  if s.mbx.undercoat && !(f == 0 && v == 64) then s
  else if s.msixOpen f v then s.wakeLink.emit (.msix f v)
  else s.updFn f (fun x => { x with vecs := Tbl.upd {} x.vecs v (fun w => { w with pend := true }) })

/-- Sets FN_EVENT bit `b` and signals PF vector 66. -/
def State.fnEvent (s : State) (b : Nat) : State :=
  { s with pcie := { s.pcie with event := setBit s.pcie.event b } }.msix 0 66

/-- Signals PF vector 67: device status. -/
def State.devStatus (s : State) : State := s.msix 0 67

/-! ## Frames in a mailbox (R116, R125) -/

/-- A response frame (R125). -/
def Resp.frame (r : Resp) : List Byte :=
  leBytes 2 r.status.toNat ++ leBytes 1 r.staged.toNat ++ leBytes 1 r.gen.toNat ++ leBytes 4 r.seq.toNat ++
    leBytes 4 r.detail.toNat ++ leBytes 2 r.results.length ++ leBytes 2 0 ++ r.results

/-- Writes a byte string into a frame area from offset `o` on. -/
def putArea : Tbl (Option Byte) → Nat → List Byte → Tbl (Option Byte)
  | t, _, [] => t
  | t, o, b :: l => putArea (Tbl.set none t o (some b)) (o + 1) l

/-- The response overwrites the frame from byte 0, and bytes beyond it are left as they were (R118, R125). -/
def MSlot.respond (m : MSlot) (r : Resp) : MSlot := { st := .done, resp := r, area := putArea m.area 0 r.frame }

/-! ## What holds the device (R522, R529) -/

/-- The highest rank of the open records, the device record among them. -/
def State.topRank (s : State) : Nat :=
  let a := s.scr.recs.foldl (fun m r => max m r.rank) 0
  match s.scr.devRec with
  | some r => max a r.rank
  | none => a

/-- SCR_STATE.RANK: the rank held; terminal ranks stay until a reset (R520). -/
def State.heldRank (s : State) : Nat :=
  if s.scr.halted then 7 else if s.scr.terminal then max 6 s.topRank else s.topRank

/-- SCR_STATE.HELD: the device is at QUIESCE or above. -/
def State.held (s : State) : Bool := decide (4 ≤ s.heldRank)

/-- Leaves IDLE at a doorbell, a dispatch or a `port.enable` (R569). -/
def State.activity (s : State) : State :=
  if s.pwr.st = .idle then { s with pwr := { s.pwr with st := .run } } else s

/-! ## Time -/

/-- The bits of CLK_SLOW time that `ms` milliseconds span: 25 000 ticks each (R553). -/
def msTicks (ms : Nat) : Nat := 25000 * ms

/-- Seconds of CLK_SLOW time. -/
def secTicks (n : Nat) : Nat := 25000000 * n

/-! ## The device log (R540) -/

def State.latchCause (s : State) (c : Nat) : State :=
  { s with scr := { s.scr with cause := Tbl.upd 0 s.scr.cause (c / 32) (fun w => setBit w (c % 32)) } }

/-- SEAM_PERSIST (98) holds the device: Seam carries nothing (R535). -/
def State.seamDown (s : State) : Bool :=
  s.scr.recs.any (fun r => r.nums.contains 98) || s.scr.devRec.any (fun r => r.nums.contains 98)

/-- Writes a device-log record: at most 64 a second and a ring of 8 192; a record beyond the rate, or
one that cannot cross Seam, latches LOG_DROP (7). -/
def State.devLog (s : State) (r : LogRec) : State :=
  let fresh : Bool := decide (s.scr.logSec.toNat + secTicks 1 ≤ s.clk.toNat)
  let n := if fresh then 0 else s.scr.logInSec
  let sec := if fresh then s.clk else s.scr.logSec
  if s.seamDown then s.latchCause 7
  else if n < 64 then
    let seq := s.mram.logSeq + 1
    let rec_ : LogRec :=
      { r with seq := seq, stamp := s.bkp.rtc,
               flags := if s.bkp.rtcValid then r.flags else setBit r.flags 4 }
    { s with
      scr := { s.scr with logSec := sec, logInSec := n + 1 },
      mram := { s.mram with logSeq := seq, log := (s.mram.log ++ [rec_]).drop ((s.mram.log.length + 1) - 8192) } }
  else ({ s with scr := { s.scr with logSec := sec, logInSec := n } }).latchCause 7

/-- A device-log record that a chapter other than Scrim names: TYPE 3, CAUSE 0xFFFF. -/
def State.devLogOther (s : State) (unit : W16) (detail : Nat) : State :=
  s.devLog { cause := 0xFFFF, unit := unit, rtype := 3, detail := BitVec.ofNat 32 detail }

end Sys2Proof.Machine
end

