-- ==== Sys2Proof/Machine/Float.lean ====
section
/-!
DEFINITION. The Float ledger (R557-R564): the target budget, requests, grants, releases and revokes.
-/
namespace Sys2Proof.Machine

/-- Tokens of a list of grants that are held, and of those in transit. -/
def sumHeld : List Grant → Nat
  | [] => 0
  | g :: t => (if g.revoked then 0 else g.size) + sumHeld t

def sumTransit : List Grant → Nat
  | [] => 0
  | g :: t => (if g.revoked then g.size else 0) + sumTransit t

def sumKind (k : FKind) : List Grant → Nat
  | [] => 0
  | g :: t => (if g.who.kind = k ∧ g.revoked = false then g.size else 0) + sumKind k t

/-- The WIPE reserve (R557). -/
def wipeReserve : Nat := 24

/-- FLT_LEDGER.GRANTED: every held grant and the WIPE reserve. -/
def Flt.granted (f : Flt) : Nat := wipeReserve + sumHeld f.grants

/-- FLT_LEDGER.INTRANSIT. -/
def Flt.inTransit (f : Flt) : Nat := sumTransit f.grants

/-- The target budget: the lowest of the configured budget, 640 under FLT_LIMIT_N, and the caps (R558). -/
def Flt.target (f : Flt) : Nat :=
  let a := if f.limit then min f.configured 640 else f.configured
  let b := if f.thermal then min a 960 else a
  match f.phaseCap with
  | some c => min b c
  | none => b

/-- The cap of a kind; 0xFFFF is no cap (R559). -/
def Flt.cap (f : Flt) : FKind → Nat
  | .standing => 0xFFFF
  | .renderLa => f.capRender
  | .lath => f.capLath
  | .hawk => f.capHawk
  | .sponge => f.capSponge

/-- Adjusts LB after a change of the target: a rise enters free at once; a fall removes free tokens (R560). -/
def Flt.settle (f : Flt) : Flt :=
  if f.lb ≤ f.target then { f with free := f.free + (f.target - f.lb), lb := f.target }
  else
    let leave := min f.free (f.lb - f.target)
    { f with free := f.free - leave, lb := f.lb - leave }

/-- `n` tokens return: they leave the ledger while LB is above the target, and enter free otherwise (R560). -/
def Flt.giveBack (f : Flt) (n : Nat) : Flt :=
  let leave := min n (f.lb - f.target)
  { f with lb := f.lb - leave, free := f.free + (n - leave) }

/-- A kind is at its cap for a request of `n` tokens. -/
def Flt.atCap (f : Flt) (k : FKind) (n : Nat) : Bool :=
  f.cap k != 0xFFFF && decide (f.cap k < sumKind k f.grants + n)

/-- The request that Float serves next: the first one, except that requests of a kind at its cap are passed over (R561). -/
def Flt.nextReq (f : Flt) : List FReq → Option FReq
  | [] => none
  | r :: t => if f.atCap r.who.kind r.size then f.nextReq t else some r

/-- A new request: STANDING goes ahead of every job request, and requests of either sort queue in order of arrival. FLT_WAIT_CNT counts
a request that cannot be granted at once. -/
def Flt.ask (f : Flt) (r : FReq) : Flt :=
  let waits : Bool := decide (f.free < r.size) || f.atCap r.who.kind r.size || !f.reqs.isEmpty
  { f with
    reqs := if r.who.kind = .standing then
        f.reqs.filter (fun x => x.who.kind == .standing) ++ r :: f.reqs.filter (fun x => x.who.kind != .standing)
      else f.reqs ++ [r]
    waitCnt := if waits then satInc f.waitCnt else f.waitCnt }

/-- Grants a request from free (R561). -/
def Flt.give (f : Flt) (r : FReq) : Flt :=
  { f with free := f.free - r.size, grants := f.grants ++ [{ who := r.who, size := r.size }],
           reqs := f.reqs.erase r }

/-- The holder's tokens return by release. -/
def Flt.release (f : Flt) (h : Holder) : Flt :=
  let mine := f.grants.filter (fun g => g.who = h ∧ g.revoked = false)
  let rest := f.grants.filter (fun g => ¬ (g.who = h ∧ g.revoked = false))
  ({ f with grants := rest, reqs := f.reqs.filter (fun r => r.who ≠ h) }).giveBack (sumHeld mine)

/-- The tokens of an acknowledged revoke leave in-transit (R563). -/
def Flt.ack (f : Flt) (h : Holder) : Flt :=
  let mine := f.grants.filter (fun g => g.who = h ∧ g.revoked = true)
  let rest := f.grants.filter (fun g => ¬ (g.who = h ∧ g.revoked = true))
  ({ f with grants := rest }).giveBack (sumTransit mine)

/-- The newest held grant of a kind. -/
def newestOf (k : FKind) (gs : List Grant) : Option Grant :=
  (gs.filter (fun g => g.who.kind = k ∧ g.revoked = false)).getLast?

/-- The grant that Float revokes next: RENDER_LA, then SPONGE, HAWK and LATH, the most recent first (R563). -/
def Flt.victim (f : Flt) : Option Grant :=
  (newestOf .renderLa f.grants) <|> (newestOf .sponge f.grants) <|> (newestOf .hawk f.grants) <|>
    (newestOf .lath f.grants)

/-- Moves one grant from granted to in-transit. -/
def Flt.revoke1 (f : Flt) (g : Grant) : Flt :=
  { f with grants := f.grants.map (fun x => if x = g then { x with revoked := true } else x) }

/-- Revokes whole grants while granted exceeds `limit`, at most `fuel` of them; answers the holders, in revoke order. -/
def Flt.revokeTo : Nat → Nat → Flt → Flt × List Grant
  | 0, _, f => (f, [])
  | fuel + 1, limit, f =>
    if f.granted ≤ limit then (f, [])
    else match f.victim with
      | none => (f, [])
      | some g =>
        let (f', l) := Flt.revokeTo fuel limit (f.revoke1 g)
        (f', g :: l)

/-- The revokes of R563 with their paused requests: the reverse of the revoke order is the order of service. -/
def Flt.revokeAll (f : Flt) (limit : Nat) : Flt :=
  let (f', l) := Flt.revokeTo (f.grants.length + 1) limit f
  { f' with reqs := f'.reqs ++ l.reverse.map (fun g => { who := g.who, size := g.size, paused := true }) }

/-- A holder's grant is held now. -/
def Flt.holds (f : Flt) (h : Holder) : Bool := f.grants.any (fun g => g.who = h && !g.revoked)

/-- A fall of the target through FLT_LIMIT_N or a cap: free tokens leave, then grants are revoked (R560). -/
def Flt.fall (f : Flt) : Flt := (f.settle).revokeAll f.target

end Sys2Proof.Machine
end

