-- ==== Sys2Proof/Machine/Jobs.lean ====
section
/-!
DEFINITION. Jobs on their way through the device: schedule classes and engines (R99, R100), Float grants (R234), the
end of a job on its engine, completion records, the completion index, its writeback and the moderated interrupt
(R103-R113), and the answer of an op-family command (R138).
-/
namespace Sys2Proof.Machine

/-- The number of Horrov's own queue (R138). -/
def horrovQ : Nat := 4096

/-- The class of Horrov's own jobs, outside 0-15 (R138). -/
def horrovCls : Nat := 16

/-! ## Units, engines and classes -/

/-- Physical units of a kind (R603), and the Plumb unit number of index n. -/
def EKind.count : EKind → Nat
  | .render => 36
  | .lath => 36
  | .hawk => 9
  | .keccak => 8
  | .sha2 => 8

def EKind.unit (k : EKind) (n : Nat) : Nat :=
  match k with
  | .render => n
  | .lath => 36 + n
  | .hawk => 72 + n
  | .keccak => 81 + n
  | .sha2 => 89 + n

/-- The kind code of the ENGINE field (R103), and the position of the kind in the masks of `que.class`. -/
def EKind.code : EKind → Nat
  | .render => 1
  | .lath => 2
  | .hawk => 3
  | .keccak => 4
  | .sha2 => 4

def EKind.maskPos : EKind → Nat
  | .render => 0
  | .lath => 1
  | .hawk => 2
  | .keccak => 3
  | .sha2 => 4

/-- The engine index of the ENGINE field: pool SHA-2 cores are 8-15. -/
def EKind.field (k : EKind) (n : Nat) : Nat :=
  match k with
  | .sha2 => 8 + n
  | _ => n

/-- The Float holder of an engine's job grant (R557). -/
def EKind.holder (k : EKind) (n : Nat) : Holder :=
  match k with
  | .render => { kind := .renderLa, idx := n }
  | .lath => { kind := .lath, idx := n }
  | .hawk => { kind := .hawk, idx := n }
  | .keccak => { kind := .sponge, idx := n }
  | .sha2 => { kind := .sponge, idx := 8 + n }

def State.inService (s : State) (k : EKind) (n : Nat) : Bool :=
  (s.unit (k.unit n)).st == .inService

/-- Engine `n` of kind `k` serves class `c` (R100, R138): every in-service unit where the class has no mask. -/
def State.serves (s : State) (c : Nat) (k : EKind) (n : Nat) : Bool :=
  s.inService k n &&
    (if c = horrovCls then true
     else match (s.cls c).masks with
      | none => true
      | some ms => (ms.getD k.maskPos 0).getLsbD n)

/-- A retired inline Render engine whose assignment a spare is about to take over (R24, R193). -/
def State.spareComing (s : State) (n : Nat) : Bool :=
  s.rdr.takeover.any (fun t => t.1 == n) && (List.range 36).any (fun m => (s.unit m).st == .spare)

/-- Unit `n` of kind `k` is one of class `c`'s: a unit that drains or is under test stays assigned (R521, R614), and the
place of a retired one whose spare is coming is not lost (R24). -/
def State.standsFor (s : State) (c : Nat) (k : EKind) (n : Nat) : Bool :=
  let st := (s.unit (k.unit n)).st
  (st == .inService || st == .draining || st == .test || (k == .render && s.spareComing n)) &&
    (if c = horrovCls then true
     else match (s.cls c).masks with
      | none => true
      | some ms => (ms.getD k.maskPos 0).getLsbD n)

/-- The class has a unit of the kind (R25); once a scope that needs preparation was opened no job is dispatched (R488). -/
def State.hasEngine (s : State) (c : Nat) (k : EKind) : Bool :=
  !s.lcy.prepared && (List.range k.count).any (fun n => s.standsFor c k n)

def State.weight (s : State) (c : Nat) : Nat := if c = horrovCls then 8 else (s.cls c).weight

/-- The job that holds engine `n` of kind `k`. -/
def State.jobOn (s : State) (k : EKind) (n : Nat) : Option Job :=
  s.que.jobs.find? (fun j => j.kind == k && j.engine == n &&
    (j.st == .assigned || j.st == .running || j.st == .paused))

/-- The engine can take a job now: in service, holding none, and not wiping (R233, R403). -/
def State.engineFree (s : State) (k : EKind) (n : Nat) : Bool :=
  s.inService k n && (s.jobOn k n).isNone &&
    (match k with
     | .lath => (s.lath n).st == .idle
     | .hawk => (s.hawk n).st == 1
     | .keccak => (s.core n).st == 0
     | .sha2 => (s.core (8 + n)).st == 0
     | .render => ((s.rnd n).st == .inline || (s.rnd n).st == .lookaside) && !Tbl.get false s.rdr.feedStall (n / 4))

/-- The job moves data by DMA and so waits for Bus Master Enable (R51). Op-family jobs too; FENCE and NOP are no jobs. -/
def State.dmaOpen (s : State) (j : Job) : Bool := (s.fn j.fn).bme

/-- The Sponge context that a job names or has reserved. -/
def Job.ctxNo (j : Job) : Option Nat :=
  if j.desc.opcode = 0x60 ∨ j.desc.opcode = 0x62 ∨ j.desc.opcode = 0x63 then j.hold else none

/-- Every job dispatched before this one that names the same context has completed (R363). A job that has yielded stands
behind others in the list and still comes first. -/
def State.ctxTurn (s : State) (j : Job) : Bool :=
  match j.ctxNo with
  | none => true
  | some c =>
    match (s.que.jobs.find? (fun x => x.ctxNo == some c && x.started)) <|>
        (s.que.jobs.find? (fun x => x.ctxNo == some c)) with
    | some x => x.id == j.id
    | none => true

/-- The tree state of the key that an `lms.sign` job names stands in its home Quad, with every tree that its index needs
(R338, R339). -/
def State.treeReady (s : State) (j : Job) : Bool :=
  if j.desc.opcode = 0x45 then
    match j.refs with
    | k :: _ => !(s.hss k).rebuilding &&
        (match (s.hss k).waitFrom with
         | some q => decide (j.hold.getD 0 < q)
         | none => true)
    | [] => true
  else true

/-- The suspended Lath job `j` can resume on engine `n` of its Quad (R235). -/
def State.canResume (s : State) (j : Job) (n : Nat) : Bool :=
  j.st == .suspended && j.kind == .lath && s.inService .lath n && s.dmaOpen j && j.quad == some (n / 4)

/-- The job can start on engine `n` of its kind (R100). -/
def State.canStart (s : State) (j : Job) (n : Nat) : Bool :=
  (j.st == .waiting || (j.st == .suspended && j.kind != .lath)) && j.blocked == 0 && s.ctxTurn j && s.treeReady j && s.serves j.cls j.kind n && s.dmaOpen j &&
    (match j.quad with
     | none => true
     | some q => q == n / 4)

/-- The oldest job of class `c` that can start on engine `n` of kind `k`. -/
def State.oldest (s : State) (c : Nat) (k : EKind) (n : Nat) : Option Job :=
  s.que.jobs.find? (fun j => j.cls == c && j.kind == k && s.canStart j n)

/-- Weighted round robin over classes 0-16 (log entry 13): the class served last goes on while it has starts left,
then the next class in cyclic order that has a startable job is served, with as many starts as its weight. -/
def State.pickClass (s : State) (k : EKind) (n : Nat) : Option (Nat × Nat) :=
  let (cur, left) := Tbl.get (0, 0) s.que.rr k.maskPos
  if left ≠ 0 ∧ (s.oldest cur k n).isSome then some (cur, left - 1)
  else
    match ((List.range 17).map (fun i => (cur + 1 + i) % 17)).find? (fun c => (s.oldest c k n).isSome) with
    | some c => some (c, s.weight c - 1)
    | none => none

/-- Puts a job on engine `n`: it starts at once where its kind needs no Float grant, and otherwise its request joins
the queue of Float (R234, R561). A lookaside job on an inline Render engine takes no grant (R557). -/
def State.place (s : State) (j : Job) (n : Nat) : State :=
  let need := if j.kind = .render ∧ (s.rnd n).st = .inline then 0 else j.grant
  let s1 := s.updJob j.id (fun x =>
    { x with st := if need = 0 then .running else .assigned, engine := n, started := decide (need = 0) || x.started,
             tStart := if x.started then x.tStart else s.clk, grant := need })
  let s2 := if need = 0 then s1
    else { s1 with flt := s1.flt.ask { who := j.kind.holder n, size := need } }
  match j.kind with
  | .lath => s2.updLath n (fun e => { e with st := .busy, job := some j.id, running := true, tStart := s.clk })
  | .hawk => s2.updHawk n (fun e => { e with st := 2, job := some j.id, tStart := s.clk })
  | .keccak => s2.updCore n (fun e => { e with job := some j.id })
  | .sha2 => s2.updCore (8 + n) (fun e => { e with job := some j.id })
  | .render => s2

/-- The job that engine `n` of kind `k`, where it is free, takes next, with the round-robin entry that its class then
leaves (R100). The suspended job of a Lath engine's Quad comes ahead of every new dispatch, and leaves the entry (R235). -/
def State.nextJob (s : State) (k : EKind) (n : Nat) : Option (Job × (Nat × Nat)) :=
  if s.engineFree k n then
    match if k = .lath then s.que.jobs.find? (fun j => s.canResume j n) else none with
    | some j => some (j, Tbl.get (0, 0) s.que.rr k.maskPos)
    | none =>
      match s.pickClass k n with
      | none => none
      | some (c, left) => (s.oldest c k n).map (fun j => (j, (c, left)))
  else none

/-- Gives an engine its next job. -/
def State.takeNext (s : State) (k : EKind) (n : Nat) (j : Job) (r : Nat × Nat) : State :=
  ({ s with que := { s.que with rr := Tbl.set (0, 0) s.que.rr k.maskPos r } }).place j n

/-- Engine `n` of kind `k`, where it is free, takes its next job. Where that is a suspended job, the engine waits for it
to resume (R235, R366). -/
def State.fill (s : State) (k : EKind) (n : Nat) : State :=
  match s.nextJob k n with
  | none => s
  | some (j, r) => if j.st = .suspended then s else s.takeNext k n j r

def fillKind (k : EKind) : List Nat → State → State
  | [], s => s
  | n :: t, s => fillKind k t (s.fill k n)

/-- Every free engine takes its next job. While Scrim holds the device nothing is dispatched (R522). -/
def State.assign (s : State) : State :=
  if s.held || s.que.jobs.all (fun j => !(j.st == .waiting || j.st == .suspended)) then s
  else fillKind .sha2 (List.range 8) (fillKind .keccak (List.range 8) (fillKind .hawk (List.range 9)
    (fillKind .lath (List.range 36) (fillKind .render (List.range 36) s))))

/-! ## The end of a job on its engine -/

/-- The Float grant of an engine returns (R234). A hybrid job whose Hawk part held it can now take the grant of its Lath part
(R315). -/
def State.releaseGrant (s : State) (k : EKind) (n : Nat) : State :=
  { s with
    flt := s.flt.release (k.holder n)
    que := if k = .hawk then
        { s.que with jobs := s.que.jobs.map (fun j => if j.blocked = 3 ∧ j.engine = n then { j with blocked := 0 } else j) }
      else s.que }

/-- The engine of a job starts its wipe: a Lath or Hawk engine is busy with it until ENGINE_WIPE_DONE and keeps its
grant (R233, R403); a request of its job ends with it; a pool core and a Render engine are free at once and their grant returns (R356). -/
def State.leaveEngine (s : State) (j : Job) : State :=
  let drop := { s with flt := { s.flt with reqs := s.flt.reqs.filter (fun r => r.who ≠ j.kind.holder j.engine) } }
  match j.kind with
  | .lath => drop.updLath j.engine (fun e => { e with st := .wiping, job := none, running := false, claims := [], lock := false, wipeFn := j.fn, wipeGen := j.gen })
  | .hawk => drop.updHawk j.engine (fun e => { e with st := 5, job := none, jobs := satInc e.jobs, wipeFn := j.fn, wipeGen := j.gen })
  | .keccak => (s.updCore j.engine (fun e => { e with st := 0, job := none, shares := 0 })).releaseGrant .keccak j.engine
  | .sha2 => (s.updCore (8 + j.engine) (fun e => { e with st := 0, job := none, shares := 0 })).releaseGrant .sha2 j.engine
  | .render => s.releaseGrant .render j.engine

/-- A job ends with result `r`. Where it holds an engine, the engine is left. -/
def State.endJob (s : State) (id : JobId) (r : JobRes) : State :=
  match s.findJob id with
  | none => s
  | some j =>
    let onEngine := j.st == .running || j.st == .paused || j.st == .assigned
    let s1 := s.updJob id (fun x => { x with st := .ended, res := r })
    if onEngine then s1.leaveEngine j else s1

/-- A job ends with a failure status. -/
def State.failJob (s : State) (id : JobId) (status : W16) (detail : Nat) : State :=
  s.endJob id { status := status, detail := BitVec.ofNat 32 detail }

/-- The abort of a paused job borrows the WIPE reserve for the wipe of its engine (R562); a second one waits for it. A
pool core and a Render engine need no wipe of that kind. -/
def State.borrowWipe (s : State) (j : Job) (r : W16 × W32) : State :=
  let wipes : Bool := j.kind == .lath || j.kind == .hawk
  if wipes ∧ s.flt.wipeLent.isSome = true then s.updJob j.id (fun x => { x with abort := some r })
  else
    let s1 := s.endJob j.id { status := r.1, detail := r.2 }
    if wipes then { s1 with flt := { s1.flt with wipeLent := some (j.kind.holder j.engine) } } else s1

/-- The first paused job with an abort, where the reserve is free. -/
def State.serveWipe (s : State) : State :=
  match s.que.jobs.find? (fun j => j.st == .paused && j.abort.isSome) with
  | some j => (match j.abort with
    | some r => s.borrowWipe j r
    | none => s)
  | none => s

/-- The reserve returns from the engine it was lent to. -/
def State.returnWipe (s : State) (h : Holder) : State :=
  if s.flt.wipeLent = some h then ({ s with flt := { s.flt with wipeLent := none } }).serveWipe else s

/-- A pending abort of a job: a running job meets it at its next safe point (R231, R402), a waiting one ends at once. -/
def State.abortJob (s : State) (id : JobId) (detail : Nat) : State :=
  match s.findJob id with
  | none => s
  | some j =>
    match j.st with
    | .ended => s
    | .waiting => s.failJob id stAborted detail
    | .suspended => s.failJob id stAborted detail
    | .assigned => s.failJob id stAborted detail
    | .paused => s.borrowWipe j (stAborted, BitVec.ofNat 32 detail)
    | _ => s.updJob id (fun x => { x with abort := some (stAborted, BitVec.ofNat 32 detail) })

/-! ## Completion records and CI -/

/-- Ticks of 2.5 ns in a span of CLK_SLOW ticks, saturating (R103). -/
def ctlTicks (t0 t1 : W64) : W32 :=
  let d := (t1.toNat - t0.toNat) * 16
  if d < 4294967295 then BitVec.ofNat 32 d else 0xFFFFFFFF

/-- Ring entries of a queue, and the host address of the entry of index `i` (R79). -/
def Queue.size (q : Queue) : Nat := 2 ^ q.sizeLog2

def Queue.entryAddr (q : Queue) (i : W16) : W64 := q.base + BitVec.ofNat 64 (64 * (i.toNat % q.size))

/-- Splits output bytes over a scatter list in its order (R89). -/
def scatter : List SglEnt → List Byte → List (W64 × List Byte)
  | [], _ => []
  | e :: t, l => (e.addr, l.take e.len.toNat) :: scatter t (l.drop e.len.toNat)

/-- Where the output bytes of a descriptor go. -/
def Desc.outSegs (d : Desc) (sgl : List SglEnt) (l : List Byte) : List (W64 × List Byte) :=
  if d.flags.getLsbD 2 then scatter sgl l else [(d.outPtr, l)]

/-- The completion record of an ended job (R103, R104). WAIT of a job that ends without an engine start runs to its end, which
R103 leaves open (DESIGN CHOICE, log entry 90). Output bytes count only for ST_OK; a job whose engine had
started and that fails has its output buffer zero-filled. RETRIED says that the result is valid, so that an aborted rerun
leaves it 0 (R103; DEDUCED, log entry 81). -/
def Job.record (j : Job) (now : W64) : Comp :=
  let ok := j.res.status == stOk
  { status := j.res.status,
    cflags := BitVec.ofNat 8 ((if j.started && !ok then 1 else 0) + (if j.retried && j.res.status != stAborted then 2 else 0)),
    gen := j.gen, tag := j.desc.tag,
    outBytes := if ok then BitVec.ofNat 32 j.res.out.length else 0,
    detail := j.res.detail,
    wait := ctlTicks j.tDisp (if j.started then j.tStart else now),
    service := if j.started then ctlTicks j.tStart now else 0,
    engine := if j.started then BitVec.ofNat 16 (4096 * j.kind.code + j.kind.field j.engine) else 0,
    result := if ok then j.res.result else [] }

/-- The bytes a completed job writes to its output buffer: the result, or zeros (R104). -/
def Job.outBytes (j : Job) : List Byte :=
  if j.res.status == stOk then j.res.out
  else if j.started then List.replicate j.desc.outLen.toNat 0 else []

/-- PME, once per D3hot residence where PME_En is set (R113); held pending while Bus Master Enable is 0 (R51). -/
def State.signalPme (s : State) (f : Nat) : State :=
  let x := s.fn f
  if x.pmeEn && !x.pmeSent then
    if x.bme then (s.updFn f (fun y => { y with pmeSent := true, pmePend := false })).wakeLink.emit (.pme f)
    else s.updFn f (fun y => { y with pmePend := true })
  else s

/-- The moderated interrupt of a queue (R111): the vector is signalled, the count and the timer are reset. In D3hot it
stays pending (R113). -/
def State.raiseQueueIrq (s : State) (q : Nat) : State :=
  let qu := s.queue q
  if (s.fn qu.fn).d3hot then
    (s.updQueue q (fun x => { x with irqDue := true, modPend := 0, modTimer := false })).signalPme qu.fn
  else (s.updQueue q (fun x => { x with modPend := 0, modTimer := false })).msix qu.fn qu.slot

/-- Signals a moderated interrupt where the count or an IRQ_NOW entry asks for it; otherwise the timer starts. -/
def State.moderate (s : State) (q : Nat) (now : Bool) : State :=
  let qu := s.queue q
  if qu.irqEn then
    if now || decide ((if qu.countEff = 0 then 1 else qu.countEff) ≤ qu.modPend) then s.raiseQueueIrq q
    else s.updQueue q (fun x => { x with modTimer := decide (x.timerEff ≠ 0 ∧ x.modPend ≠ 0) })
  else s

/-- Takes the covered entries from the front of CI (R107): answers the queue, how many were covered, how many of them count
as pending moderation now (R111; an entry whose job ended in D3hot counted then, R113), and whether one has IRQ_NOW. -/
def coverLoop : Nat → Queue → Nat → Nat → Bool → Queue × Nat × Nat × Bool
  | 0, q, n, m, b => (q, n, m, b)
  | fuel + 1, q, n, m, b =>
    match Tbl.get none q.entries q.ci.toNat with
    | some e =>
      if e.st = .written then
        coverLoop fuel { q with ci := q.ci + 1, entries := Tbl.set none q.entries q.ci.toNat none } (n + 1)
          (if e.counted then m else m + 1) (b || e.desc.flags.getLsbD 3)
      else (q, n, m, b)
    | none => (q, n, m, b)

/-- The CI writeback (R110), after the covered writes (R108). -/
def State.writeback (s : State) (q : Nat) : State :=
  let qu := s.queue q
  if qu.ciwb = 0 then s
  else s.wakeLink.emit (.ciwb q qu.ciwb qu.ci (s.fn qu.fn).gen (qu.st == .error))

/-- CI advances over every covered entry (R107); QUE_MOD takes effect (R112); then writeback and moderation, in which an
interrupt that came due in D3hot goes too (R113). -/
def State.advanceCi (s : State) (q : Nat) : State :=
  let (qu, n, m, b) := coverLoop ((s.queue q).entries.length + 1) (s.queue q) 0 0 false
  if n = 0 then s
  else
    ((s.updQueue q (fun _ =>
      { qu with modPend := qu.modPend + m, timerEff := qu.timer, countEff := qu.count, wbDue := false,
                irqDue := false })).writeback q).moderate q (b || qu.irqDue)

/-- Writes the record of an entry of queue `q` over its ring entry, after the output writes `segs` of its job (R103, R108). -/
def State.putRecord (s : State) (f : Nat) (id : JobId) (c : Comp) (segs : List (W64 × List Byte)) : State :=
  ((if segs.isEmpty then s.wakeLink else s.wakeLink.emit (.output f segs)).emit
      (.completion id ((s.queue id.q).entryAddr id.idx) c)).updQueue id.q (fun x =>
    { x with jobsCnt := satInc x.jobsCnt,
             entries := Tbl.upd none x.entries id.idx.toNat
               (fun e => e.map (fun y => { y with st := .written })) })

/-- Returns the job token of a VF (R68). -/
def State.returnToken (s : State) (f : Nat) : State :=
  if f = 0 then s else s.updFn f (fun x => { x with dispatched := x.dispatched - 1 })

/-- Keeps a record, with its output, until the function can write it (R51, R59). -/
def State.holdRecord (s : State) (r : HeldRec) : State :=
  { s with que := { s.que with heldRecs := s.que.heldRecs ++ [r] } }

/-- Ends an entry with its output and its record: discarded where the generation is old (R62), held in D3hot (R59) and while Bus
Master Enable is 0 (R51), and written at once otherwise. A record held in D3hot counts as pending moderation when its job
ends (R113). With `tok` the job holds a token, which returns when the record is written or discarded (R68). -/
def State.finishEntry (s : State) (f : Nat) (id : JobId) (c : Comp) (segs : List (W64 × List Byte)) (tok : Bool) : State :=
  let back := fun (x : State) => if tok then x.returnToken f else x
  if c.gen ≠ (s.fn f).gen then back s
  else if (s.fn f).d3hot then
    let s1 := (s.holdRecord { fn := f, id := id, comp := c, segs := segs, token := tok }).updQueue id.q (fun x =>
      { x with modPend := x.modPend + 1, wbDue := true,
               entries := Tbl.upd none x.entries id.idx.toNat (fun e => e.map (fun y => { y with counted := true })) })
    let x := s1.queue id.q
    if x.irqEn ∧ (if x.countEff = 0 then 1 else x.countEff) ≤ x.modPend then s1.raiseQueueIrq id.q else s1
  else if (s.fn f).bme = false then s.holdRecord { fn := f, id := id, comp := c, segs := segs, token := tok }
  else (back (s.putRecord f id c segs)).advanceCi id.q

/-- Drops the Bond references of a job (R433). -/
def State.dropRefs (s : State) : List Nat → State
  | [] => s
  | k :: t => (s.updSlot k (fun b => { b with jobRefs := b.jobRefs - 1 })).dropRefs t

/-! ## Mailbox answers -/

/-- Bytes of a completion record as the op family returns it (R103, R138). -/
def Comp.bytes (c : Comp) : List Byte :=
  leBytes 2 c.status.toNat ++ [c.cflags, c.gen] ++ leBytes 4 c.tag.toNat ++ leBytes 4 c.outBytes.toNat ++
    leBytes 4 c.detail.toNat ++ leBytes 4 c.wait.toNat ++ leBytes 4 c.service.toNat ++ leBytes 2 c.engine.toNat ++
    leBytes 2 0 ++ fit 36 c.result

/-- Writes the response of admin slot `n` and moves it to DONE (R120). -/
def State.answerPf (s : State) (n : Nat) (r : Resp) : State :=
  let s1 := s.updMslot n (fun m => m.respond r)
  let s2 := { s1 with mbx := { s1.mbx with running := if s1.mbx.running = n then 0 else s1.mbx.running } }
  if s2.mbx.irqEn then s2.msix 0 64 else s2

/-- Writes the response of VF `v`'s light mailbox (R120). -/
def State.answerVf (s : State) (v : Nat) (r : Resp) : State :=
  let s1 := s.updVmbx v (fun m => { m with slot := m.slot.respond r })
  if (s1.vmbx v).irqEn then s1.msix v 16 else s1

/-- Writes ARONG_RSP (R142). -/
def State.answerSmb (s : State) (r : Resp) : State :=
  { s with mbx := { s.mbx with smbStatus := r.status, smbSeq := BitVec.ofNat 8 r.seq.toNat, smbState := 2,
                               smbResults := r.results.take 251 } }

def State.answer (s : State) : Issuer → Resp → State
  | .pf n, r => s.answerPf n r
  | .vf v, r => s.answerVf v r
  | .smb, r => s.answerSmb r

/-- Completes an ended job (R103): its output and record leave, its references and token return, and the answer of an
op-family command is written. -/
def State.completeJob (s : State) (j : Job) : State :=
  let c := j.record s.clk
  let live : Bool := c.gen == (s.fn j.fn).gen
  let s1 := (s.dropJob j.id).dropRefs j.refs
  let segs := if j.outBytes.isEmpty then [] else j.desc.outSegs j.outSgl j.outBytes
  let out := fun (x : State) => if segs.isEmpty then x else x.wakeLink.emit (.output j.fn segs)
  let s2 := match j.mbx with
    | some (n, seq) =>
      if live then
        (out s1).answerPf n { status := c.status, gen := c.gen, seq := seq, detail := c.detail, results := c.bytes }
      else s1
    | none =>
      if j.id.q = horrovQ then (if live then out s1 else s1)
      else s1.finishEntry j.fn j.id c segs true
  s2.assign

end Sys2Proof.Machine
end

