-- ==== Sys2Proof/Machine/Bond.lean ====
section
/-!
DEFINITION. Bond (R426-R442): handles and their checks, regions and allocation, release and wipe, references, and the
re-randomisation of shares.
-/
namespace Sys2Proof.Machine

def slotCount : Nat := 131072

/-! ## Codes -/

def Usage.code : Usage → Nat
  | .enc => 0
  | .dec => 1
  | .wrap => 2
  | .derive => 3

def usageOf : Nat → Usage
  | 0 => .enc
  | 1 => .dec
  | 2 => .wrap
  | _ => .derive

def Origin.code : Origin → Nat
  | .generated => 0
  | .agreed => 1
  | .derived => 2
  | .imported => 3
  | .owner => 4
  | .root => 5
  | .system => 6

def BSt.code : BSt → Nat
  | .free => 0
  | .allocated => 1
  | .awaitWipe => 2

/-! ## Algorithm bindings (R435) -/

/-- Key bytes of a binding; `none` where the length is variable, 16-64. -/
def algBytes (a : W16) : Option Nat :=
  let n := a.toNat
  if n = 0x0101 then some 16 else if n = 0x0102 then some 32 else if n = 0x0103 then some 20
  else if n = 0x0104 then some 36 else if n = 0x0500 then some 32
  else if 0x1001 ≤ n ∧ n ≤ 0x1003 then some 64 else if 0x1011 ≤ n ∧ n ≤ 0x1013 then some 32
  else if 0x1021 ≤ n ∧ n ≤ 0x102C then some 32 else if n = 0x1031 then some 57 else if n = 0x1032 then some 49
  else if 0x1041 ≤ n ∧ n ≤ 0x1043 then some 64 else if n = 0x1051 ∨ n = 0x1052 then some 32
  else if n = 0x2001 ∨ n = 0x2002 then some 32 else if n = 0x2003 then some 32 else if n = 0x2004 then some 48
  else if n = 0x2011 then some 672 else if n = 0x2012 then some 992 else if n = 0x2013 then some 1312
  else if n = 0x2014 then some 2592 else none

/-- HMAC codes of the Sponge ALG table (R354). -/
def isHmacAlg (a : Nat) : Bool := (0x01 ≤ a && a ≤ 0x06) || (0x11 ≤ a && a ≤ 0x14)

/-- The binding has a variable key length of 16-64 bytes. -/
def algVariable (a : W16) : Bool :=
  let n := a.toNat
  (0x0200 ≤ n && n < 0x0300 && isHmacAlg (n - 0x0200)) || n == 0x0300 || n == 0x0400

/-- The binding is one of R435. -/
def algKnown (a : W16) : Bool := (algBytes a).isSome || algVariable a

/-- A key of `n` bytes is of the length that its binding has. -/
def algLenOk (a : W16) (n : Nat) : Bool :=
  match algBytes a with
  | some k => n == k
  | none => algVariable a && decide (16 ≤ n ∧ n ≤ 64)

/-- The usages that a binding allows. -/
def algUsageOk (a : W16) (u : Usage) : Bool :=
  let n := a.toNat
  if n = 0x0400 then u == .derive
  else if n = 0x0500 then u == .wrap
  else if n < 0x0400 then u == .enc || u == .dec
  else if 0x1001 ≤ n ∧ n ≤ 0x1003 then u == .dec
  else if 0x1011 ≤ n ∧ n ≤ 0x1032 then u == .enc
  else if 0x1041 ≤ n ∧ n ≤ 0x1052 then u == .dec
  else if n = 0x2001 then u == .dec
  else if n = 0x2002 then u == .enc
  else u == .enc || u == .dec

/-- The owner path of R435: I (INSTALL), K (`key.import`), D (DERIVE_ROOT). -/
def algInstall (a : W16) : Bool :=
  algKnown a && !(decide (0x1021 ≤ a.toNat ∧ a.toNat ≤ 0x1032))

def algImport (a : W16) : Bool := algInstall a && a != 0x0500

def algDerive (a : W16) : Bool := algKnown a && decide (a.toNat ≤ 0x0400)

/-- HQC and Classic McEliece bindings, which exist at level 1 only (R319). -/
def algLevel1Only (a : W16) : Bool := decide (0x1041 ≤ a.toNat ∧ a.toNat ≤ 0x1052)

/-- Slots of a run that holds `n` key bytes. -/
def runOf (n : Nat) : Nat := if n ≤ 64 then 1 else (n + 63) / 64

/-! ## Regions (R427) and the ledger (R428) -/

def isSystemSlot (k : Nat) : Bool := decide (8192 ≤ k ∧ k ≤ 8207)

/-- Slots counted in a state. -/
def countSt (st : BSt) : Tbl BSlot → Nat
  | [] => 0
  | (_, b) :: t => (if b.st = st then 1 else 0) + countSt st t

def State.bndAlloc (s : State) : Nat := countSt .allocated s.bnd.slots
def State.bndAwait (s : State) : Nat := countSt .awaitWipe s.bnd.slots
def State.bndFree (s : State) : Nat := slotCount - s.bndAlloc - s.bndAwait

/-- Slots that function `f` holds in the shared region, counting every slot of a run. -/
def heldBy (f : Nat) : Tbl BSlot → Nat
  | [] => 0
  | (_, b) :: t => (if b.st = .allocated ∧ b.fn = f then 1 else 0) + heldBy f t

/-- Slots `k` to `k + n - 1` are all FREE. -/
def State.runFree (s : State) (k n : Nat) : Bool := (List.range n).all (fun i => (s.slot (k + i)).st == .free)

/-- The lowest start of a free run of `n` slots among `fuel` starts from `lo` (R439). -/
def State.findRun (s : State) (n : Nat) : Nat → Nat → Option Nat
  | 0, _ => none
  | fuel + 1, lo => if s.runFree lo n then some lo else s.findRun n fuel (lo + 1)

/-- The starts worth trying: no more than one beyond every slot that is not free. -/
def State.runFuel (s : State) (lo hi n : Nat) : Nat := min (hi + 1 - n - lo) (s.bnd.slots.length * n + 1)

/-- The region search of R427: PF0 and Horrov in the reserved region first, then everyone in the shared region; a VF
holds at most 4 096 slots. -/
def State.place? (s : State) (f n : Nat) : Option Nat :=
  if f = 0 then
    (s.findRun n (s.runFuel 8208 16384 n) 8208) <|> (s.findRun n (s.runFuel 16384 131072 n) 16384)
  else if heldBy f s.bnd.slots + n ≤ 4096 then s.findRun n (s.runFuel 16384 131072 n) 16384
  else none

/-! ## Key data -/

/-- Key bytes packed into the 512 bits of one slot, first byte lowest. -/
def packSlot (l : List Byte) : W512 := BitVec.ofNat 512 (ofLe (l.take 64))

/-- The bytes of one slot. -/
def BSlot.bytes (b : BSlot) : List Byte := leBytes 64 (b.s0 ^^^ b.s1).toNat

/-- The key bytes of the run that starts at slot `k`. -/
def State.keyBytes (s : State) (k : Nat) : List Byte :=
  ((List.range (max 1 (s.slot k).run)).flatMap (fun i => (s.slot (k + i)).bytes)).take (s.slot k).klen

/-- The next SERIAL of a slot (R431): one more, skipping 0. -/
def nextSerial (x : BitVec 24) : BitVec 24 := if x + 1 = 0 then 1 else x + 1

/-- What a new key is allocated with. -/
structure KeySpec where
  usage : Usage := .enc
  alg : W16 := 0
  level : Nat := 1
  fn : Nat := 0
  origin : Origin := .generated
  data : List Byte := []
deriving DecidableEq, Repr

/-- The slot handle of R431. -/
def State.handleOf (s : State) (k : Nat) : W64 :=
  let b := s.slot k
  BitVec.ofNat 64 (k + 16777216 * b.fn + 4294967296 * b.gen.toNat + 1099511627776 * b.serial.toNat)

/-- Writes slot `i` of a run of `n` that starts at `k`: two Boolean shares of the data (R426). -/
def State.writeRunSlot (s : State) (k n i : Nat) (ks : KeySpec) (gen : Byte) (stamp : W32) (persist : Bool) : State :=
  let (r, s1) := s.draw
  let d := packSlot (ks.data.drop (64 * i))
  s1.updSlot (k + i) (fun b =>
    { st := .allocated, usage := ks.usage, alg := ks.alg, klen := if i = 0 then ks.data.length else 0,
      level := ks.level, fn := ks.fn, gen := gen,
      serial := if persist then BitVec.ofNat 24 (stamp.toNat % 16777215 + 1) else nextSerial b.serial,
      origin := ks.origin, persist := persist, run := if i = 0 then n else 0, stamp := stamp,
      s0 := d ^^^ r, s1 := r })

def State.writeRun (s : State) (k n : Nat) (ks : KeySpec) (gen : Byte) (stamp : W32) (persist : Bool) : List Nat → State
  | [] => s
  | i :: t => (s.writeRunSlot k n i ks gen stamp persist).writeRun k n ks gen stamp persist t

/-- Allocates a volatile key (R439): its first slot, or none with BND_FULL_CNT counted. -/
def State.allocKey (s : State) (ks : KeySpec) : Option Nat × State :=
  let n := runOf ks.data.length
  match s.place? ks.fn n with
  | some k => (some k, s.writeRun k n ks (s.fn ks.fn).gen 0 false (List.range n))
  | none => (none, { s with bnd := { s.bnd with fullCnt := satInc s.bnd.fullCnt } })

/-- Allocates all of the keys or none (R439): their first slots. -/
def State.allocKeys (s : State) : List KeySpec → Option (List Nat × State)
  | [] => some ([], s)
  | ks :: t =>
    match s.allocKey ks with
    | (some k, s1) =>
      match s1.allocKeys t with
      | some (l, s2) => some (k :: l, s2)
      | none => none
    | (none, _) => none

/-! ## Release and wipe (R430, R440) -/

/-- Moves one slot to AWAIT_WIPE in release order. -/
def State.releaseSlot (s : State) (k : Nat) : State :=
  if (s.slot k).st = .allocated then
    let s1 := s.updSlot k (fun b => { b with st := .awaitWipe })
    { s1 with bnd := { s1.bnd with wipeQ := s1.bnd.wipeQ ++ [k] } }
  else s

/-- Every slot of the run that starts at `k` enters AWAIT_WIPE at once. -/
def State.releaseRun (s : State) (k : Nat) : State :=
  (List.range (max 1 (s.slot k).run)).foldl (fun s' i => s'.releaseSlot (k + i)) s

/-- A wipe zeroes both shares and every metadata field except SERIAL and frees the slot (R430). -/
def State.wipeSlot (s : State) (k : Nat) : State :=
  let s1 := s.updSlot k (fun b => { serial := b.serial })
  { s1 with bnd := { s1.bnd with wipeQ := s1.bnd.wipeQ.erase k } }

/-- Wipes at once every slot for which `p` holds; a slot with job references waits in AWAIT_WIPE. -/
def State.wipeWhere (s : State) (p : Nat → BSlot → Bool) : State :=
  { s with bnd := { s.bnd with
      slots := Tbl.map {} (fun k b => if p k b then { serial := b.serial } else b) s.bnd.slots
      wipeQ := s.bnd.wipeQ.filter (fun k => !p k (s.slot k)) } }

/-- Releases every slot for which `p` holds. -/
def State.releaseWhere (s : State) (p : Nat → BSlot → Bool) : State :=
  (s.bnd.slots.filter (fun kb => p kb.1 kb.2 && kb.2.st == .allocated)).foldl (fun s' kb => s'.releaseSlot kb.1) s

/-! ## Handles (R431, R432) -/

def hSlot (h : W64) : Nat := h.toNat % 131072
def hFn (h : W64) : Nat := (h.toNat / 16777216) % 256
def hGen (h : W64) : Byte := BitVec.ofNat 8 (h.toNat / 4294967296)
def hSerial (h : W64) : BitVec 24 := BitVec.ofNat 24 (h.toNat / 1099511627776)

/-- A status with its DETAIL. -/
abbrev Err := W16 × Nat

/-- Checks 1 and 2 of R432 for the issuing function `f`: the first slot, or the status of the first check that fails. -/
def State.handleSlot (s : State) (f : Nat) (h : W64) : Except Err Nat :=
  let k := hSlot h
  let b := s.slot k
  if (h.toNat / 131072) % 128 ≠ 0 ∨ b.st ≠ .allocated ∨ isSystemSlot k = true ∨ b.origin = .system ∨ b.run = 0 ∨
      b.serial ≠ hSerial h then .error (stHandleInvalid, 0)
  else if hFn h = b.fn ∧ hGen h = b.gen ∧ b.fn = f ∧ b.gen = (s.fn f).gen then .ok k
  else if f = 0 ∨ b.fn = f then .error (stKeyOwner, 0)
  else .error (stHandleInvalid, 0)

/-- The four checks of R432: usage `u` and a binding that `algOk` accepts. -/
def State.checkHandle (s : State) (f : Nat) (h : W64) (u : Usage) (algOk : W16 → Bool) : Except Err Nat :=
  match s.handleSlot f h with
  | .error e => .error e
  | .ok k =>
    let b := s.slot k
    if b.usage ≠ u then .error (stKeyUsage, b.usage.code)
    else if algOk b.alg then .ok k
    else .error (stKeyAlg, b.alg.toNat)

/-- Adds a job reference to each slot named (R433). -/
def State.addRefs (s : State) : List Nat → State
  | [] => s
  | k :: t => (s.updSlot k (fun b => { b with jobRefs := b.jobRefs + 1 })).addRefs t

/-- Takes or drops the epoch reference of the slot that a handle names (R175, R179). -/
def State.epochRef (s : State) (h : W64) : State :=
  s.updSlot (hSlot h) (fun b => { b with epochRefs := b.epochRefs + 1 })

def State.epochUnref (s : State) (h : W64) : State :=
  s.updSlot (hSlot h) (fun b => { b with epochRefs := b.epochRefs - 1 })

/-! ## `key.free` (R440) -/

/-- The key slot that a staged command names, which `key.free` must not free (R133). -/
def TCmd.keyOf : TCmd → Option Nat
  | .saStageBasic _ _ k => some (hSlot k)
  | .saStageExpert _ _ k _ _ _ _ => some (hSlot k)
  | _ => none

/-- The index of the staged command that names slot `k`: DETAIL of ST_TXN_CONFLICT (R140, log entry 87). -/
def State.keyLockIdx (s : State) (k : Nat) : Nat :=
  match s.mbx.txn with
  | some t => t.staged.findIdx (fun c => c.keyOf == some k)
  | none => 0

/-- Frees the key of a slot that passed checks 1 and 2, in the order of the rows of R440. The flag tells that the
removal of a persistent LMS/HSS key is to be committed in the background. -/
def State.freeKey (s : State) (k : Nat) : Except Err (State × Bool) :=
  let b := s.slot k
  if 0 < b.epochRefs then .error (stKeyInUse, 0)
  else if b.txn then .error (stTxnConflict, s.keyLockIdx k)
  else if b.origin = .owner ∨ b.origin = .root then .error (stNotPermitted, 0)
  else .ok (s.releaseRun k, b.persist)

/-! ## What a job holds besides its references -/

/-- Gives up what a job holds when it ends or is discarded: its regions (R341), its Sponge context (R363), the cache
entry that it was loading (R347), its transient slot (R304) and its place in a save area (R235, R366). -/
def State.freeHolds (s : State) (j : Job) : State :=
  let s1 := { s with
    lth := { s.lth with
      regions := s.lth.regions.filter (fun r => r.job != j.id)
      quads := Tbl.map {} (fun _ (q : Quad) =>
        match q.save with
        | some sv =>
          if sv.job = j.id then
            { q with save := none, mem := q.mem.filter (fun c => !Tbl.get false sv.qdirty (c.1 / 64)) }
          else q
        | none => q) s.lth.quads }
    spg := { s.spg with saved := s.spg.saved.filter (fun i => i != j.id) } }
  let s2 := match j.hold with
    | some c =>
      if j.ctxNo.isSome ∨ j.desc.opcode = 0x61 then
        (if (s1.ctx c).live then s1 else s1.updCtx c (fun _ => {}))
      else if j.desc.opcode = 0x4F then
        { s1 with lth := { s1.lth with cache := Tbl.upd {} s1.lth.cache c (fun (e : McE) => if e.loading then {} else e) } }
      else s1
    | none => s1
  match j.transient with
  | some k => s2.releaseRun k
  | none => s2

end Sys2Proof.Machine
end

