-- ==== Sys2Proof/Machine/Render.lean ====
section
/-!
DEFINITION. The inline path's shared operations: modes and sub-ports (R146), the assignment of Render engines (R187),
standing grants (R189), forwarding and flow control (R154, R157), SA events (R204), the end of epochs and SAs
(R179, R180), and the disabling of a pair (R151).
-/
namespace Sys2Proof.Machine

/-! ## Modes -/

/-- Sub-ports per port of a mode (R146). -/
def subCount : Nat → Nat
  | 0 => 1
  | 1 => 2
  | _ => 4

def lanesPer (mode : Nat) : Nat := 4 / subCount mode

/-- Bytes of a sub-port's share of the 512 KiB ingress buffer (R157). -/
def shareBytes (mode : Nat) : Nat := 524288 / subCount mode

def LinkSt.code : LinkSt → Nat
  | .disabled => 0
  | .training => 1
  | .up => 2
  | .localFault => 3
  | .remoteFault => 4

/-! ## Counters (R202), by offset div 8 -/

def cFramesIn : Nat := 0
def cOctetsIn : Nat := 1
def cFramesOut : Nat := 2
def cOctetsOut : Nat := 3
def cFcsErr : Nat := 4
def cUndersize : Nat := 5
def cOversize : Nat := 6
def cPauseIn : Nat := 7
def cPauseOut : Nat := 8
def cUncontrolled : Nat := 9
def cNoSa : Nat := 10
def cBadTag : Nat := 11
def cEspBadLen : Nat := 12
def cUntagged : Nat := 13
def cFcDrop : Nat := 14
def cHoldDrop : Nat := 15
def cEngineDrop : Nat := 16
def cFecCorr : Nat := 17
def cFecUncorr : Nat := 18

/-- Adds `n` to counter `c` of a sub-port. -/
def State.count (s : State) (p sub c n : Nat) : State :=
  s.updSub p sub (fun x => { x with cnt := Tbl.upd 0 x.cnt c (fun v => v + n) })

/-! ## SA events (R204) -/

def evFirstRx : Nat := 1
def evOverlapEnd : Nat := 2
def evRetired : Nat := 3
def evPnWarn : Nat := 4
def evPnExhausted : Nat := 5
def evDeleted : Nat := 6

/-- Posts an SA event. Vector 67 is signalled when a record enters the empty FIFO and a read has returned VALID = 0
since the last signal (log entry 21). -/
def State.saEvent (s : State) (type dir slot : Nat) (an : BitVec 2) (sa : Nat) : State :=
  if s.rdr.saev.length < 1024 then
    let first := s.rdr.saev.isEmpty && s.rdr.saevArmed
    let s1 := { s with rdr := { s.rdr with
      saev := s.rdr.saev ++ [{ type := type, dir := dir, slot := slot, an := an, sa := sa,
                               time := BitVec.ofNat 30 s.clk.toNat }]
      saevArmed := s.rdr.saevArmed && !first } }
    if first then s1.devStatus else s1
  else { s with rdr := { s.rdr with saevOverflow := true, saevLost := satInc s.rdr.saevLost } }

/-! ## Epoch slots -/

def Sa.ep (a : Sa) : Nat → Epoch
  | 0 => a.ep0
  | _ => a.ep1

def Sa.updEp (a : Sa) (i : Nat) (g : Epoch → Epoch) : Sa :=
  match i with
  | 0 => { a with ep0 := g a.ep0 }
  | _ => { a with ep1 := g a.ep1 }

/-- The slot of an SA that is in a state for which `p` holds. -/
def Sa.slotIn (a : Sa) (p : EpSt → Bool) : Option Nat :=
  if p a.ep0.st then some 0 else if p a.ep1.st then some 1 else none

def Sa.isEsp (a : Sa) : Bool := decide (4 ≤ a.suite)

/-- The AN that an event or a result shows: 0 for ESP in events (R204). -/
def Sa.evAn (a : Sa) (i : Nat) : BitVec 2 := if a.isEsp then 0 else (a.ep i).an

/-- An epoch that has ended: what its last frames in flight still need (R180, R185), and its counters. -/
def Epoch.ended (e : Epoch) : Epoch :=
  { serial := e.serial, frames := e.frames, invalid := e.invalid, nextPn := e.nextPn, replay := e.replay }

/-- Empties an epoch slot and releases its Bond reference (R33, R179). -/
def State.emptySlot (s : State) (dir a i : Nat) : State :=
  let e := (s.sa dir a).ep i
  if e.st = .empty then s
  else (s.epochUnref e.slot).updSa dir a (fun x => x.updEp i Epoch.ended)

/-- The context of a deleted SA: its counters are WARM registers and stay (R180, R201; DEDUCED, log entry 89), and what the
frames admitted earlier need to finish normally (R180). -/
def Sa.blank (x : Sa) : Sa :=
  { suite := x.suite, window := x.window, order := x.order, ep0 := x.ep0.ended, ep1 := x.ep1.ended, protFrames := x.protFrames, protOctets := x.protOctets, pnExhausted := x.pnExhausted, late := x.late,
    notUsing := x.notUsing, octValidated := x.octValidated, octDecrypted := x.octDecrypted, padErr := x.padErr,
    dummy := x.dummy }

/-- The transmit SA of a sub-port that was created earliest, other than `skip` (R180). -/
def State.earliestTx (s : State) (pair sub skip : Nat) : Option Nat :=
  (s.rdr.sas.foldl (fun (best : Option (Nat × Nat)) ka =>
    if ka.1 < 16384 ∧ ka.1 ≠ skip ∧ ka.2.present = true ∧ ka.2.pair = pair ∧ ka.2.sub = sub then
      match best with
      | none => some (ka.1, ka.2.order)
      | some (_, o) => if ka.2.order < o then some (ka.1, ka.2.order) else best
    else best) none).map (fun b => b.1)

/-- Deletes SA `a` at its commit epoch (R180). -/
def State.deleteSa (s : State) (dir a : Nat) : State :=
  let x := s.sa dir a
  let s1 := (s.emptySlot dir a 0).emptySlot dir a 1
  let s2 := s1.updSa dir a Sa.blank
  let s3 := if dir = 0 ∧ x.deflt = true then
      match s2.earliestTx x.pair x.sub a with
      | some b => s2.updSa 0 b (fun y => { y with deflt := true })
      | none => s2
    else s2
  s3.saEvent evDeleted dir 0 0 a

/-! ## Float grants of pairs (R189, R561) -/

/-- A request is granted when it is its turn and free holds it (R561). -/
def Flt.serve : Nat → Flt → Flt × List FReq
  | 0, f => (f, [])
  | fuel + 1, f =>
    match f.nextReq f.reqs with
    | none => (f, [])
    | some r =>
      if r.size ≤ f.free then
        let (f', l) := Flt.serve fuel (f.give r)
        (f', r :: l)
      else (f, [])

/-- The tokens of a pair's standing grants. -/
def Flt.standing (f : Flt) (n : Nat) : Nat :=
  (f.grants.filter (fun g => g.who = ({ kind := .standing, idx := n } : Holder))).foldl (fun a g => a + g.size) 0

/-- Tokens that STANDING requests wait for. -/
def Flt.standWaiting (f : Flt) : Nat :=
  (f.reqs.filter (fun r => r.who.kind == .standing)).foldl (fun a r => a + r.size) 0

/-- Brings the standing grant of pair `n` to `size`: a smaller one returns the difference; the tokens that a larger
one lacks are granted from free, or asked for with precedence, revoking job grants to make room (R561). -/
def Flt.setStanding (f : Flt) (n size : Nat) : Flt :=
  let h : Holder := { kind := .standing, idx := n }
  let f0 := { f with reqs := f.reqs.filter (fun r => r.who ≠ h) }
  let have_ := f0.standing n
  if size ≤ have_ then
    let others := f0.grants.filter (fun g => g.who ≠ h)
    ({ f0 with grants := if size = 0 then others else others ++ [({ who := h, size := size } : Grant)] }).giveBack (have_ - size)
  else
    let r : FReq := { who := h, size := size - have_ }
    if r.size ≤ f0.free ∧ f0.standWaiting = 0 then f0.give r
    else
      let f1 := f0.ask r
      f1.revokeAll (f1.lb - f1.standWaiting)

/-! ## Assignment of engines (R187) -/

/-- The enabled pair-directions, pair by pair, host to line first. -/
def State.enabledDirs (s : State) : List (Nat × Nat) :=
  ((List.range 8).filter (fun n => (s.pair n).enabled)).flatMap (fun n => [(n, 0), (n, 1)])

/-- Engines that the assignment counts: in service, or kept assigned during a RETRY test (R521). -/
def State.rndAvail (s : State) (n : Nat) : Bool :=
  s.inService .render n || ((s.rnd n).st == .test && (s.rnd n).kept)

/-- The engines to assign: those at the highest step first (R609), then in index order (log entry 22). -/
def State.rndPool (s : State) : List Nat :=
  let av := (List.range 36).filter (fun n => s.rndAvail n)
  [0, 1, 2, 3].flatMap (fun f => av.filter (fun n => (s.rnd n).fstep == f))

/-- Engines of pair-direction number `i` among `d`, of `n` engines in all. -/
def shareOf (n d i : Nat) : Nat :=
  let base := min 4 (n / d)
  if base < 4 ∧ i < n - base * d then base + 1 else base

/-- The retired engines whose places waiting spares will take: as many as there are spares (R193). -/
def State.coming (s : State) : List Nat :=
  (List.map (fun t => t.1) (s.rdr.takeover.filter (fun t => (s.unit t.1).st == .retired))).take
    ((List.range 36).filter (fun m => (s.unit m).st == .spare)).length

/-- The takeovers that wait after an assignment: each spare to come has the place that its engine's number was given,
pair 8 where it is to serve lookaside. -/
def comingRoles (w : List Nat) (rs : List (Nat × Option (Nat × Nat))) : List (Nat × Nat × Nat) :=
  (rs.filter (fun r => w.contains r.1)).map (fun r =>
    match r.2 with
    | some (p, d) => (r.1, p, d)
    | none => (r.1, 8, 0))

/-- Puts engines into the role that the list gives: an assignment, or lookaside where there is none. -/
def setRoles : List (Nat × Option (Nat × Nat)) → State → State
  | [], s => s
  | (e, r) :: t, s =>
    setRoles t (s.updRnd e (fun x =>
      match r with
      | some (p, d) => { x with st := if x.st = .test then .test else .inline, pair := p, dir := d }
      | none => { x with st := if x.st = .test then .test else .lookaside, pair := 0, dir := 0, kept := false }))

/-- The roles that R187 gives: `dirs` in order, each with its share of the engines that are left. -/
def roles (n d : Nat) : Nat → List (Nat × Nat) → List Nat → List (Nat × Option (Nat × Nat))
  | _, [], es => es.map (fun e => (e, none))
  | i, pd :: t, es =>
    let k := shareOf n d i
    (es.take k).map (fun e => (e, some pd)) ++ roles n d (i + 1) t (es.drop k)

/-- Engines assigned to pair `n`, those that a takeover will bring among them. -/
def State.pairEngines (s : State) (n : Nat) : Nat :=
  ((List.range 36).filter (fun e =>
    ((s.rnd e).st == .inline || ((s.rnd e).st == .test && (s.rnd e).kept)) && (s.rnd e).pair == n)).length +
    (s.rdr.takeover.filter (fun t => t.2.1 == n)).length

/-- The standing grant of pair `n` (R189): 10 tokens an engine and 29 for its lanes. -/
def State.standingSize (s : State) (n : Nat) : Nat :=
  if (s.pair n).enabled then 10 * s.pairEngines n + 29 else 0

def setStandings : List Nat → State → State
  | [], s => s
  | n :: t, s => setStandings t { s with flt := s.flt.setStanding n (s.standingSize n) }

/-- Recomputes the assignment of R187 and the standing grants: shrinking and growing grants in pair order. A spare that is
about to take over counts, after the engines that serve, and enters service in the place it is given here (R193). -/
def State.assignRender (s : State) : State :=
  let dirs := s.enabledDirs
  let w := s.coming
  let es := s.rndPool ++ w
  let rs := roles es.length dirs.length 0 dirs es
  let s1 := setRoles (rs.filter (fun r => !w.contains r.1)) s
  let s2 := { s1 with rdr := { s1.rdr with takeover := comingRoles w rs } }
  setStandings (List.range 8)
    (setStandings ((List.range 8).filter (fun n => decide (s2.standingSize n ≤ s2.flt.standing n))) s2)

/-- The pair's standing grant is held in full. -/
def State.standingHeld (s : State) (n : Nat) : Bool :=
  decide (s.standingSize n ≤ s.flt.standing n)

/-! ## Forwarding (R154) -/

/-- The mask feed of every engine of pair `n` runs (R191), one that is under test after a RETRY among them (R521). -/
def State.feedsRun (s : State) (n : Nat) : Bool :=
  (List.range 36).all (fun e =>
    !(((s.rnd e).st == .inline || ((s.rnd e).st == .test && (s.rnd e).kept)) && (s.rnd e).pair == n &&
      Tbl.get false s.rdr.feedStall (e / 4)))

/-- A sub-port pair forwards frames. -/
def State.forwards (s : State) (n sub : Nat) : Bool :=
  (s.subPort n sub).st == .up && (s.subPort (8 + n) sub).st == .up && s.standingHeld n && s.grt.st == .ok &&
    s.feedsRun n && !s.held

/-- PRT_LINK.STATE of a sub-port (R153): HELD is 5. -/
def State.linkState (s : State) (p sub : Nat) : Nat :=
  let x := (s.subPort p sub).st
  if x = .up ∧ s.forwards (p % 8) sub = false then 5 else x.code

/-- The state that a port reports: the lowest-valued state other than UP of its sub-ports, or UP (R153). -/
def State.portState (s : State) (p : Nat) : Nat :=
  let l := ((List.range (subCount (s.pair (p % 8)).mode)).map (fun i => s.linkState p i)).filter (fun c => c ≠ 2)
  l.foldl (fun m c => if m = 2 ∨ c < m then c else m) 2

/-! ## Flow control toward the host (R157) -/

/-- Length of a frame with its FCS. -/
def Frm.len (f : Frm) : Nat := f.bytes.length + 4

/-- Bytes of the frames that wait in the ingress buffer of pair-direction 2 n + d for sub-port `sub`, and of one
priority among them. -/
def bufBytes (sub : Nat) (prio : Option Nat) : List Frm → Nat
  | [] => 0
  | f :: t =>
    (if f.sub = sub ∧ (f.todo = .waitEngine ∨ f.todo = .processed none) ∧ (prio = none ∨ prio = some f.prio) then f.len else 0) +
      bufBytes sub prio t

def State.flow (s : State) (n d : Nat) : List Frm := Tbl.get [] s.rdr.flows (2 * n + d)

def State.setFlow (s : State) (n d : Nat) (l : List Frm) : State :=
  { s with rdr := { s.rdr with flows := Tbl.set [] s.rdr.flows (2 * n + d) l } }

/-- An occupancy of `b` bytes is above XOFF, or was and has not fallen to XON. -/
def Pair.over (p : Pair) (was : Bool) (b : Nat) : Bool :=
  decide (1024 * p.xoff < b) || (was && decide (1024 * p.xon < b))

/-- The total of a host sub-port, and the bytes of priority `i` against an eighth of the thresholds (R157). -/
def State.totOver (s : State) (n sub : Nat) : Bool :=
  (s.pair n).over (s.subPort n sub).overTot (bufBytes sub none (s.flow n 0))

def State.prioOver (s : State) (n sub i : Nat) : Bool :=
  (s.pair n).over ((s.subPort n sub).overPrio.getLsbD i) (8 * bufBytes sub (some i) (s.flow n 0))

/-- Whether priority `i` of a host sub-port is to be paused now: forwarding is held (R154), the sub-port's total is over, or
under PFC the priority's own bytes are (R157). -/
def State.wantPause (s : State) (n sub i : Nat) : Bool :=
  let p := s.pair n
  let all := (p.enabled && (s.subPort n sub).st == .up && !s.forwards n sub) || s.totOver n sub
  match p.fc with
  | 0 => false
  | 1 => all
  | _ => p.pfcMask.getLsbD i && (all || s.prioOver n sub i)

/-- A byte of eight Booleans. -/
def byteOf (g : Nat → Bool) : Byte :=
  BitVec.ofNat 8 ((List.range 8).foldl (fun a i => a + (if g i then 2 ^ i else 0)) 0)

/-- Sends the PAUSE or PFC frames that the present occupancy calls for on a host sub-port. -/
def State.flowSub (s : State) (n sub : Nat) : State :=
  let old := (s.subPort n sub).pausing
  let new := byteOf (fun i => s.wantPause n sub i)
  let tot := s.totOver n sub
  let prio := byteOf (fun i => s.prioOver n sub i)
  let s1 := s.updSub n sub (fun x => { x with pausing := new, overTot := tot, overPrio := prio })
  if new = old then s1
  else
    let on := new &&& ~~~old
    let off := old &&& ~~~new
    let s2 := if on = 0 then s1 else (s1.emit (.pause n sub on 0xFFFF)).count n sub cPauseOut 1
    if off = 0 then s2 else (s2.emit (.pause n sub off 0)).count n sub cPauseOut 1

def flowSubs (n : Nat) : List Nat → State → State
  | [], s => s
  | i :: t, s => flowSubs n t (s.flowSub n i)

/-- Flow control of every enabled pair, after an event that can change it. -/
def flowPairs : List Nat → State → State
  | [], s => s
  | n :: t, s =>
    flowPairs t (if (s.pair n).enabled then flowSubs n (List.range (subCount (s.pair n).mode)) s else s)

def State.flowAll (s : State) : State := flowPairs (List.range 8) s

/-! ## Admission to engines (R200) -/

/-- Frames and bytes that engine `e` holds, admitted and not sent. -/
def engHolds (e : Nat) : List Frm → Nat × Nat
  | [] => (0, 0)
  | f :: t =>
    let (n, b) := engHolds e t
    if f.todo = .inEngine e ∨ f.todo = .processed (some e) then (n + 1, b + f.len) else (n, b)

def State.engLoad (s : State) (e : Nat) : Nat × Nat :=
  engHolds e (s.rdr.flows.flatMap (fun kf => kf.2))

/-- The engine of a pair-direction with the fewest bytes admitted that has room for `len` more (R200). -/
def State.pickRender (s : State) (n d len : Nat) : Option Nat :=
  ((List.range 36).filter (fun e =>
      (s.rnd e).st == .inline && (s.rnd e).pair == n && (s.rnd e).dir == d)).foldl (fun best e =>
    let (k, b) := s.engLoad e
    if k < 8 ∧ b + len ≤ 24576 then
      match best with
      | none => some e
      | some x => if b < (s.engLoad x).2 then some e else best
    else best) none

/-- The frame waits for its partner: forwarding is held, or the host has paused its priority (R159). -/
def State.frmHeld (s : State) (n d : Nat) (f : Frm) : Bool :=
  !s.forwards n f.sub || (d == 1 && (s.subPort n f.sub).paused.getLsbD f.prio)

/-- The receive SA whose replay window a frame meets at the egress stage. -/
def Frm.rxSa (f : Frm) : Option Nat := match f.use with
  | .verify a _ _ _ => some a
  | _ => none

/-- A frame behind a held one of its receive SA, whose arrival order the replay check keeps (R185). -/
def Frm.behind (f : Frm) (l : List Nat) : Bool := match f.rxSa with
  | some a => l.contains a
  | none => false

/-- The first frame of a flow that can go to an engine: frames that are held are passed by (R159), and so are those behind
them in one receive SA (`l`; R185); all others keep their order of arrival (log entry 106). -/
def State.firstReady (s : State) (n d : Nat) : List Nat → Nat → List Frm → Option (Nat × Frm)
  | _, _, [] => none
  | l, i, f :: t =>
    if f.todo = .waitEngine then
      if s.frmHeld n d f || f.behind l then s.firstReady n d (f.rxSa.toList ++ l) (i + 1) t else some (i, f)
    else s.firstReady n d l (i + 1) t

/-- Gives waiting frames of a pair-direction to engines, in arrival order, while an engine has room. -/
def dispatchLoop (n d : Nat) : Nat → State → State
  | 0, s => s
  | fuel + 1, s =>
    let fl := s.flow n d
    match s.firstReady n d [] 0 fl with
    | none => s
    | some (i, f) =>
      match s.pickRender n d f.len with
      | none => s
      | some e => dispatchLoop n d fuel (s.setFlow n d (fl.set i { f with todo := .inEngine e }))

def State.dispatchFrames (s : State) (n d : Nat) : State := dispatchLoop n d ((s.flow n d).length + 1) s

def dispatchPairs : List Nat → State → State
  | [], s => s
  | n :: t, s => dispatchPairs t ((s.dispatchFrames n 0).dispatchFrames n 1)

/-- Frames that a change of the forwarding conditions lets go. -/
def State.dispatchAll (s : State) : State := dispatchPairs (List.range 8) s

/-- Counts every frame of a list under a drop counter of the port that received it. -/
def dropFrames (port c : Nat) : List Frm → State → State
  | [], s => s
  | f :: t, s => dropFrames port c t (s.count port f.sub c 1)

/-- Every frame of engine `e` is lost and counted as ENGINE_DROP (R192, R193); with `pipe`, only the four oldest, and
the others go back to wait for another engine (R521). -/
def dropInEngine (e : Nat) (pipe : Bool) (n d : Nat) : Nat → List Frm → List Frm × List Frm
  | _, [] => ([], [])
  | k, f :: t =>
    if f.todo = .inEngine e ∨ f.todo = .processed (some e) then
      let (keep, lost) := dropInEngine e pipe n d (k + 1) t
      if pipe ∧ 4 ≤ k ∧ f.todo = .inEngine e then ({ f with todo := .waitEngine } :: keep, lost)
      else (keep, f :: lost)
    else
      let (keep, lost) := dropInEngine e pipe n d k t
      (f :: keep, lost)

def dropEngineFlows (e : Nat) (pipe : Bool) : List Nat → State → State
  | [], s => s
  | i :: t, s =>
    let n := i / 2
    let d := i % 2
    let (keep, lost) := dropInEngine e pipe n d 0 (s.flow n d)
    dropEngineFlows e pipe t (dropFrames (8 * d + n) cEngineDrop lost (s.setFlow n d keep))

/-- Loses the frames of a Render engine. -/
def State.loseFrames (s : State) (e : Nat) (pipe : Bool) : State := dropEngineFlows e pipe (List.range 16) s

/-! ## Enabling and disabling a pair (R151) -/

def setSubs (p : Nat) (g : SubPort → SubPort) : List Nat → State → State
  | [], s => s
  | i :: t, s => setSubs p g t (s.updSub p i g)

/-- A sub-port that has left electrical idle sends Local Fault ordered sets while its partner is not UP (R155). -/
def State.sendsFault (s : State) (port sub : Nat) : Bool :=
  let p := s.pair (port % 8)
  p.enabled && decide (sub < subCount p.mode) && (s.subPort port sub).st != .disabled &&
    (s.subPort ((port + 8) % 16) sub).st != .up

/-- The sub-ports of a list that start or end their Local Fault ordered sets, against state `old`. -/
def signalFaults (old : State) : List (Nat × Nat) → State → State
  | [], s => s
  | (p, u) :: t, s =>
    signalFaults old t
      (if s.sendsFault p u = old.sendsFault p u then s else s.emit (.localFault p u (s.sendsFault p u)))

/-- What a change of the sub-ports of pair `n` does to the Local Fault ordered sets of both its ports. -/
def State.faultsSince (s old : State) (n : Nat) : State :=
  signalFaults old ((List.range 4).flatMap (fun u => [(n, u), (8 + n, u)])) s

/-- Both ports of an enabled pair start training once its standing grant is held (R23, R561): until then its lanes stay in
electrical idle. -/
def State.trainPair (s : State) (n : Nat) : State :=
  if (s.pair n).enabled ∧ s.standingHeld n = true ∧ (s.subPort n 0).st = .disabled then
    let subs := List.range (subCount (s.pair n).mode)
    let up := fun (x : SubPort) => { x with st := .training, lanes := 0 }
    (setSubs (8 + n) up subs (setSubs n up subs s)).faultsSince s n
  else s

/-- The effect of `port.enable` at its commit epoch: the engines are assigned and the standing grant is requested. -/
def State.enablePair (s : State) (n : Nat) : State :=
  ((s.updPair n (fun p => { p with enabled := true })).assignRender).trainPair n

/-- The effect of `port.disable` at its commit epoch: frames already admitted are dropped and counted as HOLD_DROP, the
lanes go to electrical idle, and the standing grant returns. -/
def State.disablePair (s : State) (n : Nat) : State :=
  if (s.pair n).enabled then
    let s1 := dropFrames n cHoldDrop (s.flow n 0) (dropFrames (8 + n) cHoldDrop (s.flow n 1) s)
    let s2 := (s1.setFlow n 0 []).setFlow n 1 []
    let off := fun (x : SubPort) => { x with st := .disabled, lanes := 0, pausing := 0, paused := 0, overTot := false, overPrio := 0 }
    (((setSubs (8 + n) off (List.range 4) (setSubs n off (List.range 4) s2)).faultsSince s n).updPair n
      (fun p => { p with enabled := false })).assignRender
  else s

def disablePairs : List Nat → State → State
  | [], s => s
  | n :: t, s => disablePairs t (s.disablePair n)

/-- Empties the SA table and releases its epoch references (R523). -/
def emptySas : Tbl Sa → State → State
  | [], s => { s with rdr := { s.rdr with sas := Tbl.map {} (fun _ (a : Sa) => a.blank) s.rdr.sas } }
  | (_, a) :: t, s =>
    let s1 := if a.ep0.st = .empty then s else s.epochUnref a.ep0.slot
    emptySas t (if a.ep1.st = .empty then s1 else s1.epochUnref a.ep1.slot)

end Sys2Proof.Machine
end

