-- ==== Sys2Proof/Machine/Retire.lean ====
section
/-!
DEFINITION. Units leaving service: Plumb's unit numbers (R603), retirement and takeover by a spare (R24, R25, R193, R616),
and the rerun and reset of a unit after a transient fault (R521).
-/
namespace Sys2Proof.Machine

/-! ## Unit numbers (R603) -/

/-- Kind code and index of a unit number. -/
def unitKind (u : Nat) : Nat × Nat :=
  if u < 36 then (1, u) else if u < 72 then (2, u - 36) else if u < 81 then (3, u - 72)
  else if u < 97 then (4, u - 81) else (5, u - 97)

/-- The unit number of a kind code and an index; none out of range. -/
def unitOf (kind idx : Nat) : Option Nat :=
  match kind with
  | 1 => if idx < 36 then some idx else none
  | 2 => if idx < 36 then some (36 + idx) else none
  | 3 => if idx < 9 then some (72 + idx) else none
  | 4 => if idx < 16 then some (81 + idx) else none
  | 5 => if idx < 54 then some (97 + idx) else none
  | _ => none

/-- The engine kind and index of a unit, where jobs run on it. -/
def unitEngine (u : Nat) : Option (EKind × Nat) :=
  if u < 36 then some (.render, u) else if u < 72 then some (.lath, u - 36) else if u < 81 then some (.hawk, u - 72)
  else if u < 89 then some (.keccak, u - 81) else if u < 97 then some (.sha2, u - 89) else none

/-- The Sponge core index of a unit (pool 0-15, Quad Keccak 16-33, Quad SHA-2 34-69). -/
def unitCore (u : Nat) : Option Nat :=
  if 81 ≤ u ∧ u < 151 then some (u - 81) else none

def USt.code : USt → Nat
  | .spare => 0
  | .inService => 1
  | .draining => 2
  | .test => 3
  | .retired => 4

/-- Spares left of the kind of a unit. -/
def sparesOf (s : State) (u : Nat) : List Nat :=
  (List.range 151).filter (fun v => (unitKind v).1 == (unitKind u).1 && (s.unit v).st == .spare)

/-- The spare that takes over from unit `u`: the lowest-numbered one (log entry 23). Pool and Quad cores have none. -/
def State.spareFor (s : State) (u : Nat) : Option Nat := (sparesOf s u).head?

/-! ## Records -/

/-- The device-log DETAIL of R616. -/
def unitDetail (u action reason vector : Nat) : Nat := u + 256 * action + 4096 * reason + 65536 * vector

/-- The current margin plan: the copy written last, where one verifies (R617). -/
def Mram.curPlan (m : Mram) : Plan := if m.plan.valid then m.plan else m.planOld

/-- Writes a plan with the next SEQ into the cell that does not hold the current one (R617). -/
def Mram.putPlan (m : Mram) (p : Plan) : Mram :=
  { m with planOld := m.curPlan, plan := { p with valid := true, seq := m.curPlan.seq + 1 } }

/-- Writes a change of a unit's entry into the margin plan in MRAM (R617), over Seam (R17). A change that cannot be written
stands in the unit's own entry until the next plan write. -/
def State.planUnit (s : State) (u : Nat) (g : PlanUnit → PlanUnit) : State :=
  let s1 := s.updUnit u (fun x => { x with entry := g x.entry })
  if s.seamDown then s1
  else
    let p := s.mram.curPlan
    { s1 with mram := s1.mram.putPlan { p with units := Tbl.upd {} p.units u g } }

/-! ## Setting a unit's place in its own registers -/

/-- Gives the engine or core of a unit the state that its unit state calls for. -/
def State.showUnit (s : State) (u : Nat) (st : USt) : State :=
  match unitEngine u with
  | some (.render, n) =>
    s.updRnd n (fun r => { r with st := match st with
      | .spare => .spare | .inService => .lookaside | .draining => .draining | .test => .test | .retired => .retired })
  | some (.lath, n) =>
    s.updLath n (fun e => { e with
      st := (match st with
        | .spare => .spare | .inService => .idle | .draining => .draining | .test => .test | .retired => .retired)
      running := e.running && e.routine.isNone, routine := none })
  | some (.hawk, n) =>
    s.updHawk n (fun e => { e with st := match st with
      | .spare => 0 | .inService => 1 | .draining => 3 | .test => 6 | .retired => 4 })
  | _ =>
    match unitCore u with
    | some c => s.updCore c (fun e => { e with st := match st with
        | .retired => 3 | .test => 4 | _ => 0 })
    | none => s

/-- Puts a unit into a state, in Plumb and in its own register. -/
def State.setUnit (s : State) (u : Nat) (st : USt) : State :=
  (s.updUnit u (fun x => { x with st := st })).showUnit u st

/-- The Putty redirection of R215. -/
def Lath.redirect (e : Lath) (a : UAddr) : UAddr :=
  if a.patch then a
  else
    match (List.range 64).filterMap (fun i =>
        match Tbl.get none e.matches_ i with
        | some (r, p) => if r = a.addr then some p else none
        | none => none) with
    | p :: _ => { patch := true, addr := p.setWidth 14 }
    | [] => a

/-- A Horrov routine begins on Lath engine `n` (R216): a known-answer test, or a measurement. -/
def State.beginRoutine (s : State) (n : Nat) (measure : Bool) : State :=
  let k : Byte := 128 + (Config.lathRoutine measure).setWidth 8
  s.updLath n (fun e => { e with
    routine := some k, running := true, jobOpcode := k, jobLevel := 0, tStart := s.clk, gap := 0
    pc := e.redirect { addr := k.setWidth 14 } })

/-! ## Jobs that lose their engine -/

/-- The end of a job whose class is left without an engine of its kind (R25). One that has not started, and a hybrid job
that waits for its Lath part, completes with ST_NO_ENGINE and writes nothing. One that was to run again, or a pool job that
has yielded, ends as one that its retirement aborts (R106; DEDUCED, log entry 104). -/
def State.endNoEngine (s : State) (j : Job) : State :=
  if s.hasEngine j.cls j.kind then s
  else if j.st = .waiting ∧ (j.started = false ∨ j.part = 1) then
    (s.updJob j.id (fun x => { x with started := false })).failJob j.id stNoEngine j.kind.code
  else if j.st = .waiting ∨ (j.st = .suspended ∧ j.kind ≠ .lath) then s.failJob j.id stAborted 1
  else s

def failNoEngine : List Job → State → State
  | [], s => s
  | j :: t, s => failNoEngine t (s.endNoEngine j)

def State.checkClasses (s : State) : State := failNoEngine s.que.jobs s

/-- The job on the engine of a unit ends with ST_ABORTED, DETAIL 1 (R106, R528). -/
def State.killOn (s : State) (u : Nat) : State :=
  match unitEngine u with
  | none => s
  | some (k, n) =>
    match s.jobOn k n with
    | some j => s.failJob j.id stAborted 1
    | none => s

/-! ## Retirement -/

/-- Completes the waiting `eng.kat` commands of a unit and removes its test entry (R614). -/
def answerWaiters (status : W16) (detail : Nat) : List (Nat × W32) → State → State
  | [], s => s
  | (n, seq) :: t, s =>
    answerWaiters status detail t
      (s.answerPf n { status := status, gen := (s.fn 0).gen, seq := seq, detail := BitVec.ofNat 32 detail })

def State.dropTest (s : State) (u : Nat) (status : W16) (detail : Nat) : State :=
  let mine := s.plb.testq.filter (fun t => t.unit == u)
  let left : Bool := mine.any (fun t => t.active && t.purpose != .derate && t.purpose != .putty)
  let s1 := { s with plb := { s.plb with
    testq := s.plb.testq.filter (fun t => t.unit != u)
    lastUnit := if left then u else s.plb.lastUnit
    lastResult := if left then 3 else s.plb.lastResult
    lastVector := if left then 0 else s.plb.lastVector
    running := if s.plb.running = u then 0xFF else s.plb.running
    toDerate := s.plb.toDerate.filter (fun v => v != u) } }
  answerWaiters status detail (mine.flatMap (fun t => t.waiters)) s1

/-- A spare takes the place of the unit it replaces in every class (R100). -/
def swapMask (u v : Nat) (c : Cls) : Cls :=
  match c.masks, unitEngine u, unitEngine v with
  | some ms, some (k, n), some (_, m) =>
    { c with masks := some (ms.mapIdx (fun i w =>
        if i = k.maskPos then (if w.getLsbD n then setBit (clrBit w n) m else clrBit w m) else w)) }
  | _, _, _ => c

def State.swapClasses (s : State) (u v : Nat) : State :=
  { s with que := { s.que with classes := Tbl.map {} (fun _ c => swapMask u v c) s.que.classes } }

/-- Spare `v` enters service in place of unit `u`. -/
def State.bringIn (s : State) (u v : Nat) : State :=
  ((s.setUnit v .inService).planUnit v (fun p => { p with st := 1 })).swapClasses u v

/-- A spare enters service in place of unit `u`. A retired inline Render engine's assignment waits for RENDER_TAKEOVER
(R193), where one is left to take it; otherwise R187 runs again. -/
def State.replaceUnit (s : State) (u : Nat) : State :=
  let r := s.rnd u
  if u < 36 then
    let had := r.st == .inline || (r.st == .test && r.kept)
    match (s.unit u).cover with
    | some v => ((s.updUnit u (fun x => { x with cover := none })).planUnit v (fun p => { p with st := 1 })).swapClasses u v
    | none =>
    match s.spareFor u with
    | some v =>
      if had then { s with rdr := { s.rdr with takeover := s.rdr.takeover ++ [(u, r.pair, r.dir)] } }
      else s.bringIn u v
    | none => s
  else
    match s.spareFor u with
    | some v => s.bringIn u v
    | none => s

/-- With the last engine of a Lath Quad its suspended job ends (R236). -/
def State.dropSaved (s : State) (u : Nat) : State :=
  let q := (u - 36) / 4
  if 36 ≤ u ∧ u < 72 ∧ (List.range 4).all (fun p => (s.unit (36 + 4 * q + p)).st == .retired) = true then
    match (s.quad q).save with
    | some sv => s.failJob sv.job stAborted 1
    | none => s
  else s

/-- Retires a unit (R24, R25, R616). `reason`: 1 MARGIN, 2 SCRIM, 3 COMMAND. A wiping engine shows its retirement when
its wipe has ended. -/
def State.retireUnit (s : State) (u reason : Nat) : State :=
  if (s.unit u).st = .retired then s
  else
    let wasSpare : Bool := (s.unit u).st == .spare
    let had : Bool := decide (u < 36) && ((s.rnd u).st == .inline || ((s.rnd u).st == .test && (s.rnd u).kept))
    let s1 := (s.killOn u).dropTest u stNoEngine (unitKind u).1
    let s2 := if u < 36 then s1.loseFrames u false else s1
    let s3 := if wasSpare then s2 else s2.replaceUnit u
    let wiping : Bool := (decide (36 ≤ u ∧ u < 72) && (s3.lath (u - 36)).st == .wiping) ||
      (decide (72 ≤ u ∧ u < 81) && (s3.hawk (u - 72)).st == 5)
    let s4 := if wiping then s3.updUnit u (fun x => { x with st := .retired }) else s3.setUnit u .retired
    let s5 := s4.planUnit u (fun p => { p with st := 2, reason := reason, tRetire := (s.bkp.rtc >>> 15).setWidth 32 })
    let s6 := (s5.devLogOther (BitVec.ofNat 16 u) (unitDetail u 2 reason 0)).devStatus
    let s7 := if had && !(s6.rdr.takeover.any (fun t => t.1 == u)) then s6.assignRender else s6
    (s7.dropSaved u).checkClasses.assign

def retireUnits (reason : Nat) : List Nat → State → State
  | [], s => s
  | u :: t, s => retireUnits reason t (s.retireUnit u reason)

/-- The Lath engines of Quad `q`. -/
def quadUnits (q : Nat) : List Nat := [36 + 4 * q, 37 + 4 * q, 38 + 4 * q, 39 + 4 * q]

/-- The Quad Sponge core of index `i` (0-53) and the cores of its Quad and type (R20, R528). -/
def quadOfCore (i : Nat) : Nat := if i < 18 then i / 2 else (i - 18) / 4

def sameCores (i : Nat) : List Nat :=
  if i < 18 then [2 * (i / 2), 2 * (i / 2) + 1]
  else (List.range 4).map (fun k => 18 + 4 * ((i - 18) / 4) + k)

/-- Retires a Quad Sponge core; with the last Keccak or SHA-2 core of its Quad, the four engines too (R528). -/
def State.retireQuadCore (s : State) (i reason : Nat) : State :=
  let s1 := s.retireUnit (97 + i) reason
  if (sameCores i).all (fun k => (s1.unit (97 + k)).st == .retired) then retireUnits reason (quadUnits (quadOfCore i)) s1
  else s1

/-- The RETIRE of a unit of the cause map (R520, R528). -/
def State.retireFor (s : State) (w : UnitId) (reason : Nat) : State :=
  match w.group with
  | 8 => s.retireUnit w.unit reason
  | 10 => s.retireUnit (36 + w.unit) reason
  | 11 => retireUnits reason (quadUnits w.unit) s
  | 12 => s.retireUnit (72 + w.unit) reason
  | 13 => if w.unit < 54 then s.retireQuadCore w.unit reason else s.retireUnit (27 + w.unit) reason
  | _ => s

/-! ## RETRY (R521) -/

/-- The Plumb unit that a RETRY resets and tests. -/
def retryUnit (w : UnitId) : Option Nat :=
  match w.group with
  | 8 => some w.unit
  | 10 => some (36 + w.unit)
  | 12 => some (72 + w.unit)
  | 13 => if w.unit < 54 then some (97 + w.unit) else some (27 + w.unit)
  | _ => none

/-- The job starts over: a two-part job from its Hawk part, its transient slot released (R106, R309). -/
def Job.rerun (j : Job) : Job :=
  { j with st := .waiting, retried := true, faults := j.faults + 1, part := 0, transient := none, res := {}, waitOn := none,
           kind := if j.part = 0 then j.kind else .hawk,
           grant := if j.part = 0 then j.grant else if j.level = 2 then 5 else 4 }

/-- A job is discarded and rerun from its start on another engine; a second fault ends it with ST_ABORTED, DETAIL 2, and one
that is being aborted already ends so. -/
def State.rerunOn (s : State) (u : Nat) : State :=
  match unitEngine u with
  | none => s
  | some (k, n) =>
    match s.jobOn k n with
    | none => s
    | some j =>
      match j.abort with
      | some (st, det) => s.failJob j.id st det.toNat
      | none =>
        if 1 ≤ j.faults then s.failJob j.id stAborted 2
        else
          let s1 := (s.updJob j.id Job.rerun).leaveEngine j
          match j.transient with
          | some t => s1.releaseRun t
          | none => s1

/-! ## Tenures of a Quad's resources (R237, R238, R244) -/

/-- A count that saturates at 64 bits. -/
def satAdd64 (x : W64) (n : Nat) : W64 := BitVec.ofNat 64 (min 18446744073709551615 (x.toNat + n))

/-- Requester `r` of Quad `q` uses `m` tenures of resource `k`: those that ARB_ROUND granted it ahead, and the rest in rounds
in which no other requester is ready (DESIGN CHOICE, log entry 112). -/
def State.tenures (s : State) (q r k m : Nat) : State :=
  if m = 0 then s
  else
    s.updQuad q (fun x =>
      let a := Tbl.get {} x.res k
      let c := min m (Tbl.get 0 a.won r)
      let a1 := { a with won := Tbl.set 0 a.won r (Tbl.get 0 a.won r - c) }
      if c = m then { x with res := Tbl.set {} x.res k a1 }
      else
        { x with
          res := Tbl.set {} x.res k
            { a1 with cur := some r, last := r, waits := Tbl.set 0 a1.waits r 0, waitCyc := Tbl.set 0 a1.waitCyc r 0 }
          stats := Tbl.upd {} x.stats r (fun (y : ArbStat) => { y with grants := satAdd64 y.grants (m - c) }) })

/-- The banks of Quad memory that beats lie in: `m` tenures of the rank of each. -/
def bankTenures (q r : Nat) (bs : List Nat) : List Nat → State → State
  | [], s => s
  | b :: t, s => bankTenures q r bs t (s.tenures q r (8 + b) (bs.filter (fun x => x / 8192 == b)).length)

/-- Tenures for a list of beats. -/
def State.beatTenures (s : State) (q r : Nat) (bs : List Nat) : State := bankTenures q r bs (List.range 8) s

/-- Removes the dirty words of a byte table: `unit` bytes to a word. -/
def wipeDirty (t : Tbl Byte) (d : Tbl Bool) (unit : Nat) : Tbl Byte := t.filter (fun c => !Tbl.get false d (c.1 / unit))

/-- Steps 1-5 of the wipe of Lath engine `n` (R233): its claims in the arbiter and the Sponge cores, its registers, its
dirty scratch words and the dirty beats of window 0. What outlives a job stays: the frequency step, the patch set, the
causes and the largest gap. -/
def State.wipeLath (s : State) (n : Nat) : State :=
  let e := s.lath n
  let p := n % 4
  let s0 := s.beatTenures (n / 4) p ((e.qdirty.filter (fun c => c.2)).map Prod.fst)
  let s1 := s0.updQuad (n / 4) (fun q => { q with
    mem := wipeDirty q.mem e.qdirty 64
    cores := q.cores.filter (fun c => c.1 % 4 ≠ p)
    res := Tbl.map {} (fun _ (r : ArbRes) =>
      { r with locked := if r.locked = some p then none else r.locked, cur := if r.cur = some p then none else r.cur,
               won := Tbl.erase r.won p }) q.res })
  s1.updLath n (fun x =>
    { st := x.st, fstep := x.fstep, matches_ := x.matches_, patchRam := x.patchRam, puttyVer := x.puttyVer,
      cause := x.cause, inPatch := x.inPatch, eccCorr := x.eccCorr, maxGap := x.maxGap,
      scratch := wipeDirty x.scratch x.dirty 64 })

/-- Resets Lath engine `n`: what its job left is wiped (R229), its ENGINE registers return to reset and its grant
returns. -/
def State.resetLath (s : State) (n : Nat) : State :=
  ((s.wipeLath n).updLath n (fun e =>
    { st := e.st, fstep := e.fstep, matches_ := e.matches_, patchRam := e.patchRam, puttyVer := e.puttyVer,
      scratch := e.scratch })).releaseGrant .lath n |>.showUnit (36 + n) (s.unit (36 + n)).st

/-- The reset and test of a unit after a transient fault: its place stays assigned, and Horrov queues its own
known-answer test (R521, R612). -/
def State.resetForTest (s : State) (u : Nat) : State :=
  let kept := decide (u < 36) && ((s.rnd u).st == .inline || (s.rnd u).kept)
  let back : USt := match (s.unit u).st with
    | .spare => .spare
    | .inService => .inService
    | _ => (s.unit u).back
  let s1 := (s.setUnit u .test).updUnit u (fun x => { x with back := back })
  let s2 := if u < 36 then s1.updRnd u (fun r => { r with kept := kept }) else s1
  let s3 := match unitEngine u, unitCore u with
    | some (.lath, n), _ => (s2.resetLath n).beginRoutine n false
    | some (.hawk, n), _ => s2.updHawk n (fun e => { st := 6, fstep := e.fstep })
    | _, some c => s2.updCore c (fun e => { st := 4, fstep := e.fstep })
    | _, none => s2
  let s4 := match unitEngine u with
    | some (k, n) => s3.releaseGrant k n
    | none => s3
  if s4.plb.testq.any (fun t => t.unit == u && t.own) then s4
  else { s4 with plb := { s4.plb with testq := s4.plb.testq ++ [{ unit := u, own := true, active := true }] } }

/-- The RETRY of a unit. A permanent fault (`perm`) reruns nothing: its job ends with DETAIL 1 (R528). -/
def State.retryFor (s : State) (w : UnitId) : State :=
  match retryUnit w with
  | none => s
  | some u =>
    let s1 := if u < 36 then s.loseFrames u true else s
    let s2 := ((s1.rerunOn u).resetForTest u).assign
    if u < 36 then s2.dispatchAll.flowAll else s2

end Sys2Proof.Machine
end

