-- ==== Sys2Proof/Machine/Scrim.lean ====
section
/-!
DEFINITION. Scrim (R514-R544): the cause map, ranks, records, the event queue, the device-level actions, and the report
of one occurrence of a cause.
-/
namespace Sys2Proof.Machine

/-! ## The cause map (R543, R544) -/

/-- Causes of a group that the map lists, by bit. -/
def causeBits : Nat → List Nat
  | 0 => [0, 1, 2, 3, 4, 5, 6, 7, 8]
  | 1 => [0, 1, 2, 3, 4, 5, 6]
  | 2 => [0, 1, 2, 3, 4, 5, 6]
  | 3 => [0, 1, 2]
  | 4 => [0, 1, 2, 3, 4, 5, 6, 7]
  | 5 => [0, 1, 2, 3, 4, 5, 6, 7, 8, 9, 10, 11, 12, 13, 14, 15, 16, 17, 18]
  | 6 => [0, 1, 2, 3, 4]
  | 7 => [0, 1]
  | 8 => [0, 1, 2, 3]
  | 9 => [0, 1, 2, 3]
  | 10 => [0, 1, 2, 3, 4, 5, 6, 7, 8, 9, 10, 11, 12, 13, 14]
  | 11 => [0, 1, 2]
  | 12 => [0, 1, 2, 3, 4, 5]
  | 13 => [0, 1]
  | 14 => [0, 1, 2]
  | 15 => [0, 1, 2, 3]
  | 16 => [0, 1, 2, 3, 4, 5, 6]
  | 17 => [0, 1]
  | 18 => [0, 1]
  | 19 => [0, 1]
  | 20 => [0, 1, 2]
  | 21 => [0, 1, 2]
  | _ => []

/-- The cause exists (R544). -/
def causeKnown (c : Nat) : Bool :=
  decide (c < 768) && ((causeBits (c / 32)).contains (c % 32) || (decide (c / 32 ≤ 21) && c % 32 == 31))

/-- The default rank of a cause (R544); a tamper cause takes its rank from its response. -/
def defaultRank (c : Nat) : Nat :=
  if c ∈ [0, 1, 516] then 7
  else if c ∈ [67, 224] then 5
  else if c ∈ [3, 4, 5, 64, 65, 66, 68, 69, 98, 131, 291, 513, 544, 577] then 4
  else if c ∈ [96, 97, 135] ∨ (256 ≤ c ∧ c ≤ 259) ∨ (320 ≤ c ∧ c ≤ 334) ∨ (352 ≤ c ∧ c ≤ 354) ∨
      (384 ≤ c ∧ c ≤ 389) ∨ c = 416 ∨ c = 417 then 2
  else if c ∈ [8, 70, 129, 130, 132, 133, 134, 193, 194, 195, 225, 481, 512, 514, 515, 518, 576, 608, 609, 640,
      642, 672, 674] then 1
  else 0

/-- The floor of a cause (R544): the default, but for the two whose floor is LOG. -/
def floorRank (c : Nat) : Nat := if c = 518 ∨ c = 642 then 0 else defaultRank c

/-- `scr.config` cannot change the rank. -/
def rankFixed (c : Nat) : Bool :=
  c % 32 == 31 || decide (c / 32 = 5) ||
    [0, 1, 3, 4, 5, 6, 7, 64, 65, 66, 67, 68, 69, 98, 131, 224, 516, 544].contains c

/-- Start-bound causes, marked S (R525). -/
def isStartBound (c : Nat) : Bool := [3, 4, 98, 131, 544].contains c

/-- Groups whose units have spares (R543). -/
def groupSpares (g : Nat) : Bool := [8, 10, 11, 12].contains g

/-- The window of a group in CLK_SLOW ticks (R526); none where the group has none. -/
def groupWindow (g : Nat) : Option Nat :=
  if g = 3 then some (msTicks 1)
  else if g = 4 then some (secTicks 86400)
  else if g ∈ [8, 10, 11, 12, 13] then some (secTicks 3600)
  else none

/-- The rank of a WIRE cause of a group (R515). -/
def wireRank (g : Nat) : Nat := if g = 0 then 7 else if groupSpares g then 3 else 4

/-- The rank configured for a cause now (R498, R541): WIRE, tamper, expert changes, the profile VERBOSE, the default. -/
def State.rankOf (s : State) (c : Nat) : Nat :=
  if c % 32 = 31 then wireRank (c / 32)
  else if c / 32 = 5 then (s.bkp.response.getD (c % 32) 0).toNat % 8
  else
    match Tbl.get none s.scr.ranks c with
    | some r => r
    | none =>
      if s.scr.profile = 2 ∧ defaultRank c = 0 ∧ c / 32 ≠ 1 ∧ rankFixed c = false then 1 else defaultRank c

/-! ## The event queue (R536-R539) -/

/-- EVQ_CTRL.LEVEL as it acts: 0 acts as 1. -/
def State.evqLevel (s : State) : Nat := if s.scr.evqLevel = 0 then 1 else s.scr.evqLevel

/-- A record that enters now is the first behind discarded ones (R539). -/
def State.evqLost (s : State) : Bool := s.scr.lostMark && decide (s.scr.evq.length < 256)

/-- A record enters the event queue, or is discarded at a fill of 256. -/
def State.evqPush (s : State) (e : EvRec) : State :=
  if 256 ≤ s.scr.evq.length then
    ({ s with scr := { s.scr with overrun := true, lost := satInc s.scr.lost, lostMark := true } }).latchCause 6
  else
    let s1 := { s with scr := { s.scr with
      evq := s.scr.evq ++ [{ e with lost := s.scr.lostMark }], lostMark := false } }
    if s.scr.evqIrqEn ∧ s1.scr.evq.length = s.evqLevel then s1.msix 0 65 else s1

/-- The device-log record of an event-queue record (R540). -/
def EvRec.log (e : EvRec) (erase : Bool) (detail : Nat) : LogRec :=
  { cause := BitVec.ofNat 16 e.rc.cause, unit := if e.rc.dev then 0xFFFF else BitVec.ofNat 16 e.rc.who.unit,
    rank := BitVec.ofNat 8 e.rc.rank, rtype := BitVec.ofNat 8 e.rtype,
    flags := BitVec.ofNat 8 ((if e.rc.perm then 1 else 0) + (if e.auto then 2 else 0) + (if erase then 4 else 0) +
      (if e.lost then 8 else 0)),
    merges := BitVec.ofNat 8 e.rc.merges, causes := e.rc.causes, detail := BitVec.ofNat 32 detail }

/-- An unread OPEN (or WIRE) record follows its open record in place (R536). -/
def State.evqUpdate (s : State) (r : Rec) : State :=
  { s with scr := { s.scr with evq := s.scr.evq.map (fun e =>
      if e.rc.rid = r.rid ∧ e.rtype ≠ 1 then { e with rc := r } else e) } }

/-- Enters the OPEN or WIRE record of `r` and its device-log record. -/
def State.openEv (s : State) (r : Rec) (erase : Bool) (detail : Nat) : State :=
  let e : EvRec := { rtype := if r.wire.isSome then 2 else 0, rc := r, lost := s.evqLost }
  (s.evqPush e).devLog (e.log erase detail)

/-- Enters the CLOSE record of `r`: in place of its unread OPEN record where there is one (R536). -/
def State.closeEv (s : State) (r : Rec) (auto : Bool) : State :=
  match s.scr.evq.find? (fun x => x.rc.rid == r.rid && x.rtype != 1) with
  | some x =>
    let e : EvRec := { rtype := 1, auto := auto, rc := r, lost := x.lost }
    ({ s with scr := { s.scr with evq := s.scr.evq.map (fun y =>
        if y.rc.rid = r.rid ∧ y.rtype ≠ 1 then e else y) } } : State).devLog (e.log false 0)
  | none =>
    let e : EvRec := { rtype := 1, auto := auto, rc := r, lost := s.evqLost }
    (s.evqPush e).devLog (e.log false 0)

/-! ## Device-level actions (R522, R523) -/

/-- Every running job is to be aborted at its next safe point, DETAIL 2. -/
def abortRunning : List Job → State → State
  | [], s => s
  | j :: t, s =>
    abortRunning t (if j.st = .running ∨ j.st = .paused ∨ j.st = .suspended then s.abortJob j.id 2 else s)

/-- Every dispatched job ends with ST_ABORTED, DETAIL 2 (R523). -/
def abortAll : List Job → State → State
  | [], s => s
  | j :: t, s => abortAll t (if j.st = .ended then s else s.failJob j.id stAborted 2)

/-- QUIESCE (R522): pairs are held, running jobs are aborted, FAULT_N is low while the state holds. -/
def State.doQuiesce (s : State) : State := (abortRunning s.que.jobs s).flowAll

/-- Closes the open debug scope (R487). -/
def State.closeDebug (s : State) : State :=
  { s with lcy := { s.lcy with scope := 0, notAfter := 0 }, jtag := { s.jtag with dbg := none } }

/-- Rolls the open transaction back without an answer (R136). -/
def State.dropTxn (s : State) : State := { s with mbx := { s.mbx with txn := none, pend := none } }

/-- The tree state of an LMS/HSS key leaves the Quad memory; its index and limit stay (R332, R351, R523). -/
def Hss.dropTree (h : Hss) : Hss := { h with home := none, rebuilding := false, built := [], waitFrom := none }

/-- ZEROIZE_SESSION (R523). -/
def State.doSession (s : State) : State :=
  let s1 := abortAll s.que.jobs (disablePairs (List.range 8) s)
  let s2 := emptySas s1.rdr.sas s1
  let s3 := s2.wipeWhere (fun k b => !b.persist && b.origin != .system && !isSystemSlot k && b.st != .free)
  let s4 := { s3 with
    spg := { s3.spg with ctxs := [], saved := [] }
    lth := { s3.lth with cache := [], hss := Tbl.map {} (fun _ h => h.dropTree) s3.lth.hss } }
  s4.dropTxn.closeDebug

/-- ZEROIZE_ALL (R523): every persistent and system slot too. -/
def State.doAll (s : State) : State :=
  let s1 := s.wipeWhere (fun _ _ => true)
  { s1 with scr := { s1.scr with terminal := true } }

/-- Abandons every QUEUED or RUNNING mailbox command: its slot returns to FREE without a response (R122, R523). -/
def State.abandonMail (s : State) : State :=
  { s with
    que := { s.que with jobs := s.que.jobs.map (fun j => { j with mbx := none }) }
    commits := s.commits.map (fun c => { c with mbx := none })
    lth := { s.lth with loadWait := none }
    plb := { s.plb with waitMargin := none, testq := s.plb.testq.map (fun t => { t with waiters := [] }) }
    mbx := { s.mbx with
      slots := Tbl.map {} (fun _ m => if m.st = .queued ∨ m.st = .running then { m with st := .free } else m) s.mbx.slots
      vfs := Tbl.map {} (fun _ v => if v.slot.st = .queued ∨ v.slot.st = .running then { v with slot := { v.slot with st := .free } } else v) s.mbx.vfs
      order := [], running := 0, waitEnable := [], waitRecal := [], pend := none } }

/-- HALT (R523): Horrov stops. A running SMBus request receives ST_NOT_READY with STATE 2 (R144). -/
def State.doHalt (s : State) : State :=
  let s1 := s.abandonMail
  { s1 with
    mbx := { s1.mbx with
      ready := false
      smbStatus := if s1.mbx.smbState = 1 then stNotReady else s1.mbx.smbStatus
      smbState := if s1.mbx.smbState = 1 then 2 else s1.mbx.smbState }
    scr := { s1.scr with terminal := true, halted := true } }

/-- The device-level actions of a rise from rank `a` to rank `b`. -/
def State.rise (s : State) (a b : Nat) : State :=
  let s1 := if a < 4 ∧ 4 ≤ b then s.doQuiesce else s
  let s2 := if a < 5 ∧ 5 ≤ b then s1.doSession else s1
  let s3 := if a < 6 ∧ 6 ≤ b then s2.doAll else s2
  if a < 7 ∧ 7 ≤ b then s3.doHalt else s3

/-- What resumes when the device leaves a held state: forwarding and dispatch (R522). -/
def State.resume (s : State) : State := if s.held then s else s.dispatchAll.flowAll.assign

/-! ## Closing a record -/

def State.closeRec (s : State) (r : Rec) (auto : Bool) : State :=
  let s1 := { s with scr := { s.scr with recs := s.scr.recs.filter (fun x => x.rid ≠ r.rid)
                                         devRec := if r.dev then none else s.scr.devRec } }
  let s2 := s1.closeEv r auto
  if 4 ≤ r.rank then s2.resume else s2

/-! ## One occurrence of a cause -/

/-- An occurrence: the cause and its unit, the rank it acts at, and what its records say. `counted` is false where
R527 keeps it from counting toward permanence. -/
structure Occ where
  cause : Nat := 0
  unit : Nat := 0
  rank : Nat := 0
  wire : Option Nat := none
  counted : Bool := true
  erase : Bool := false
  detail : Nat := 0
deriving DecidableEq, Repr

def Occ.who (o : Occ) : UnitId := { group := o.cause / 32, unit := o.unit }

/-- Merges an occurrence into an open record (R518); the device record belongs to group 0 (R543). -/
def Rec.merge (r : Rec) (o : Occ) (now : W64) (rank : Nat) : Rec :=
  { r with
    causes := if r.who.group = o.cause / 32 then setBit r.causes (o.cause % 32) else r.causes
    merges := min 255 (r.merges + 1)
    rank := max r.rank rank
    startBound := r.startBound || isStartBound o.cause || (o.wire.isSome && rank == 4)
    nums := if r.nums.contains o.cause then r.nums else r.nums ++ [o.cause]
    last := now }

/-- Occurrences of a unit within its group's window. -/
def State.recentOcc (s : State) (w : UnitId) : Nat :=
  match groupWindow w.group with
  | none => 0
  | some win => (s.scr.occ.filter (fun p => p.1 = w ∧ s.clk.toNat < p.2.toNat + win)).length

/-- Counts an occurrence, keeping at most the last 8 of each unit. -/
def State.countOcc (s : State) (w : UnitId) : State :=
  let mine := s.scr.occ.filter (fun p => p.1 = w)
  let rest := s.scr.occ.filter (fun p => p.1 ≠ w)
  { s with scr := { s.scr with occ := rest ++ (mine ++ [(w, s.clk)]).drop (mine.length + 1 - 8) } }

/-- The escalation rank of a group (R543): SEAM_PERSIST and CUSTODY hold the device, the others retire. -/
def escalation (g : Nat) : Nat := if g = 3 ∨ g = 4 then 4 else 3

/-- The unit-level action of an occurrence: RETRY resets and reruns, RETIRE retires (R520, R524). -/
def State.unitAction (s : State) (o : Occ) (rank : Nat) : State :=
  if rank = 2 then s.retryFor o.who
  else if rank = 3 then s.retireFor o.who 2
  else s

/-- A RETIRE record closes when the takeover has ended, a RETRY record of a unit that is not reset at once (R520, R521). -/
def State.closeIfDone (s : State) (rid : Nat) : State :=
  match s.scr.recs.find? (fun r => r.rid == rid) with
  | none => s
  | some r =>
    if r.rank = 3 then
      if r.who.group = 8 ∧ s.rdr.takeover.any (fun t => t.1 == r.who.unit) = true then s else s.closeRec r false
    else if r.rank = 2 ∧ retryUnit r.who = none ∧ r.who.group ≠ 3 ∧ r.who.group ≠ 4 then s.closeRec r false
    else s

/-- The third occurrence within the window makes a fault permanent (R526). -/
def State.isPermanent (s : State) (o : Occ) : Bool :=
  o.rank == 2 && o.counted && (groupWindow (o.cause / 32)).isSome && decide (3 ≤ s.recentOcc o.who)

/-- Opens a record for an occurrence whose unit has none. Rank LOG leaves no record, rank INTERRUPT closes at once. -/
def State.openRec (s : State) (o : Occ) : State :=
  let s0 := if o.rank = 2 ∧ o.counted then s.countOcc o.who else s
  let perm := s0.isPermanent o
  let rank := if perm then escalation (o.cause / 32) else o.rank
  if rank = 0 then s0
  else
    let seam : Bool := perm && decide (o.cause / 32 = 3)
    let causes := setBit (0 : W32) (o.cause % 32)
    let r : Rec :=
      { rid := s0.scr.nextRid, who := o.who, cause := o.cause, causes := if seam then setBit causes 2 else causes,
        rank := rank, perm := perm, startBound := isStartBound o.cause || seam || (o.wire.isSome && rank == 4),
        wire := o.wire, nums := if seam then [o.cause, 98] else [o.cause], time := s0.clk, last := s0.clk }
    let top := s0.topRank
    let s1 := { s0 with scr := { s0.scr with nextRid := s0.scr.nextRid + 1 } }
    let s2 := if seam then s1.latchCause 98 else s1
    let s3 := (s2.openEv r o.erase o.detail)
    if rank = 1 then s3
    else
      let s4 := { s3 with scr := { s3.scr with recs := s3.scr.recs ++ [r] } }
      let s5 := if seam then { s4 with mram := { s4.mram with seamFail := some s4.bkp.rtc } } else s4
      ((s5.unitAction o rank).rise top (max top rank)).closeIfDone r.rid

/-- An occurrence merges into an open record (R518). The action of its unit is carried out (R524), but for a further RETRY of a
unit that is being repeated or retired already. -/
def State.mergeInto (s : State) (r : Rec) (o : Occ) : State :=
  let r' := r.merge o s.clk o.rank
  let top := s.topRank
  let s1 := { s with scr := { s.scr with
    recs := s.scr.recs.map (fun (x : Rec) => if x.rid = r.rid then r' else x)
    devRec := if r.dev then some r' else s.scr.devRec } }
  let s2 := s1.evqUpdate r'
  let s3 := if o.rank = 3 ∨ (o.rank = 2 ∧ (r.dev = true ∨ 4 ≤ r.rank)) then s2.unitAction o o.rank else s2
  let s4 := s3.rise top (max top o.rank)
  if o.rank = 3 then s4.closeIfDone r.rid else s4

/-- A cause that finds all 64 records open goes into the device record, and CTX_FULL latches (R518). A device record
below QUIESCE closes at once. -/
def State.toDevRec (s : State) (o : Occ) : State :=
  let s0 := s.latchCause 8
  match s0.scr.devRec with
  | some r => s0.mergeInto r o
  | none =>
    let r : Rec :=
      { rid := s0.scr.nextRid, dev := true, cause := o.cause, causes := if o.cause / 32 = 0 then setBit (0 : W32) o.cause else 0,
        rank := max 1 o.rank,
        startBound := isStartBound o.cause || (o.wire.isSome && o.rank == 4), wire := o.wire,
        nums := [o.cause, 8], time := s0.clk, last := s0.clk }
    let top := s0.topRank
    let s1 := { s0 with scr := { s0.scr with nextRid := s0.scr.nextRid + 1 } }
    let s2 := (s1.openEv r o.erase o.detail)
    let s3 := if 4 ≤ r.rank then { s2 with scr := { s2.scr with devRec := some r } } else s2
    (s3.unitAction o o.rank).rise top (max top o.rank)

/-- The engine's own cause register shows the fault: LTH_CAUSE (R230) or HWK_CAUSE. -/
def State.markEngine (s : State) (c unit : Nat) : State :=
  if c / 32 = 10 ∧ c % 32 ≤ 12 then
    s.updLath unit (fun e =>
      { e with cause := setBit e.cause (c % 32), inPatch := e.pc.patch && decide (2 ≤ c % 32) })
  else if c / 32 = 12 ∧ c % 32 ≤ 5 then s.updHawk unit (fun e => { e with cause := setBit e.cause (c % 32) })
  else s

/-- Scrim collects causes: from S11 of a start (R580), and in Undercoat, where the tamper monitors act under R495 (R599).
DEDUCED, log entry 80. -/
def State.scrimOn (s : State) : Bool := decide (11 ≤ s.boot.step) || s.mbx.undercoat

/-- The cause latches; a failure of Seam (98) enters the custody die's own log (R535). -/
def State.seamLog (s : State) (c : Nat) : State :=
  if c = 98 then ({ s with mram := { s.mram with seamFail := some s.bkp.rtc } } : State).latchCause c else s.latchCause c

/-- One occurrence (R517, R518): the cause latches whatever else happens. Before Scrim runs nothing collects it. -/
def State.occur (s : State) (o : Occ) : State :=
  if s.scrimOn && causeKnown o.cause then
    let s1 := (s.seamLog o.cause).markEngine o.cause o.unit
    match s1.scr.recs.find? (fun r => r.who == o.who && !r.dev) with
    | some r => s1.mergeInto r o
    | none => if s1.scr.recs.length < 64 then s1.openRec o else s1.toDevRec o
  else s

/-- A cause reported by its unit at its configured rank. A pair that is a broken wire reports through WIRE only. -/
def State.report (s : State) (c unit : Nat) : State := s.occur { cause := c, unit := unit, rank := s.rankOf c }

/-- A report that R527 keeps from counting toward permanence. -/
def State.reportUncounted (s : State) (c unit : Nat) : State :=
  s.occur { cause := c, unit := unit, rank := s.rankOf c, counted := false }

/-- A reporter that stays at error, or returns to normal. -/
def State.assertCause (s : State) (c unit : Nat) (level : Bool) : State :=
  let rest := s.scr.asserted.filter (fun p => p ≠ (c, unit))
  { s with scr := { s.scr with asserted := if level then rest ++ [(c, unit)] else rest } }

/-- Reports a condition that lasts. -/
def State.reportHeld (s : State) (c unit : Nat) : State := (s.assertCause c unit true).report c unit

/-- Closes the RETRY record of a unit whose test has passed (R520). -/
def State.closeRetry (s : State) (w : UnitId) : State :=
  match s.scr.recs.find? (fun r => r.who == w && r.rank == 2) with
  | some r => s.closeRec r false
  | none => s

end Sys2Proof.Machine
end

