-- ==== Sys2Proof/Machine/Arong.lean ====
section
/-!
DEFINITION. Arong (R116-R145): the packing of results, the checks that every command passes, Horrov's choice of the next
command, staging and transactions, and the effects of the stageable commands.
-/
namespace Sys2Proof.Machine

/-! ## Packing (R126) -/

/-- A result field: an integer of `w` bytes, or bytes. -/
inductive Fld where
  | u (w n : Nat)
  | b (l : List Byte)
deriving DecidableEq, Repr

/-- Packs fields from offset `off`: each integer starts at a multiple of its size, padding bytes are 0. -/
def packFrom : Nat → List Fld → List Byte
  | _, [] => []
  | off, .u w n :: t =>
    let pad := (w - off % w) % w
    List.replicate pad 0 ++ leBytes w n ++ packFrom (off + pad + w) t
  | off, .b l :: t => l ++ packFrom (off + l.length) t

def pack (l : List Fld) : List Byte := packFrom 0 l

/-! ## Issuers and Horrov's choice (R119, R121) -/

def Issuer.fn : Issuer → Nat
  | .pf _ => 0
  | .vf v => v
  | .smb => 0

/-- VF mailboxes that hold a QUEUED command, in cyclic order after the VF served last. -/
def State.queuedVfs (s : State) : List Nat :=
  let q := (s.mbx.vfs.filter (fun kv => kv.2.slot.st == .queued)).map (fun kv => kv.1)
  q.filter (fun v => decide (s.mbx.lastVf < v)) ++ q.filter (fun v => decide (v ≤ s.mbx.lastVf))

/-- The command that Horrov starts next: the admin mailbox takes every second turn (R121), and starts none while one
of its commands is running (R119). -/
def State.nextCmd (s : State) : Option Issuer :=
  let pf : Option Issuer := if s.mbx.running = 0 then s.mbx.order.head?.map Issuer.pf else none
  let vf : Option Issuer := if s.mbx.undercoat then none else s.queuedVfs.head?.map Issuer.vf
  if s.mbx.ready then
    if s.mbx.lastPf then vf <|> pf else pf <|> vf
  else none

/-- Horrov starts the command of issuer `i`: its slot becomes RUNNING. -/
def State.startCmd (s : State) : Issuer → State
  | .pf n =>
    let s1 := s.updMslot n (fun m => { m with st := .running })
    { s1 with mbx := { s1.mbx with order := s1.mbx.order.tail, running := n, lastPf := true } }
  | .vf v =>
    let s1 := s.updVmbx v (fun m => { m with slot := { m.slot with st := .running } })
    { s1 with mbx := { s1.mbx with lastPf := false, lastVf := v } }
  | .smb => if s.mbx.ready then { s with mbx := { s.mbx with lastPf := true } } else s

/-- The admin mailbox's turn has come: none of its commands runs, and no VF's command goes first (R119, R121). -/
def State.pfTurn (s : State) : Bool :=
  s.mbx.running == 0 && (!s.mbx.lastPf || s.mbx.undercoat || s.queuedVfs.isEmpty)

/-- The command can start now. An SMBus request takes the admin mailbox's turn (R145); where Horrov does not answer, Primer
answers it at once (R144). -/
def State.canStartCmd (s : State) : Issuer → Bool
  | .smb => !s.mbx.ready || s.pfTurn
  | i => s.nextCmd == some i

/-! ## The catalogue's marks (R137) -/

/-- What the catalogue says of a command: issuers, whether it may be staged, the packed sizes of its arguments at the
basic and the expert level, whether a buf argument is among them, and the restricted modes in which it is answered. -/
structure CmdInfo where
  vf : Bool := false
  smb : Bool := false
  t : Bool := false
  expertOnly : Bool := false
  len : Nat := 0
  lenX : Nat := 0
  buf : Bool := false
  bufX : Bool := false
  /-- answered in Undercoat, at ZEROIZE_ALL and before the reset after a transition (R139) -/
  basic : Bool := false
  /-- answered by Primer during a start (R144), and in SCRAP (R483) -/
  primer : Bool := false
  scrap : Bool := false
deriving DecidableEq, Repr

/-- How a command ends: with an error that changes nothing, with an error after effects, with results, or not yet. -/
inductive Ans where
  | err (e : Err)
  | bad (s : State) (e : Err)
  | ok (s : State) (res : List Byte)
  | wait (s : State)

/-- The checks of a mode that restricts the commands answered (R139, R144, R478, R483, R523). -/
def State.modeErr (s : State) (i : Issuer) (ci : CmdInfo) : Option Err :=
  let allow := match i with
    | .smb => ci.primer
    | _ => ci.basic
  if s.lcy.st = 5 ∧ ci.scrap = false then some (stLifecycle, 5)
  else if s.mbx.undercoat ∧ allow = false then some (stUndercoat, 0)
  else if i = .smb ∧ s.mbx.ready = false ∧ ci.primer = false then some (stUndercoat, 0)
  else if s.scr.terminal ∧ ci.basic = false then some (stNotPermitted, 0)
  else if s.lcy.resetDue ∧ ci.basic = false then some (stLifecycle, s.lcy.st)
  else none

/-- The checks before a command's own: LEVEL, issuer, the expert level, ARG_LEN, and Bus Master Enable where a buf is
named (R124, R126, R127, R137, R659). The order among them is log entry 24. -/
def State.frameErr (s : State) (h : Hdr) (ci : CmdInfo) : Option Err :=
  let x : Bool := h.level == 1
  let exp := if x then ci.lenX else ci.len
  let buf := if x then ci.bufX else ci.buf
  if h.iss = .smb ∧ ci.smb = false then some (stNotPermitted, 0)
  else if h.iss ≠ .smb ∧ 1 < h.level.toNat then some (stBadArg, 2)
  else if ci.expertOnly ∧ h.level = 0 then some (stBadArg, 2)
  else
    match h.iss with
    | .smb =>
      if h.argLen ≠ ci.len then some (stBadArg, ci.len) else none
    | .vf v =>
      if ci.vf = false then some (stNotPermitted, 0)
      else if x ∧ (s.fn v).perm.getLsbD 0 = false then some (stLevel, 0)
      else if h.argLen ≠ exp then some (stBadArg, exp)
      else if buf ∧ (s.fn v).bme = false then some (stDmaError, 4)
      else none
    | .pf _ =>
      if h.argLen ≠ exp then some (stBadArg, exp)
      else if buf ∧ (s.fn 0).bme = false then some (stDmaError, 4)
      else none

def State.respOf (s : State) (h : Hdr) (e : Err) : Resp :=
  { status := e.1, gen := (s.fn h.iss.fn).gen, seq := h.seq, detail := BitVec.ofNat 32 e.2 }

def State.okOf (s : State) (h : Hdr) (res : List Byte) : Resp :=
  { status := stOk, gen := (s.fn h.iss.fn).gen, seq := h.seq, results := res }

/-- A DMA access of the device fails (R74): its counter, FN_EVENT.PCIE_ERR and the Scrim cause. -/
def State.dmaFailed (s : State) (e : DmaErr) : State :=
  match e with
  | .timeout => (({ s with pcie := { s.pcie with cplTimeout := satInc s.pcie.cplTimeout } }).fnEvent 0).report 482 0
  | .poisoned => (({ s with pcie := { s.pcie with poison := satInc s.pcie.poison } }).fnEvent 0).report 483 0
  | .refused => ({ s with pcie := { s.pcie with ur := satInc s.pcie.ur } }).fnEvent 0

/-- Answers with an error. A failed access to a buffer is counted (R74, R659). -/
def State.fail (s : State) (h : Hdr) (e : Err) : State :=
  let s1 := if e.1 = stDmaError then
      (if e.2 = 1 then s.dmaFailed .timeout else if e.2 = 2 then s.dmaFailed .poisoned
       else if e.2 = 3 then s.dmaFailed .refused else s)
    else s
  s1.answer h.iss (s1.respOf h e)

/-- The catalogue holds the command code (R137). -/
def knownCmd (c : W16) : Bool :=
  let fam := c.toNat / 256
  let n := c.toNat % 256
  fam == 0x20 || (n != 0 && decide (n ≤ [0, 4, 3, 5, 4, 5, 6, 6, 2, 3, 2, 3, 3, 3, 5, 4, 2].getD fam 0))

/-- CMD and SEQ of the frame in area `n`, where the host has written a CMD that the catalogue does not hold. -/
def MSlot.badCmd (m : MSlot) (n : Nat) : Option (W16 × W32) :=
  match Tbl.get none m.area 0, Tbl.get none m.area 1 with
  | some a, some b =>
    let c : W16 := b ++ a
    if knownCmd c then none
    else some (c, BitVec.ofNat 32 (ofLe ((List.range 4).map (fun i => (Tbl.get none m.area (4 + i)).getD (Config.frameByte n (4 + i))))))
  | _, _ => none

/-- A 32-bit write of the host into frame area `n`. Up to the start of a queued command it is part of the command (R118). -/
def MSlot.write (m : MSlot) (n o : Nat) (v : W32) : MSlot :=
  let m1 := { m with area := putArea m.area o (leBytes 4 v.toNat) }
  if m.st = .queued ∧ (o = 0 ∨ (o = 4 ∧ m.bad.isSome = true)) then { m1 with bad := m1.badCmd n } else m1

/-- Horrov answers a queued frame that names no command of the catalogue with ST_BAD_COMMAND (R137). It does so in Undercoat
too, where R139 could be read as giving ST_UNDERCOAT (DEDUCED, log entry 96). -/
def serveBad : Nat → State → State
  | 0, s => s
  | fuel + 1, s =>
    match s.nextCmd with
    | some (.pf n) =>
      match (s.mslot n).bad with
      | some (cmd, seq) =>
        serveBad fuel ((s.startCmd (.pf n)).answerPf n
          { status := stBadCommand, gen := (s.fn 0).gen, seq := seq, detail := cmd.setWidth 32 })
      | none => s
    | some (.vf v) =>
      match (s.vmbx v).slot.bad with
      | some (cmd, seq) =>
        serveBad fuel ((s.startCmd (.vf v)).answerVf v
          { status := stBadCommand, gen := (s.fn v).gen, seq := seq, detail := cmd.setWidth 32 })
      | none => s
    | _ => s

/-- SMBus: nothing answers before S1, in the hold after a failed start, and after HALT: ST_NOT_READY, STATE 2 (R144). -/
def State.smbDead (s : State) : Bool :=
  !s.mbx.ready && !s.mbx.undercoat && (s.boot.step == 0 || s.boot.hold || s.scr.halted)

/-- Without VIN, and in DUSTSHEET, an Arong request is not acknowledged (R572, R634). -/
def State.smbMute (s : State) : Bool := !s.pwr.vin || s.pwr.st == .dustsheet || s.pwr.st == .backup || s.pwr.st == .off

/-- What becomes of the request of frame `h` where it is not carried out now. Over SMBus it is not acknowledged (no supply, or
a bad packet error code), or discarded while another request runs (R143), or it runs, waiting for the turn of the admin
mailbox (R145). A mailbox command whose turn has not come stays queued: its row names the moment at which Horrov carries
it out. -/
def State.notNow (s : State) (h : Hdr) : Option State :=
  let seq : Byte := BitVec.ofNat 8 h.seq.toNat
  if h.iss = .smb then
    if s.smbMute then some s
    else if h.pecOk = false then some (s.emit .smbusNack)
    else if s.mbx.smbState = 1 ∧ s.mbx.smbSeq ≠ seq then some s
    else if s.canStartCmd .smb then none
    else some { s with mbx := { s.mbx with smbState := 1, smbSeq := seq, smbStatus := 0, smbResults := [] } }
  else if s.canStartCmd h.iss then none
  else some s

/-- How the command of frame `h` ends after its own checks and effects. -/
def State.settleAns (s : State) (h : Hdr) : Ans → State
  | .err e => s.fail h e
  | .bad s' e => s'.fail h e
  | .ok s' res => s'.answer h.iss (s.okOf h res)
  | .wait s' => s'


/-- Runs a command that is not stageable: `f` is its own effect, on the state in which its slot is RUNNING. -/
def State.run (s : State) (h : Hdr) (ci : CmdInfo) (f : State → Ans) : State :=
  match s.notNow h with
  | some t => t
  | none =>
    let s1 := s.startCmd h.iss
    if h.iss = .smb ∧ s.smbDead = true then s1.answerSmb { status := stNotReady, seq := h.seq }
    else
      let s2 := match s1.modeErr h.iss ci with
        | some e => s1.fail h e
        | none =>
          match s1.frameErr h ci with
          | some e => s1.fail h e
          | none =>
            if h.stage ∧ h.iss ≠ .smb then s1.fail h (stNotStageable, 0)
            else
              s1.settleAns h (f s1)
      serveBad 300 s2

/-! ## Effects of the stageable commands: functions and queues -/

/-- Queues of function `f`. -/
def State.queuesOf (s : State) (f : Nat) : List (Nat × Queue) :=
  s.que.queues.filter (fun kq => kq.2.assigned && kq.2.fn == f)

def QState.code : QState → Nat
  | .disabled => 0
  | .active => 1
  | .stopping => 2
  | .error => 3

def VfState.code : VfState → Nat
  | .absent => 0
  | .active => 1
  | .sleep => 2
  | .flr => 3
  | .drain => 4

/-- The quota that a VF has, or will have when its FLR completes (R66). -/
def Fn.quotaSet (f : Fn) : Nat := f.pendQuota.getD f.quota

/-- The sum of VF quotas as the changes set them (R66, R67). -/
def State.quotaSum (s : State) : Nat :=
  (s.pcie.fns.filter (fun kf => kf.1 != 0)).foldl (fun a kf => a + kf.2.quotaSet) 0

/-- A change of the VF's state waits for the end of its FLR, or of the drain after which it is created again (R56, R66). -/
def Fn.defers (f : Fn) : Bool := f.st == .flr || f.reenable

/-- Sets a VF's quota: at once, or at the completion of an FLR in progress (R66). -/
def State.setQuota (s : State) (v q : Nat) : State :=
  s.updFn v (fun f => if f.defers then { f with pendQuota := some q } else { f with quota := q, pendQuota := none })

def setQuotas (g : Nat → Nat) : List Nat → State → State
  | [], s => s
  | v :: t, s => setQuotas g t (s.setQuota v (g v))

/-- The VFs that EVEN counts (R69). -/
def State.countedVfs (s : State) : List Nat :=
  (s.pcie.fns.filter (fun kf => kf.1 != 0 && (kf.2.st == .active || kf.2.st == .sleep || kf.2.st == .flr))).map (fun kf => kf.1)

def State.drainVfs (s : State) : List Nat :=
  (s.pcie.fns.filter (fun kf => kf.1 != 0 && kf.2.st == .drain)).map (fun kf => kf.1)

def evenQuota (n : Nat) : Nat := min 4096 (61440 / n)

abbrev Eff := Except Err (State × List Byte)

def effFnQuotaProfile (profile : Nat) (s : State) : Eff :=
  match profile with
  | 0 =>
    let l := s.countedVfs
    let s1 := if l.length = 0 then s
      else setQuotas (fun _ => 0) s.drainVfs (setQuotas (fun _ => evenQuota l.length) l s)
    .ok (s1, leBytes 4 s1.quotaSum)
  | 1 =>
    let s1 := setQuotas (fun _ => 0) ((List.map (fun kf => kf.1) s.pcie.fns).filter (fun v => v != 0)) s
    .ok (s1, leBytes 4 s1.quotaSum)
  | _ => .error (stBadArg, 16)

def effFnQuotaVf (v q : Nat) (s : State) : Eff :=
  if v = 0 ∨ (s.fn v).st = .absent then .error (stBadArg, 16)
  else if 4096 < q then .error (stBadArg, 18)
  else
    let sum := s.quotaSum - (s.fn v).quotaSet + q
    if 61440 < sum then .error (stQuotaExceeded, sum)
    else .ok (s.setQuota v q, leBytes 4 sum)

def effFnPerm (v : Nat) (p : W32) (s : State) : Eff :=
  if v = 0 ∨ (s.fn v).st = .absent then .error (stBadArg, 16)
  else .ok (s.updFn v (fun f => if f.defers then { f with pendPerm := some p } else { f with perm := p }), [])

/-- The VF to which queue `q` will be assigned when its FLR completes (R66). -/
def State.awaits (s : State) (q : Nat) : Option Nat :=
  (s.pcie.fns.find? (fun kf => kf.2.pendQueues.any (fun c => match c with
    | .queAssign k _ _ _ => k == q
    | _ => false))).map (fun kf => kf.1)

/-- The slot, or page, of function `f` is occupied, counted as the changes set it: the old queues of a function in FLR or
removal go, and waiting assignments come (R66, R76). -/
def State.slotTaken (s : State) (f slot : Nat) : Bool :=
  (s.queuesOf f).any (fun kq => kq.2.slot == slot && !kq.2.leaving) ||
    (s.fn f).pendQueues.any (fun c => match c with
      | .queAssign _ _ k _ => k == slot
      | _ => false)

/-- The pool holds no unassigned queue (R76). -/
def State.poolFull (s : State) : Bool := (List.range 4096).all (fun q => (s.queue q).assigned || (s.awaits q).isSome)

/-- `que.assign` (R76, R78). Where the pool is full, ST_NO_QUEUE goes before ST_QUEUE_BUSY, since every queue that could be named
is then assigned (DEDUCED, log entry 97). For a VF in FLR the assignment is made when that completes (R66). -/
def effQueAssign (q f slot c : Nat) (s : State) : Eff :=
  if 4095 < q then .error (stBadArg, 16)
  else if s.poolFull then .error (stNoQueue, 0)
  else if (s.queue q).assigned ∨ (s.awaits q).isSome = true then .error (stQueueBusy, (s.queue q).st.code)
  else if f ≠ 0 ∧ (s.fn f).st = .absent then .error (stBadArg, 18)
  else if (if f = 0 then 63 else 15) < slot then .error (stBadArg, 19)
  else if 15 < c then .error (stBadArg, 20)
  else if s.slotTaken f slot then .error (stNoQueue, 0)
  else if f ≠ 0 ∧ (s.fn f).flr = true then
    .ok (s.updFn f (fun x => { x with pendQueues := x.pendQueues ++ [.queAssign q f slot c] }), [])
  else .ok (s.updQueue q (fun _ => { assigned := true, fn := f, slot := slot, cls := c }), [])

/-- Applies `g` to the waiting assignment of queue `q` to VF `v`. -/
def State.mapAwait (s : State) (v q : Nat) (g : TCmd → List TCmd) : State :=
  s.updFn v (fun x => { x with pendQueues := x.pendQueues.flatMap (fun c => match c with
    | .queAssign k f sl cl => if k = q then g (.queAssign k f sl cl) else [.queAssign k f sl cl]
    | c => [c]) })

/-- The queue has an in-flight entry: one that the device holds, or a dispatched job. -/
def State.inFlight (s : State) (q : Nat) : Bool :=
  !(s.queue q).entries.isEmpty || s.que.jobs.any (fun j => j.id.q == q)

/-- `que.release` (R78). The pending bit of the queue's vector ends with the queue (R57). The queue of a VF in FLR keeps its place
until that completes, and then returns to the pool in any case (R63, R66). -/
def effQueRelease (q : Nat) (s : State) : Eff :=
  if 4095 < q then .error (stBadArg, 16)
  else
    match s.awaits q with
    | some v => .ok (s.mapAwait v q (fun _ => []), [])
    | none =>
      let x := s.queue q
      if x.assigned = false then .error (stBadArg, 16)
      else if x.st ≠ .disabled ∨ s.inFlight q = true then .error (stQueueBusy, x.st.code)
      else if x.leaving then .ok (s, [])
      else
        .ok ((s.updQueue q (fun _ => {})).updFn x.fn (fun y =>
          { y with vecs := Tbl.upd {} y.vecs x.slot (fun w => { w with pend := false }) }), [])

def State.setCls (s : State) (c : Nat) (x : Cls) : State :=
  ({ s with que := { s.que with classes := Tbl.set {} s.que.classes c x } }).checkClasses.assign

def effQueClassProfile (c p : Nat) (s : State) : Eff :=
  if 15 < c then .error (stBadArg, 16)
  else
    match p with
    | 0 => .ok (s.setCls c { weight := 1 }, [])
    | 1 => .ok (s.setCls c { weight := 1, bulk := true }, [])
    | 2 => .ok (s.setCls c { weight := 8 }, [])
    | _ => .error (stBadArg, 17)

def effQueClassMasks (c w : Nat) (ms : List W64) (s : State) : Eff :=
  if 15 < c then .error (stBadArg, 16)
  else if w = 0 ∨ 255 < w then .error (stBadArg, 17)
  else .ok (s.setCls c { weight := w, masks := some ms }, [])

/-- `que.move` (R78). -/
def effQueMove (q c : Nat) (s : State) : Eff :=
  if 4095 < q ∨ ((s.queue q).assigned = false ∧ s.awaits q = none) then .error (stBadArg, 16)
  else if 15 < c then .error (stBadArg, 18)
  else
    match s.awaits q with
    | some v => .ok (s.mapAwait v q (fun t => match t with
        | .queAssign k f sl _ => [.queAssign k f sl c]
        | t => [t]), [])
    | none => if (s.queue q).leaving then .ok (s, []) else .ok (s.updQueue q (fun x => { x with cls := c }), [])

/-! ## Ports (R148-R152) -/

def effPortModeProfile (n p : Nat) (s : State) : Eff :=
  if 7 < n then .error (stBadArg, 16)
  else if 5 < p then .error (stBadArg, 17)
  else if (s.pair n).enabled then .error (stPortState, s.portState n)
  else
    let m := p % 3
    let esp : Bool := decide (3 ≤ p)
    let share := 512 / subCount m
    .ok (s.updPair n (fun x =>
      { x with modeSet := true, mode := m, proto := if esp then BitVec.ofNat 8 (2 ^ subCount m - 1) else 0, fc := 2,
               pfcMask := 0xFF, steer := 0, unctrl := if esp then 2 else 1, maxFrame := 9216, beadEtype := 0x88B5,
               xoff := share / 2, xon := share * 3 / 8, txPol := 0, rxPol := 0 }), [])

/-- The first offending byte of a `port.mode` parameter buffer (R150). -/
def portParamErr (b : List Byte) : Option Nat :=
  let f := fun i => fieldLe b i 1
  let mode := f 0
  let subs := subCount mode
  let bead := fieldLe b 8 2
  let xoff := fieldLe b 10 2
  let xon := fieldLe b 12 2
  if 2 < mode then some 0
  else if 2 ^ subs ≤ f 1 then some 1
  else if 2 < f 2 then some 2
  else if f 2 = 2 ∧ f 3 = 0 then some 3
  else if 2 < f 4 then some 4
  else if 3 < f 5 then some 5
  else if fieldLe b 6 2 < 1518 ∨ 9216 < fieldLe b 6 2 then some 6
  else if bead ∈ [0x0800, 0x86DD, 0x8100, 0x88A8, 0x888E, 0x88E5, 0x8808] then some 8
  else if xoff < 16 ∨ 512 / subs < xoff then some 10
  else if xoff ≤ xon then some 12
  else if allZero b 16 16 = false then some 16
  else none

def effPortModeParams (n : Nat) (b : List Byte) (s : State) : Eff :=
  if 7 < n then .error (stBadArg, 16)
  else if b.length ≠ 32 then .error (stBadArg, 24)
  else
    match portParamErr b with
    | some i => .error (stBadArg, i)
    | none =>
      if (s.pair n).enabled then .error (stPortState, s.portState n)
      else .ok (s.updPair n (fun x =>
        { x with modeSet := true, mode := fieldLe b 0 1, proto := b.getD 1 0, fc := fieldLe b 2 1,
                 pfcMask := b.getD 3 0, steer := fieldLe b 4 1, unctrl := b.getD 5 0, maxFrame := fieldLe b 6 2,
                 beadEtype := BitVec.ofNat 16 (fieldLe b 8 2), xoff := fieldLe b 10 2, xon := fieldLe b 12 2,
                 txPol := b.getD 14 0, rxPol := b.getD 15 0 }), [])

/-- The standing grants of every pair, as the present assignment sizes them. -/
def State.standingSum (s : State) : Nat := (List.range 8).foldl (fun a n => a + s.standingSize n) 0

/-- `port.enable` (R152). Pairs stay disabled at QUIESCE and above (R522), after a prepared debug scope (R488), and while
the device enters DUSTSHEET (R571). -/
def effPortEnable (n : Nat) (s : State) : Eff :=
  if 7 < n then .error (stBadArg, 16)
  else if (s.pair n).enabled then .ok (s, [])
  else if (s.pair n).modeSet = false ∨ s.held = true ∨ s.lcy.prepared = true ∨ s.pwr.st = .dustEntry then
    .error (stPortState, s.portState n)
  else if s.grt.st = .unseeded then .error (stRngNotReady, 0)
  else
    let s1 := s.enablePair n
    if s1.rndPool.length < s1.enabledDirs.length then .error (stNoEngine, 1)
    else
      let need := s1.standingSum + wipeReserve
      if s.flt.target < need then .error (stBudget, need - s.flt.target)
      else .ok (s1, [])

def effPortDisable (n : Nat) (s : State) : Eff :=
  if 7 < n then .error (stBadArg, 16) else .ok (s.disablePair n, [])

/-! ## SAs (R169-R180) -/

/-- Key bytes of a suite. -/
def suiteKey (suite : Nat) : Nat := if suite % 2 = 0 then 16 else 32

def isXpn (suite : Nat) : Bool := suite == 2 || suite == 3

/-- The suite's PN limit (R182). -/
def pnLimit (suite : Nat) (flags : Byte) : Nat :=
  if suite ≤ 1 ∨ (4 ≤ suite ∧ flags.getLsbD 0 = false) then 2 ^ 32 - 1 else 2 ^ 64 - 1

def defaultWarn (suite : Nat) : W64 := if suite ≤ 1 then 0xC0000000 else 0xC000000000000000

/-- Whether another receive SA of a sub-port meets `p`. -/
def State.rxClash (s : State) (pair sub : Nat) (p : Sa → Bool) : Bool :=
  s.rdr.sas.any (fun ka => decide (16384 ≤ ka.1) && ka.2.present && ka.2.pair == pair && ka.2.sub == sub && p ka.2)

/-- WILDCARD of a MACsec receive SA. -/
def Sa.wild (a : Sa) : Bool := !a.isEsp && a.flags.getLsbD 6

/-- Adds an SA context in creation order; the first transmit SA of a sub-port is its default (R161, R172). -/
def State.addSa (s : State) (dir a : Nat) (x : Sa) : State :=
  let d := dir == 0 && (s.earliestTx x.pair x.sub 65536).isNone
  let s1 := s.updSa dir a (fun y =>
    { x with present := true, order := s.rdr.saCount, deflt := d, ep0 := y.ep0, ep1 := y.ep1,
             protFrames := y.protFrames, protOctets := y.protOctets, pnExhausted := y.pnExhausted, late := y.late,
             notUsing := y.notUsing, octValidated := y.octValidated, octDecrypted := y.octDecrypted, padErr := y.padErr,
             dummy := y.dummy })
  { s1 with rdr := { s1.rdr with saCount := s1.rdr.saCount + 1 } }

/-- The checks that both forms of `sa.create` share: the sub-port exists and its protocol fits the suite. -/
def State.saPlace (s : State) (dir a : Nat) : Option Err :=
  if 1 < dir then some (stBadArg, 16)
  else if 16383 < a ∨ (s.sa dir a).present = true then some (stBadArg, 18)
  else none

def State.subMissing (s : State) (pb : Nat) : Bool :=
  decide (31 < pb) || !(s.pair (pb % 8)).modeSet || decide (subCount (s.pair (pb % 8)).mode ≤ pb / 8)

def State.protoFits (s : State) (pb suite : Nat) : Bool :=
  (s.pair (pb % 8)).proto.getLsbD (pb / 8) == decide (4 ≤ suite)

def effSaCreateProfile (dir a pb suite : Nat) (s : State) : Eff :=
  match s.saPlace dir a with
  | some e => .error e
  | none =>
    if s.subMissing pb then .error (stBadArg, 20)
    else if 5 < suite ∨ s.protoFits pb suite = false then .error (stBadArg, 21)
    else
      let esp : Bool := decide (4 ≤ suite)
      let wild : Bool := !esp && dir == 1
      if wild && s.rxClash (pb % 8) (pb / 8) Sa.wild then .error (stBadArg, 21)
      else
        let flags : Byte := if esp then 0x01 else if dir = 0 then 0x0A else 0x48
        .ok (s.addSa dir a
          { suite := suite, pair := pb % 8, sub := pb / 8, flags := flags, window := if esp ∧ dir = 1 then 128 else 0,
            pnWarn := defaultWarn suite }, [])

/-- The first offending byte of an `sa.create` parameter buffer, with its status (R164, R170). -/
def saParamErr (dir : Nat) (b : List Byte) : Option Err :=
  let f := fun i => fieldLe b i 1
  let suite := f 0
  let esp : Bool := decide (4 ≤ suite)
  let flags := b.getD 2 0
  let tl := f 3
  let win := fieldLe b 4 4
  let sc := flags.getLsbD 0
  let es := flags.getLsbD 1
  let scb := flags.getLsbD 2
  let wild : Bool := !esp && flags.getLsbD 6
  let sciUsed : Bool := !esp && (if dir = 0 then !es else !wild)
  let vid := fieldLe b 24 2
  if 5 < suite then some (stBadArg, 0)
  else if esp = true ∧ flags.toNat % 128 / 2 ≠ 0 then some (stBadArg, 2)
  else if esp = false ∧ (flags.getLsbD 7 = true ∨ flags.toNat / 16 % 4 = 3 ∨ (wild = true ∧ dir = 0)) then some (stBadArg, 2)
  else if esp = false ∧ dir = 0 ∧ ((sc = true ∧ (es = true ∨ scb = true)) ∨ (sc = false ∧ es = false ∧ scb = false)) then
    some (stUnsupported, 2)
  else if tl ≠ 0 ∧ (¬ (tl = 20 ∨ tl = 40) ∨ esp = false ∨ flags.getLsbD 7 = false) then some (stBadArg, 3)
  else if tl = 0 ∧ dir = 0 ∧ esp = true ∧ flags.getLsbD 7 = true then some (stBadArg, 3)
  else if (dir = 0 ∧ win ≠ 0) ∨ (dir = 1 ∧ esp = true ∧ (1024 < win ∨ win % 32 ≠ 0)) then some (stBadArg, 4)
  else if sciUsed = false ∧ fieldLe b 8 8 ≠ 0 then some (stBadArg, 8)
  else if 4095 < vid ∧ vid ≠ 0xFFFF then some (stBadArg, 24)
  else
    if allZero b 26 6 = false then some (stBadArg, 26)
    else if allZero b (32 + tl) (40 - tl) = false then some (stBadArg, 32)
    else none

def effSaCreateParams (dir a : Nat) (b : List Byte) (s : State) : Eff :=
  match s.saPlace dir a with
  | some e => .error e
  | none =>
    if b.length ≠ 72 then .error (stBadArg, 24)
    else
      let suite := fieldLe b 0 1
      let pb := fieldLe b 1 1
      let flags := b.getD 2 0
      let sci := BitVec.ofNat 64 (fieldLe b 8 8)
      match saParamErr dir b with
      | some e => .error e
      | none =>
        if s.subMissing pb then .error (stBadArg, 1)
        else if s.protoFits pb suite = false then .error (stBadArg, 1)
        else
          let x : Sa :=
            { suite := suite, pair := pb % 8, sub := pb / 8, flags := flags, window := BitVec.ofNat 32 (fieldLe b 4 4),
              sci := sci, pnWarn := if fieldLe b 16 8 = 0 then defaultWarn suite else BitVec.ofNat 64 (fieldLe b 16 8),
              vid := BitVec.ofNat 16 (fieldLe b 24 2), tmplLen := fieldLe b 3 1, tmpl := slice b 32 (fieldLe b 3 1) }
          if dir = 1 ∧ x.wild = true ∧ s.rxClash x.pair x.sub Sa.wild = true then .error (stBadArg, 2)
          else if dir = 1 ∧ x.isEsp = false ∧ x.wild = false ∧
              s.rxClash x.pair x.sub (fun y => !y.isEsp && !y.wild && y.sci == sci) = true then .error (stBadArg, 8)
          else .ok (s.addSa dir a x, [])

/-- The role slots of an SA. -/
def Sa.current (a : Sa) : Option Nat := a.slotIn (fun e => e == .current)
def Sa.staged (a : Sa) : Option Nat := a.slotIn (fun e => e == .staged)
def Sa.draining (a : Sa) : Option Nat := a.slotIn (fun e => e == .drainAccept || e == .draining)

/-- The AN that a result shows: 0xFF for ESP and for an absent role (R176, R181). -/
def Sa.resAn (a : Sa) : Option Nat → Byte
  | none => 0xFF
  | some i => if a.isEsp then 0xFF else (a.ep i).an.setWidth 8

/-- The SPI is in use by an epoch of the sub-port, of either direction (R176). -/
def State.spiUsed (s : State) (pair sub : Nat) (spi : W32) : Bool :=
  s.rdr.sas.any (fun ka => ka.2.present && ka.2.pair == pair && ka.2.sub == sub && ka.2.isEsp &&
    ((ka.2.ep0.st != .empty && ka.2.ep0.spi == spi) || (ka.2.ep1.st != .empty && ka.2.ep1.spi == spi)))

/-- The binding of an SA's suite (R436). -/
def suiteAlg (suite : Nat) : W16 :=
  if suite < 4 then (if suite % 2 = 0 then 0x0101 else 0x0102) else (if suite = 4 then 0x0103 else 0x0104)

def effSaStage (dir a : Nat) (key : W64) (x : Option (Byte × W64 × W32 × BitVec 96)) (s : State) : Eff :=
  let y := s.sa dir a
  if 1 < dir then .error (stBadArg, 16)
  else if 16383 < a ∨ y.present = false then .error (stSaInvalid, 0)
  else if y.staged.isSome ∨ y.draining.isSome then .error (stEpochBusy, 0)
  else if x = none ∧ 2 ≤ y.suite then .error (stBadArg, 2)
  else
    let cur := y.current.map (fun i => (y.ep i).an)
    let an : BitVec 2 := if y.isEsp then 0 else match x with
      | some (n, _) => BitVec.ofNat 2 n.toNat
      | none => match cur with
        | some c => c + 1
        | none => 0
    let pn : W64 := match x with
      | some (_, p, _) => p
      | none => 1
    let ssci : W32 := match x with
      | some (_, _, c, _) => c
      | none => 0
    let salt : BitVec 96 := match x with
      | some (_, _, _, w) => w
      | none => 0
    let bigAn : Bool := match x with
      | some (n, _) => !y.isEsp && (decide (3 < n.toNat) || cur == some an)
      | none => false
    if bigAn then .error (stBadArg, 32)
    else if pn = 0 ∨ pnLimit y.suite y.flags ≤ pn.toNat then .error (stBadArg, 40)
    else if y.isEsp = true ∧ (ssci = 0 ∨ s.spiUsed y.pair y.sub ssci = true) then .error (stBadArg, 48)
    else if isXpn y.suite = false ∧ salt ≠ 0 then .error (stBadArg, 52)
    else
      match s.checkHandle 0 key (if dir = 0 then .enc else .dec) (fun w => w == suiteAlg y.suite) with
      | .error e => .error e
      | .ok k =>
        let bytes := s.keyBytes k
        let kb := bytes.take (suiteKey y.suite)
        let (r, s1) := s.draw
        let kw := BitVec.ofNat 256 (ofLe kb)
        let hk := Config.ghashKey kb
        let i := if y.ep0.st = .empty then 0 else 1
        let e : Epoch :=
          { st := .staged, serial := s.rdr.epochCount + 1, an := an, spi := if y.isEsp then ssci else 0, ssci := if isXpn y.suite then ssci else 0,
            salt := if y.isEsp then BitVec.ofNat 96 (ofLe (slice bytes (suiteKey y.suite) 4)) else salt,
            nextPn := if y.isEsp ∧ dir = 1 then pn - 1 else pn, key0 := kw ^^^ r.setWidth 256, key1 := r.setWidth 256,
            h0 := hk ^^^ (r >>> 256).setWidth 128, h1 := (r >>> 256).setWidth 128, slot := key }
        let s2 := ({ s1 with rdr := { s1.rdr with epochCount := s1.rdr.epochCount + 1 } }.updSa dir a (fun z =>
          z.updEp i (fun _ => e))).epochRef key
        .ok (s2, [y.resAn none].map (fun _ => if y.isEsp then 0xFF else an.setWidth 8))

def effSaCommit (dir a : Nat) (s : State) : Eff :=
  let y := s.sa dir a
  if 1 < dir then .error (stBadArg, 16)
  else if 16383 < a ∨ y.present = false then .error (stSaInvalid, 0)
  else
    match y.staged with
    | none => .error (stNoStaged, 0)
    | some i =>
      let s1 := match y.current with
        | some c => s.updSa dir a (fun z => z.updEp c (fun e =>
            { e with st := if dir = 0 then .draining else .drainAccept, tCommit := s.clk, overlap := s.rdr.overlap,
                     drain := s.rdr.drain }))
        | none => s
      .ok (s1.updSa dir a (fun z => z.updEp i (fun e => { e with st := .current })), [y.resAn (some i)])

def effSaDelete (dir a : Nat) (s : State) : Eff :=
  if 1 < dir then .error (stBadArg, 16)
  else if 16383 < a ∨ (s.sa dir a).present = false then .error (stSaInvalid, 0)
  else .ok (s.deleteSa dir a, [])

def effSaTimersProfile (p : Nat) (s : State) : Eff :=
  match p with
  | 0 => .ok ({ s with rdr := { s.rdr with overlap := 2000, drain := 3000 } }, [])
  | 1 => .ok ({ s with rdr := { s.rdr with overlap := 200, drain := 500 } }, [])
  | _ => .error (stBadArg, 16)

def effSaTimersMs (o d : Nat) (s : State) : Eff :=
  if o < 10 ∨ 60000 < o then .error (stBadArg, 16)
  else if d < 10 ∨ 600000 < d then .error (stBadArg, 20)
  else if d < o then .error (stBadArg, 16)
  else .ok ({ s with rdr := { s.rdr with overlap := o, drain := d } }, [])

/-! ## The Float budget (R559) -/

def capOk (c : Nat) : Bool := c == 0xFFFF || (decide (16 ≤ c) && decide (c ≤ 1600))

def State.setBudget (s : State) (profile tokens : Nat) (caps : Nat → Nat) : Eff :=
  let need := s.standingSum + wipeReserve
  if tokens < need then .error (stBudget, need - tokens)
  else
    .ok ({ s with flt := ({ s.flt with profile := profile, configured := tokens, capRender := caps 0, capLath := caps 1,
                                        capHawk := caps 2, capSponge := caps 3 }).settle }, [])

def effFltBudgetProfile (p : Nat) (s : State) : Eff :=
  match p with
  | 0 => s.setBudget 0 1280 (fun _ => 0xFFFF)
  | 1 => s.setBudget 1 1600 (fun _ => 0xFFFF)
  | 2 => s.setBudget 2 960 (fun _ => 0xFFFF)
  | 3 => s.setBudget 3 640 (fun _ => 0xFFFF)
  | _ => .error (stBadArg, 16)

def effFltBudgetTokens (t : Nat) (caps : List Nat) (s : State) : Eff :=
  if t < 640 ∨ 1600 < t then .error (stBadArg, 16)
  else
    match (List.range 4).find? (fun i => !capOk (caps.getD i 0)) with
    | some i => .error (stBadArg, 18 + 2 * i)
    | none => s.setBudget 4 t (fun i => caps.getD i 0xFFFF)

/-! ## Applying a stageable command -/

/-- The effect and the results of a stageable command. -/
def applyT (c : TCmd) (s : State) : Eff :=
  match c with
  | .fnQuotaProfile p => effFnQuotaProfile p s
  | .fnQuotaVf v q => effFnQuotaVf v q s
  | .fnPerm v p => effFnPerm v p s
  | .queAssign q f sl c => effQueAssign q f sl c s
  | .queRelease q => effQueRelease q s
  | .queClassProfile c p => effQueClassProfile c p s
  | .queClassMasks c w ms => effQueClassMasks c w ms s
  | .queMove q c => effQueMove q c s
  | .portModeProfile n p => effPortModeProfile n p s
  | .portModeParams n b => effPortModeParams n b s
  | .portEnable n => effPortEnable n s
  | .portDisable n => effPortDisable n s
  | .saCreateProfile d a p u => effSaCreateProfile d a p u s
  | .saCreateParams d a b => effSaCreateParams d a b s
  | .saStageBasic d a k => effSaStage d a k none s
  | .saStageExpert d a k an pn c w => effSaStage d a k (some (an, pn, c, w)) s
  | .saCommit d a => effSaCommit d a s
  | .saDelete d a => effSaDelete d a s
  | .saTimersProfile p => effSaTimersProfile p s
  | .saTimersMs o d => effSaTimersMs o d s
  | .fltBudgetProfile p => effFltBudgetProfile p s
  | .fltBudgetTokens t c => effFltBudgetTokens t c s

/-- Applies a list in staging order: the state, or the index of the first command that fails. -/
def applyAll : Nat → List TCmd → State → Except Nat State
  | _, [], s => .ok s
  | i, c :: t, s =>
    match applyT c s with
    | .ok (s', _) => applyAll (i + 1) t s'
    | .error _ => .error i

/-! ## Locks (R133) -/

/-- An object that a transaction can lock (R133). -/
inductive Obj where
  | sa (dir a : Nat)
  | pair (n : Nat)
  | queue (q : Nat)
  | quota (v : Nat)
  | quotas
  | cls (c : Nat)
  | budget
deriving DecidableEq, Repr

/-- The lockable objects that a command changes. -/
def TCmd.changes : TCmd → List Obj
  | .fnQuotaProfile _ => [.quotas]
  | .fnQuotaVf v _ => [.quota v]
  | .fnPerm _ _ => []
  | .queAssign q _ _ _ => [.queue q]
  | .queRelease q => [.queue q]
  | .queClassProfile c _ => [.cls c]
  | .queClassMasks c _ _ => [.cls c]
  | .queMove q _ => [.queue q]
  | .portModeProfile n _ => [.pair n]
  | .portModeParams n _ => [.pair n]
  | .portEnable n => [.pair n]
  | .portDisable n => [.pair n]
  | .saCreateProfile d a _ _ => [.sa d a]
  | .saCreateParams d a _ => [.sa d a]
  | .saStageBasic d a _ => [.sa d a]
  | .saStageExpert d a _ _ _ _ _ => [.sa d a]
  | .saCommit d a => [.sa d a]
  | .saDelete d a => [.sa d a]
  | .saTimersProfile _ => []
  | .saTimersMs _ _ => []
  | .fltBudgetProfile _ => [.budget]
  | .fltBudgetTokens _ _ => [.budget]

/-- The lockable objects that a command names: those it changes, and the pair of a new SA and the class of a queue. -/
def TCmd.names (c : TCmd) : List Obj :=
  c.changes ++ (match c with
    | .queAssign _ _ _ k => [.cls k]
    | .queMove _ k => [.cls k]
    | .saCreateProfile _ _ pb _ => [.pair (pb % 8)]
    | .saCreateParams _ _ b => [.pair (fieldLe b 1 1 % 8)]
    | _ => [])

/-- Two names of one object: a profile of `fn.quota` names every VF's quota. -/
def Obj.meets : Obj → Obj → Bool
  | .quotas, .quota _ => true
  | .quota _, .quotas => true
  | a, b => a == b

/-- The command names one of the objects. -/
def TCmd.locks (c : TCmd) (l : List Obj) : Bool := c.names.any (fun a => l.any (fun o => a.meets o))

/-- One of the objects is locked by the open transaction. -/
def State.locked (s : State) (l : List Obj) : Bool :=
  match s.mbx.txn with
  | some t => t.staged.any (fun c => c.locks l)
  | none => false

/-- The index of the first staged command that locks one of them: DETAIL of ST_TXN_CONFLICT (R140, log entry 87). -/
def State.lockIdx (s : State) (l : List Obj) : Nat :=
  match s.mbx.txn with
  | some t => t.staged.findIdx (fun c => c.locks l)
  | none => 0

/-- A command that would change nothing: enabling an enabled pair, disabling a disabled one. -/
def State.idleT (s : State) : TCmd → Bool
  | .portEnable n => (s.pair n).enabled
  | .portDisable n => !(s.pair n).enabled
  | _ => false

/-- Inline and budget commands are applied at a commit epoch of their own (R135). -/
def TCmd.inline : TCmd → Bool
  | .fnQuotaProfile _ => false
  | .fnQuotaVf _ _ => false
  | .fnPerm _ _ => false
  | .queAssign _ _ _ _ => false
  | .queRelease _ => false
  | .queClassProfile _ _ => false
  | .queClassMasks _ _ _ => false
  | .queMove _ _ => false
  | _ => true

/-- Marks or clears the transaction references of the slots that staged commands name. -/
def markTxn (v : Bool) : List TCmd → State → State
  | [], s => s
  | c :: t, s =>
    markTxn v t (match c.keyOf with
      | some k => s.updSlot k (fun b => { b with txn := v })
      | none => s)

/-- Ends the open transaction: every lock is released. -/
def State.endTxn (s : State) : State :=
  match s.mbx.txn with
  | some t => { markTxn false t.staged s with mbx := { (markTxn false t.staged s).mbx with txn := none } }
  | none => s

/-! ## Running a stageable command -/

/-- The status of a TXN_ID that is not the open one (R131). -/
def State.txnErr (s : State) (id : W32) : Option Err :=
  match s.mbx.txn with
  | some t => if t.id = id then none else some (if s.mbx.expired.contains id then stTxnExpired else stTxnNone, 0)
  | none => some (if s.mbx.expired.contains id then stTxnExpired else stTxnNone, 0)

/-- Stages a command: it is checked against the state that the earlier staged commands will produce (R132). Where one of those
no longer applies, the new one is answered ST_TXN_CONFLICT with its index: the spec gives no status (DESIGN CHOICE, log
entry 98). -/
def State.stageT (s : State) (h : Hdr) (c : TCmd) : State :=
  match s.txnErr h.txn with
  | some e => s.fail h e
  | none =>
    match s.mbx.txn with
    | none => s
    | some t =>
      if 32768 ≤ t.staged.length then s.fail h (stTxnFull, 0)
      else
        match applyAll 0 t.staged s with
        | .error i => s.fail h (stTxnConflict, i)
        | .ok s' =>
          match applyT c s' with
          | .error e => s.fail h e
          | .ok (_, res) =>
            let s1 := markTxn true [c] s
            let s2 := { s1 with mbx := { s1.mbx with txn := some { t with staged := t.staged ++ [c] } } }
            s2.answer h.iss { s.okOf h res with staged := true, detail := BitVec.ofNat 32 t.staged.length }

/-- A direct stageable command: an object locked by the transaction is not changed (R133). `port.enable` completes once
its standing grant is held (R561). -/
def State.directT (s : State) (h : Hdr) (c : TCmd) : State :=
  match applyT c s with
  | .error e => s.fail h e
  | .ok (s', res) =>
    if s.locked c.changes && !s.idleT c then s.fail h (stTxnConflict, s.lockIdx c.changes)
    else
      let s1 := if c.inline then
          ({ s' with mbx := { s'.mbx with epoch := s'.mbx.epoch + 1 } }).dispatchAll.flowAll else s'
      match c, h.iss with
      | .portEnable n, .pf k =>
        if s1.standingHeld n then s1.answer h.iss (s.okOf h res)
        else { s1 with mbx := { s1.mbx with waitEnable := s1.mbx.waitEnable ++ [(k, h.seq, n)] } }
      | _, _ => s1.answer h.iss (s.okOf h res)

/-- Runs a stageable command, staged or direct. `c` answers the command that its arguments at its level name, or an
error of its buffer. -/
def State.runT (s : State) (h : Hdr) (ci : CmdInfo) (c : Except Err TCmd) : State :=
  match s.notNow h with
  | some t => t
  | none =>
    let s1 := s.startCmd h.iss
    if h.iss = .smb ∧ s.smbDead = true then s1.answerSmb { status := stNotReady, seq := h.seq }
    else
      let s2 := match s1.modeErr h.iss ci with
        | some e => s1.fail h e
        | none =>
          match s1.frameErr h ci with
          | some e => s1.fail h e
          | none =>
            match c with
            | .error e => s1.fail h e
            | .ok t => if h.stage then s1.stageT h t else s1.directT h t
      serveBad 300 s2

/-! ## Buffers (R126, R659) -/

/-- The bytes of a buf argument at frame offset `off`, or the error of its reading. -/
def Buf.read (b : Buf) (off : Nat) : Except Err (List Byte) :=
  if b.mbz ≠ 0 then .error (stBadArg, off + 12)
  else match b.err with
    | some e => .error (stDmaError, e.code)
    | none => .ok b.data

/-- Writes a result buffer: the bytes that fit, or the error of its writing. -/
def State.writeBuf (s : State) (f : Nat) (b : Buf) (bytes : List Byte) : Except Err State :=
  match b.err with
  | some e => .error (stDmaError, e.code)
  | none => if bytes.isEmpty then .ok s else .ok (s.wakeLink.emit (.bufOut f b.addr bytes))

/-- Writes `bytes` to the buffer of a PF command and answers `res`. -/
def State.answerBuf (x : State) (out : Buf) (bytes res : List Byte) : Ans :=
  match x.writeBuf 0 out bytes with
  | .error e => .err e
  | .ok x1 => .ok x1 res

end Sys2Proof.Machine
end

