-- ==== Sys2Proof/Machine/Custody.lean ====
section
/-!
DEFINITION. The custody die's records: roots and derived keys (R443-R445), the life-cycle words (R470, R471), the journal
and its commits (R446-R453), the tamper anchor (R502), and ERASE (R496).
-/
namespace Sys2Proof.Machine

/-! ## Derived keys (R444) -/

def w256Bytes (w : W256) : List Byte := leBytes 32 w.toNat

/-- KMAC256 with an output of 256 bits. -/
def kmacW (k : W256) (x : List Byte) (cust : String) : W256 :=
  BitVec.ofNat 256 (ofLe (Config.kmac256 (w256Bytes k) x 256 (ascii cust)))

def testRoot : W256 := Config.sha3 (ascii "FQ6400 PUBLIC TEST ROOT")

def dusSeal : W32 := 0xA5C35A3C

/-- The index of the DUS candidate in use (R473). -/
def Otp.dusCand (o : Otp) : Option Nat := (List.range 4).find? (fun i => (o.dus.getD i {}).mark == dusSeal)

def Otp.dusValue (o : Otp) : W256 :=
  match o.dusCand with
  | some i => (o.dus.getD i {}).value
  | none => 0

/-- DUS as the derivations of a life-cycle state use it: TEST_ROOT in BLANK and TEST (R444). -/
def State.dusFor (s : State) (st : Nat) : W256 := if st < 2 then testRoot else s.otp.dusValue

def State.fserial (s : State) : List Byte := leBytes 16 s.otp.fserial.toNat

def State.deviceIdFor (s : State) (st : Nat) : W256 := kmacW (s.dusFor st) s.fserial "FQDEVID-01"

def State.deviceId (s : State) : W256 := s.deviceIdFor s.lcy.st

def rootName : Nat → String
  | 2 => "FQROOT-BUILD"
  | 3 => "FQROOT-MISSION"
  | _ => "FQROOT-RETURN"

/-- The root of a life-cycle state (R445). -/
def State.rootFor (s : State) (st : Nat) : W256 :=
  if st < 2 then testRoot else kmacW (s.dusFor st) (w256Bytes (s.deviceIdFor st)) (rootName st)

def State.blobKeyFor (s : State) (st : Nat) : W256 := kmacW (s.dusFor st) (w256Bytes s.bkp.bkek) "FQBLOB-01"

def State.anchorKeyFor (s : State) (st : Nat) : W256 := kmacW (s.dusFor st) s.fserial "FQANCHOR-01"

def State.bootKeyFor (s : State) (st : Nat) : W256 := kmacW (s.dusFor st) s.fserial "FQBOOT-01"

/-- MK depends on BKEK and not on DUS (R477). -/
def State.markKey (s : State) : W256 := kmacW s.bkp.bkek s.fserial "FQLCMK-01"

/-! ## System slots (R445) -/

/-- Fills a system slot. -/
def State.fillSystem (s : State) (k : Nat) (data : List Byte) : State :=
  s.writeRunSlot k 1 0 { usage := .derive, alg := 0x0400, fn := 0, origin := .system, data := data } 0 0 false

/-- Empties a system slot: its release and its wipe. -/
def State.clearSystem (s : State) (k : Nat) : State := s.wipeSlot k

/-- The bytes that a system slot holds; none while it is free. -/
def State.system (s : State) (k : Nat) : Option (List Byte) :=
  if (s.slot k).st = .allocated then some (s.keyBytes k) else none

def State.systemW (s : State) (k : Nat) : W256 := BitVec.ofNat 256 (ofLe ((s.system k).getD []))

/-! ## Life-cycle words (R470, R471) -/

def lcwPattern : Nat → W64
  | 1 => 0x5A5A5A5AA5A5A5A5
  | 2 => 0x3C3C3C3CC3C3C3C3
  | 3 => 0x6969696996969696
  | 4 => 0x0F0F0F0FF0F0F0F0
  | _ => 0x9999999966666666

def lcwDead : W64 := 0xFFFFFFFFFFFFFFFF

/-- Bits set in a word. -/
def popc (w : W64) : Nat := (List.range 64).foldl (fun a i => a + (if w.getLsbD i then 1 else 0)) 0

/-- The class of a word: BLANK, VALID with its state, DEAD, PARTIAL or CORRUPT. -/
inductive LcwKind where
  | blank
  | valid (st : Nat)
  | dead
  | part
  | corrupt
deriving DecidableEq, Repr

def lcwKind (w : W64) : LcwKind :=
  if w = 0 then .blank
  else match [1, 2, 3, 4, 5].find? (fun i => lcwPattern i == w) with
    | some i => .valid i
    | none => if 40 ≤ popc w then .dead else if popc w ≤ 31 then .part else .corrupt

/-- Transitions that R468 permits. -/
def succOk (a b : Nat) : Bool :=
  [(0, 1), (1, 2), (2, 3), (3, 4), (0, 5), (1, 5), (2, 5), (4, 5), (3, 5)].contains (a, b)

/-- Walks the words: the state reached, whether they are consistent, and what was seen. A PARTIAL word must be the
highest non-blank word and be named by a valid mark for its target. -/
def lcwWalk (mark : Mark) (markOk : Bool) : Nat → Nat → Bool → List W64 → Nat × Bool
  | _, st, _, [] => (st, true)
  | i, st, blankSeen, w :: t =>
    match lcwKind w with
    | .blank => lcwWalk mark markOk (i + 1) st true t
    | .dead => let (a, ok) := lcwWalk mark markOk (i + 1) st blankSeen t; (a, ok && !blankSeen)
    | .corrupt => let (a, _) := lcwWalk mark markOk (i + 1) st blankSeen t; (a, false)
    | .valid x =>
      let (a, ok) := lcwWalk mark markOk (i + 1) x blankSeen t
      (a, ok && !blankSeen && succOk st x)
    | .part =>
      let (a, ok) := lcwWalk mark markOk (i + 1) st blankSeen t
      (a, ok && !blankSeen && t.all (fun x => x == 0) && markOk && mark.word == i &&
        (w &&& lcwPattern mark.dst) == w)

/-- A mark verifies under the mark key of this start (R477). -/
def State.markOk (s : State) (m : Mark) : Bool := m.valid && m.mkey == s.markKey && s.bkp.bkekValid

/-- The current mark: of the two cells, the valid one with the higher SEQ, which was written last. -/
def State.curMark (s : State) : Mark := if s.markOk s.mram.mark then s.mram.mark else s.mram.markOld

def State.markValid (s : State) : Bool := s.markOk s.mram.mark || s.markOk s.mram.markOld

/-- The decoded state, and whether the words are consistent. -/
def State.lcwDecode (s : State) : Nat × Bool := lcwWalk s.curMark s.markValid 0 0 false s.otp.lcw

/-! ## The journal (R446-R449) -/

/-- The image is valid under the blob key of this start (R452). -/
def State.jValid (s : State) (j : Journal) : Bool := j.present && !j.torn && j.bk == s.systemW 8193

/-- Which journal slot is active: false JA, true JB; none where no image is valid. -/
def State.activeJ (s : State) : Option Bool :=
  let a := s.jValid s.mram.ja
  let b := s.jValid s.mram.jb
  if a && b then some (decide (s.mram.ja.seq.toNat < s.mram.jb.seq.toNat))
  else if a then some false
  else if b then some true
  else none

/-- The active image, or a blank one. -/
def State.image (s : State) : Journal :=
  match s.activeJ with
  | some true => s.mram.jb
  | some false => s.mram.ja
  | none => {}

/-- Writes an image into the journal slot that does not hold the active image. -/
def State.putImage (s : State) (j : Journal) : State :=
  match s.activeJ with
  | some false => { s with mram := { s.mram with jb := j } }
  | _ => { s with mram := { s.mram with ja := j } }

/-- Cell ranges that an image refers to: first cell and number. -/
def Journal.ranges (j : Journal) : List (Nat × Nat) := List.map (fun kd => (kd.2.cell, kd.2.run)) j.dir

def usesCell (u : List (Nat × Nat)) (c : Nat) : Bool := u.any (fun r => decide (r.1 ≤ c) && decide (c < r.1 + r.2))

/-- The first run of `n` free cells among `fuel` starts from `c` on. -/
def findCells (u : List (Nat × Nat)) (n : Nat) : Nat → Nat → Option Nat
  | 0, _ => none
  | fuel + 1, c =>
    if (List.range n).all (fun i => !usesCell u (c + i)) then some c else findCells u n fuel (c + 1)

/-- A run of `n` free cells, in ring order from cell `head` on (R651). -/
def ringCells (u : List (Nat × Nat)) (n head : Nat) : Option Nat :=
  (findCells u n (16385 - n - head) head) <|> findCells u n (min head (16385 - n)) 0

/-! ## The tamper anchor (R502) -/

/-- Writes the anchor from the present state, under the anchor key of this start, into the cell that does not hold the current
one; `f` sets what else changes. -/
def State.writeAnchorBy (s : State) (f : Anchor → Anchor) : State :=
  let j := s.image
  { s with mram := { s.mram with anchorOld := s.mram.anchor, anchor := f { s.mram.anchor with
      valid := true, lcs := s.lcy.st, seq := s.mram.anchor.seq + 1, counter := j.counter, stampNext := j.stampNext,
      ownerPkh := j.ownerPkh, enable := s.bkp.enable, response := s.bkp.response, swNormal := s.bkp.swNormal,
      bkSet := s.mram.anchor.bkSet || s.bkp.bkekValid, sticky := s.tmp.sticky, ak := s.systemW 8199 } } }

def State.writeAnchor (s : State) : State := s.writeAnchorBy id

def State.anchorValid (s : State) : Bool := s.mram.anchor.valid && s.mram.anchor.ak == s.systemW 8199

/-! ## Loading keys into Bond (R452) -/

/-- The reserved limit of an LMS/HSS key: the newest record of its slot and stamp (R335). -/
def resLimit (slot : Nat) (stamp : W32) (l : Tbl ResRec) : W64 :=
  (l.foldl (fun (b : ResRec) e =>
    if e.2.ok = true ∧ e.2.slot = slot ∧ e.2.stamp = stamp ∧ b.seq.toNat ≤ e.2.seq.toNat then e.2 else b) {}).limit

/-- Key bytes of a binding, with the length that a variable one records. -/
def algLen (a : W16) (klen : Nat) : Nat := (algBytes a).getD klen

/-- The key of a directory entry: its cells, or the derivation from its label (R444). -/
def State.entryKey (s : State) (d : DirEnt) : List Byte :=
  let data := (List.range d.run).flatMap (fun i => (Tbl.get {} s.mram.cells (d.cell + i)).data)
  if d.kind = 2 then
    Config.kmac256 (w256Bytes (s.systemW 8192)) data (8 * algLen d.alg d.klen)
      (ascii "FQDERIVE-01" ++ beBytes 2 d.alg.toNat ++ [BitVec.ofNat 8 d.usage.code])
  else data

/-- Loads a directory entry into its slot, owned by PF0 at its current generation. -/
def State.loadEntry (s : State) (k : Nat) (d : DirEnt) : State :=
  let key := s.entryKey d
  let n := runOf key.length
  let ks : KeySpec :=
    { usage := d.usage, alg := d.alg, level := d.level, fn := 0,
      origin := if d.kind = 1 then .owner else if d.kind = 2 then .root else .generated, data := key }
  let s1 := s.writeRun k n ks (s.fn 0).gen d.stamp true (List.range n)
  if d.kind = 3 then
    let lim := resLimit k d.stamp s.mram.res
    s1.updHss k (fun _ => { next := lim, limit := lim })
  else s1

/-- Loads every entry whose slot is FREE: at a start all of them, after a PF FLR those that were released (R441). -/
def loadEntries : Tbl DirEnt → State → State
  | [], s => s
  | (k, d) :: t, s =>
    loadEntries t (if d.kind ≠ 0 ∧ (s.slot k).st = .free then s.loadEntry k d else s)

/-! ## Commits (R450, R451, R460) -/

/-- What a commit builds: its image, the cells, and the cell ranges that the active image or the new keys take. -/
structure Build where
  img : Journal := {}
  cells : Tbl BlobCell := []
  used : List (Nat × Nat) := []
  head : Nat := 0

/-- Adds one key with the next stamp; none where the free cells do not hold it. -/
def addPut (bk : W256) (p : Put) (b : Build) : Option Build :=
  let n := runOf p.data.length
  match ringCells b.used n b.head with
  | none => none
  | some c =>
    let st := b.img.stampNext
    let d : DirEnt := { kind := p.kind, usage := p.usage, alg := p.alg, level := p.level, klen := p.klen, cell := c,
                        stamp := st, run := n }
    some
      { img := { b.img with dir := Tbl.set {} b.img.dir p.slot d, stampNext := if st + 1 = 0 then 1 else st + 1 }
        cells := (List.range n).foldl (fun t i => Tbl.set {} t (c + i)
          ({ stamp := st, slot := p.slot + i, data := slice p.data (64 * i) 64, bk := bk } : BlobCell)) b.cells
        used := (c, n) :: b.used
        head := (c + n) % 16384 }

def addPuts (bk : W256) : List Put → Build → Option Build
  | [], b => some b
  | p :: t, b =>
    match addPut bk p b with
    | some b' => addPuts bk t b'
    | none => none

/-- The image that a commit writes, and MRAM with its new cells, from the active image. -/
def State.commitImage (s : State) (c : Commit) : Option (Journal × Mram) :=
  let j := s.image
  let bk := s.systemW 8193
  let j1 := { j with
    present := true, torn := false, lcs := s.lcy.st, seq := j.seq + 1, counter := c.counter.getD j.counter,
    ownerPkh := c.ownerPkh.getD j.ownerPkh, att := c.att <|> j.att, bk := bk,
    dir := c.drops.foldl (fun d k => Tbl.erase d k) j.dir }
  (addPuts bk c.puts { img := j1, cells := s.mram.cells, used := j.ranges, head := s.mram.cellHead }).map
    (fun b => (b.img, { s.mram with cells := b.cells, cellHead := b.head }))

/-- Draws one word from part `n`, counting it in the part's ledger (R425). -/
def State.drawFrom (s : State) (n : Nat) : W512 × State :=
  let (w, s1) := s.draw
  (w, s1.updGen n (fun g => { g with generated := g.generated + 1, consumed := g.consumed + 1 }))

/-- Draws `k` words from part `n` whose values no output shows: the ledger and the counter of free values move (R425). -/
def State.drawMany (s : State) (n k : Nat) : State :=
  ({ s with freeCtr := s.freeCtr + k }).updGen n (fun g =>
    { g with generated := g.generated + BitVec.ofNat 64 k, consumed := g.consumed + BitVec.ofNat 64 k })

/-- Refresh words that a Render engine at frequency step `f` takes for `b` bytes: one for each CLK_FAB cycle (800 MHz) in
which it processes their 32-byte beats (R407; DEDUCED, log entry 109). -/
def renderWords (f b : Nat) : Nat :=
  let mhz := if f = 0 then 1600 else if f = 1 then 1400 else 1200
  ((b + 31) / 32 * 800 + mhz - 1) / mhz

/-! ### Life-cycle transitions (R473, R476, R477, R483) -/

/-- Writes a progress mark under MK into the cell that does not hold the current one (R477). -/
def State.writeMark (s : State) (src dst step word cand : Nat) : State :=
  { s with
    mram := { s.mram with markOld := s.mram.mark, mark :=
      { valid := true, src := src, dst := dst, step := step, word := word, seq := s.mram.mark.seq + 1, cand := cand,
        mkey := s.systemW 8200 } }
    lcy := { s.lcy with step := step } }

/-- The first word that is blank. -/
def Otp.blankWord (o : Otp) : Option Nat := (List.range 8).find? (fun i => o.lcw.getD i 0 == 0)

/-- The first candidate that is neither sealed nor abandoned. -/
def Otp.freeCand (o : Otp) : Option Nat := (List.range 4).find? (fun i => (o.dus.getD i {}).mark == 0)

def Otp.setCand (o : Otp) (i : Nat) (c : DusCand) : Otp := { o with dus := o.dus.set i c }

/-- Programs a DUS candidate with a word of the device expander (R407, R473): `fails` of them are abandoned first. Answers the state and the candidate. -/
def programDus : Nat → State → Option (State × Nat)
  | fails, s =>
    match s.otp.freeCand with
    | none => none
    | some i =>
      let (w, s1) := s.drawFrom 18
      let v : W256 := w.setWidth 256
      match fails with
      | 0 => some ({ s1 with otp := s1.otp.setCand i { value := v, mark := dusSeal } }, i)
      | f + 1 => programDus f { s1 with otp := s1.otp.setCand i { value := v, mark := 0xFFFFFFFF } }

/-- Programs the pattern of `dst` into the first usable word from `i` on (R472, R480): a word already VALID with it is
kept, one whose bits are all bits of the pattern (BLANK, or PARTIAL of this target) is completed, any other is made DEAD,
since programming only sets bits. `fails` words fail first. -/
def programWord (dst : Nat) : Nat → Nat → Nat → List W64 → Option (List W64)
  | 0, _, _, _ => none
  | fuel + 1, fails, i, l =>
    let w := l.getD i 0
    let p := lcwPattern dst
    if 8 ≤ i then none
    else if w = p then some l
    else if w ||| p = p ∧ fails = 0 then some (l.set i p)
    else if w ||| p = p then programWord dst fuel (fails - 1) (i + 1) (l.set i lcwDead)
    else programWord dst fuel fails (i + 1) (l.set i lcwDead)

/-- Steps 3-5 of R483: BKEK erased, the OTP burn region all ones, MRAM all zeros. -/
def State.scrapErase (s : State) : State :=
  { s with
    bkp := { s.bkp with bkek := 0, bkekValid := false }
    tmp := { s.tmp with bkekValid := false }
    otp := { s.otp with
      dus := List.replicate 4 { value := BitVec.allOnes 256, mark := 0xFFFFFFFF }, fserial := BitVec.allOnes 128, condKey := BitVec.allOnes 256,
      smbAddr := BitVec.allOnes 7, entropy := BitVec.allOnes 8, cutRep := BitVec.allOnes 16, cutProp := BitVec.allOnes 16,
      waitMax := BitVec.allOnes 16, burned := true, spares := [], retired := [] }
    mram := {} }

/-- The response to `lcy.advance`. -/
def State.answerLife (s : State) (mbx : Option (Nat × W32)) (r : Resp) : State :=
  match mbx with
  | some (n, seq) => s.answerPf n { r with seq := seq, gen := (s.fn 0).gen }
  | none => s

/-- ARMED (R476 step 1). -/
def State.armLife (s : State) (l : LifeReq) : State :=
  let s1 := (disablePairs (List.range 8) s).dropTxn.closeDebug
  let s2 := { s1 with lcy := { s1.lcy with pending := true, dst := l.dst } }
  s2.writeMark s.lcy.st l.dst 1 (s.otp.blankWord.getD 7) (if s.lcy.st = 1 ∧ l.dst = 2 then s.otp.freeCand.getD 0xFF else 0xFF)

/-- The new DUS stands in slot 8 197 until BK, AK and BRK of BUILD are derived from it (R445). -/
def State.rekeyBuild (s : State) : State :=
  let s1 := s.fillSystem 8193 (w256Bytes (s.blobKeyFor 2))
  let s2 := s1.fillSystem 8199 (w256Bytes (s.anchorKeyFor 2))
  (s2.fillSystem 8201 (w256Bytes (s.bootKeyFor 2))).clearSystem 8197

/-- Step 2 of R476, where the transition has it: none where every candidate is abandoned. -/
def State.dusStep (s : State) (l : LifeReq) : Option State :=
  if s.lcy.st = 1 ∧ l.dst = 2 then
    match programDus l.candFails s with
    | none => none
    | some (s1, i) => some (((s1.fillSystem 8197 (w256Bytes s1.otp.dusValue)).rekeyBuild).writeMark 1 2 2 (s1.otp.blankWord.getD 7) i)
  else some s

/-- A transition to SCRAP (R483). The response and the warm reset of R478 follow. -/
def State.runScrap (s : State) (l : LifeReq) (mbx : Option (Nat × W32)) : State :=
  let s1 := s.armLife l
  match programWord 5 9 l.wordFails (s.otp.blankWord.getD 8) s1.otp.lcw with
  | none => (s1.answerLife mbx { status := stOtpFail, detail := 8 }).report 132 0
  | some ws =>
    let s2 := ({ s1 with otp := { s1.otp with lcw := ws } }).scrapErase
    { s2 with lcy := { s2.lcy with st := 5, pending := false, resetDue := true } }.answerLife mbx { results := [5] }

/-- A commit that can start starts: one at a time, none while VIN is under its warning threshold, and none over a Seam that is
down (R451, R547, R17). A
transition is armed when its turn has come. -/
def State.startCommit (s : State) : State :=
  match s.commits with
  | [] => s
  | c :: t =>
    if s.pwr.vinWarn ∨ c.started = true ∨ s.seamDown = true then s
    else
      match c.life with
      | none => { s with commits := { c with started := true } :: t }
      | some l =>
        if l.dst = 5 then { s with commits := [] }.runScrap l c.mbx
        else
          let s1 := s.armLife l
          match s1.dusStep l with
          | none => ({ s1 with commits := t }.answerLife c.mbx { status := stOtpFail, detail := 9 }).report 132 0
          | some s2 => { s2 with commits := { c with started := true } :: t }

/-- Requests a commit. -/
def State.requestCommit (s : State) (c : Commit) : State :=
  ({ s with commits := s.commits ++ [c] }).startCommit

def releaseRuns : List Nat → State → State
  | [], s => s
  | k :: t, s => releaseRuns t (s.releaseRun k)

/-- Loads the keys of the entries named. -/
def loadPuts (j : Journal) : List Put → State → State
  | [], s => s
  | p :: t, s => loadPuts j t (s.loadEntry p.slot (Tbl.get {} j.dir p.slot))

/-- Passes the commit point: the image stands, and the change is applied to Bond (R450 step 4, R460). Slots that the
new keys take are wiped before they are loaded. -/
def State.applyCommit (s : State) (c : Commit) (j : Journal) (m : Mram) : State :=
  let s1 := ({ s with mram := m }).putImage j
  let s2 := releaseRuns c.drops s1
  let s3 := c.puts.foldl (fun x p => (List.range (runOf p.data.length)).foldl (fun y i => y.wipeSlot (p.slot + i)) x) s2
  let s4 := loadPuts j c.puts s3
  let s5 := match c.att with
    | some a => s4.fillSystem 8196 (leBytes 64 a.toNat)
    | none => s4
  s5.writeAnchor

/-! ## ERASE (R496) -/

/-- ERASE: BKEK is overwritten, BKEK_VALID cleared, and system slot 8 193 wiped while the compute die runs. -/
def State.erase (s : State) (src : Nat) : State :=
  let s1 := { s with bkp := { s.bkp with bkek := 0, bkekValid := false }
                     tmp := { s.tmp with bkekValid := false, erased := some src } }
  s1.wipeSlot 8193

end Sys2Proof.Machine
end

