-- ==== Sys2Proof/Machine/Grit.lean ====
section
/-!
DEFINITION. Grit (R405-R425, R654): sources, conditioner, expanders and mask generators, the Grit start, health failure,
and the commands and events of its rows.
-/
namespace Sys2Proof.Machine

/-! ## Instances (R414) -/

/-- The device expander, whose key queue serves keys, nonces and Bond. -/
def genDevice : Nat := 18
def genPool : Nat := 37

def genChild (n : Nat) : Nat := if n = 18 then 37 else n + 19

/-- Expanders in the order in which a Grit start seeds them (R418). -/
def seedOrder : List Nat := 18 :: List.range 18

/-- Words that a part holds when its queue or buffer is full (GRT_EXP_STATE.FILL, GRT_MG_STATUS.FILL). -/
def genCap (n : Nat) : Nat := if n = 18 then 256 else if n < 19 then 8 else 64

/-! ## Health -/

def State.srcHealthy (s : State) (i : Nat) : Bool := (s.src i).passed && !(s.src i).disabled

def State.healthy (s : State) : Nat := ((List.range 8).filter (fun i => s.srcHealthy i)).length

/-- What a draw from part `n` meets (R417, R421): nothing while it serves, and ST_RNG_FAIL while it is in FAIL. -/
def State.rngErr (s : State) (n : Nat) : Option Err :=
  if (s.gen n).st = .fail then some (stRngFail, s.healthy) else none

/-- Part `n` is not yet seeded: a draw waits (R420). -/
def State.rngWaits (s : State) (n : Nat) : Bool := (s.gen n).st == .unseeded

/-- What a command that needs words of the device key queue meets (R459 check 7). -/
def State.rngCmdErr (s : State) : Option Err :=
  if (s.gen genDevice).st = .unseeded then some (stRngNotReady, 0) else s.rngErr genDevice

/-! ## Failure and start -/

/-- A generator fails: its queue is discarded and counted. -/
def Gen.stop (g : Gen) (c : GCause) : Gen :=
  { g with st := .fail, cause := c, discarded := g.discarded + BitVec.ofNat 64 g.fill, fill := 0, fresh := false }

/-- Jobs whose draw waits on part `n` complete with ST_RNG_FAIL (R421). -/
def failWaiting (n : Nat) : List Job → State → State
  | [], s => s
  | j :: t, s => failWaiting n t (if j.waitOn = some n ∧ j.st ≠ .ended then s.failJob j.id stRngFail s.healthy else s)

/-- Draws that wait now, one for each job that stands at one (GRT_WAIT.WAITING). -/
def State.waitingDraws (s : State) : Nat := (s.que.jobs.filter (fun j => j.waitOn.isSome && j.st != .ended)).length

def failGens (c : GCause) : List Nat → State → State
  | [], s => s
  | n :: t, s => failGens c t (failWaiting n s.que.jobs (s.updGen n (fun g => g.stop c)))

/-- A lookaside job that waits in a Render engine whose mask feed has stopped completes with ST_RNG_FAIL (R191). -/
def failRenderJobs (q : Nat) : List Job → State → State
  | [], s => s
  | j :: t, s =>
    failRenderJobs q t
      (if j.kind = .render ∧ j.engine / 4 = q ∧ (j.st = .assigned ∨ j.st = .running ∨ j.st = .paused) then
        s.failJob j.id stRngFail s.healthy
      else s)

/-- A Render Quad's mask feed stops, or runs again (R191). -/
def State.setFeed (s : State) (q : Nat) (stall : Bool) : State :=
  let s1 := { s with rdr := { s.rdr with feedStall := Tbl.set false s.rdr.feedStall q stall } }
  if stall then (failRenderJobs q s1.que.jobs s1).flowAll else s1.dispatchAll.flowAll

def setFeeds (stall : Bool) : List Nat → State → State
  | [], s => s
  | q :: t, s => setFeeds stall t (s.setFeed q stall)

/-- Grit fails (R421). -/
def State.gritFail (s : State) : State :=
  let s1 := { s with grt := { s.grt with st := .fail }, bnd := { s.bnd with paused := true } }
  let s2 := failGens .health (List.range 38) s1
  (setFeeds true (List.range 9) s2).reportHeld 194 46

/-- A Grit start (R418): disable states, counts and working states are cleared. -/
def State.gritStart (s : State) : State :=
  let srcs : Tbl Source := []
  let gens := Tbl.map {} (fun _ (g : Gen) =>
    { g with st := .unseeded, cause := .none, discarded := g.discarded + BitVec.ofNat 64 g.fill, fill := 0, due := false,
             fresh := false, ageMs := 0, requests := 0 }) s.grt.gens
  let s1 := { s with
    grt := { s.grt with st := .unseeded, started := true, waitMax := max 10 (min 1000 s.otp.waitMax.toNat), srcs := srcs, gens := gens, seedTime := 0, turn := 0, condFailed := false }
    bnd := { s.bnd with paused := true } }
  (setFeeds true (List.range 9) s1).assertCause 194 46 false

/-- A generator is instantiated, or reseeded (R415, R418). -/
def Gen.seeded (g : Gen) (cap : Nat) (re : Bool) : Gen :=
  { g with st := .ok, cause := .none, fill := cap, generated := g.generated + BitVec.ofNat 64 (cap - g.fill), ageMs := 0,
           requests := 0, due := false, fresh := false, reseeds := if re then g.reseeds + 1 else g.reseeds }

/-- The draws that waited on the parts of the list go on. -/
def State.endWaits (s : State) (l : List Nat) : State :=
  { s with que := { s.que with jobs := s.que.jobs.map (fun j =>
    match j.waitOn with
    | some n => if l.contains n then { j with waitOn := none } else j
    | none => j) } }

/-- An expander and its mask generator are instantiated; Grit is OK when all 38 have been (R418). `t` is the time
since the start request in units of 10 µs. -/
def State.seedPart (s : State) (n t : Nat) : State :=
  let s1 := (s.updGen n (fun g => g.seeded (genCap n) false)).endWaits [n, genChild n]
  let s2 := (s1.drawFrom n).2.updGen (genChild n) (fun g => g.seeded 64 false)
  let s3 := if n < 9 then s2.setFeed n false else s2
  if (List.range 38).all (fun i => (s3.gen i).st == .ok) then
    ({ s3 with grt := { s3.grt with st := .ok, seedTime := BitVec.ofNat 16 (min t 65535) }
               bnd := { s3.bnd with paused := false } }).dispatchAll.flowAll
  else s3

/-! ## Bits for the conditioner (R410) -/

/-- Takes `k` pieces of 8 bits in turn from sources that hold 8 or more, starting at source `i`; none where they run out. -/
def takeBits : Nat → Nat → Nat → List Nat → Option (Nat × List Nat)
  | 0, _, i, l => some (i, l)
  | k + 1, fuel, i, l =>
    match (List.range 8).find? (fun d => decide (8 ≤ l.getD ((i + d) % 8) 0)) with
    | none => none
    | some d =>
      let j := (i + d) % 8
      takeBits k fuel ((j + 1) % 8) (l.set j (l.getD j 0 - 8))

def setBits : List (Nat × Nat) → State → State
  | [], s => s
  | (i, n) :: t, s => setBits t (s.updSrc i (fun x => { x with bits := n }))

/-! ## Events -/

/-- A window passes both health tests (R411), whose cutoffs are OTP trims (R408). -/
def State.windowPass (s : State) (w : WindowTest) : Bool :=
  decide (w.run < s.otp.cutRep.toNat) && decide (w.count < s.otp.cutProp.toNat)

/-- Grit fails when fewer than four of its sources remain healthy (R413, R421). Before four have passed a startup window it
is R419 that decides (DEDUCED, log entry 128). -/
def State.sourceLost (s : State) (before : Nat) : Bool :=
  decide (s.healthy < 4) && (s.grt.st == .ok || (s.grt.st == .unseeded && decide (4 ≤ before)))

/-- R411, R412, R418: a 128 µs window of source `i` ends, passed or failed. The custody die keeps the counts; what follows on
the compute die crosses Seam (R17). -/
def execSourceWindowEnd (i : Nat) (w : WindowTest) (s : State) : Host.Outcome State Fault Refusal :=
  let pass := s.windowPass w
  let x := s.src i
  if 8 ≤ i ∨ s.grt.started = false ∨ x.disabled = true then .next s
  else if pass then
    .next (s.updSrc i (fun y =>
      if y.passed then { y with window := y.window + 1, bits := y.bits + 1024 }
      else { y with window := y.window + 1, passed := true }))
  else
    let recent := (x.recent.filter (fun w => decide (x.window < w + 1048576))) ++ [x.window]
    let off : Bool := decide (3 ≤ recent.length)
    let s1 := s.updSrc i (fun y =>
      { y with window := y.window + 1, fails := satInc y.fails, recent := recent, disabled := off,
               bits := if off then 0 else y.bits })
    let s2 := s1.report 192 (38 + i)
    let s3 := if off then s2.report 193 (38 + i) else s2
    .next (if s1.seamDown then s1 else if off && s3.sourceLost s.healthy then s3.gritFail else s3)

/-- The expander that the next seed goes to: the next one to instantiate, or one whose reseed waits for a seed. -/
def State.seedTarget (s : State) : Option Nat :=
  (seedOrder.find? (fun n => (s.gen n).st == .unseeded)) <|>
    (seedOrder.find? (fun n => (s.gen n).due && !(s.gen n).fresh))

/-- R410, R418: the conditioner completes a seed; it instantiates an expander or is in hand for a reseed. A seed that a
Seam error takes, or a Seam that is down (R17), is discarded. `t`: time since the start request, 10 µs units. -/
def execSeedDone (lost : Bool) (t : Nat) (s : State) : Host.Outcome State Fault Refusal :=
  if s.grt.started = false ∨ s.grt.st = .fail ∨ s.healthy < 4 then .next s
  else
    match takeBits 144 0 s.grt.turn ((List.range 8).map (fun i => if s.srcHealthy i then (s.src i).bits else 0)) with
    | none => .next s
    | some (turn, l) =>
      match s.seedTarget with
      | none => .next s
      | some n =>
        let s1 := setBits (((List.range 8).filter (fun i => s.srcHealthy i)).map (fun i => (i, l.getD i 0))) s
        let s2 := { s1 with grt := { s1.grt with turn := turn } }
        if lost || s2.seamDown then .next s2
        else if (s2.gen n).st = .unseeded then .next (s2.seedPart n t)
        else .next (s2.updGen n (fun g => { g with fresh := true }))

/-- R419: 10 ms after a Grit start fewer than four sources have passed, and Grit fails. -/
def execGritStartTimeout (s : State) : Host.Outcome State Fault Refusal :=
  if s.grt.started = true ∧ s.grt.st = .unseeded ∧ s.healthy < 4 then .next s.gritFail else .next s

/-- R415: a generator reaches 2^16 requests, or 1 000 ms, and its reseed is due. -/
def execReseedDue (n : Nat) (byCount : Bool) (s : State) : Host.Outcome State Fault Refusal :=
  if n < 38 ∧ (s.gen n).st = .ok then
    .next (s.updGen n (fun g =>
      { g with due := true, requests := if byCount then 65536 else g.requests, ageMs := if byCount then g.ageMs else 1000 }))
  else .next s

/-- R415, R416: a reseed completes: an expander's from its seed, a mask generator's from a word of its parent. An
OVERDUE FAIL returns to OK. -/
def execReseedComplete (n : Nat) (s : State) : Host.Outcome State Fault Refusal :=
  let g := s.gen n
  let live : Bool := g.due && (g.st == .ok || (g.st == .fail && g.cause == .overdue))
  if n < 19 then
    if live && g.fresh then .next (s.updGen n (fun x => x.seeded (genCap n) true)) else .next s
  else if n < 38 then
    let p := if n = 37 then 18 else n - 19
    if live && (s.gen p).st == .ok then
      let s1 := (s.drawFrom p).2.updGen n (fun x => x.seeded 64 true)
      .next (if n < 28 then s1.setFeed (n - 19) false else s1)
    else .next s
  else .next s

/-- R416: a reseed overdue for 100 ms, or for 2^16 further requests, puts the generator into FAIL. -/
def execGenOverdue (n : Nat) (byCount : Bool) (s : State) : Host.Outcome State Fault Refusal :=
  if n < 38 ∧ (s.gen n).st = .ok ∧ (s.gen n).due = true then
    let s1 := s.updGen n (fun g =>
      { g.stop .overdue with requests := if byCount then 131072 else g.requests, ageMs := if byCount then g.ageMs else 1100 })
    let s2 := s1.report 196 n
    .next (if 19 ≤ n ∧ n < 28 then s2.setFeed (n - 19) true else s2)
  else .next s

/-- R191: a Render Quad's mask generator cannot deliver, or delivers again. -/
def execMaskFeedStall (q : Nat) (stall : Bool) (s : State) : Host.Outcome State Fault Refusal :=
  if 9 ≤ q then .next s
  else if stall then
    .next ((s.updGen (19 + q) (fun g => { g with stalls := satInc g.stalls })).setFeed q true)
  else if (s.gen (19 + q)).st = .ok then .next (s.setFeed q false)
  else .next s

/-! ## Commands -/

/-- `grt.status` (R654). -/
def execGrtStatus (h : Hdr) (s : State) : Host.Outcome State Fault Refusal :=
  .next (s.run h { smb := true, basic := true } (fun x =>
    let seeded := ((List.range 38).filter (fun n => (x.gen n).st == .ok)).length
    .ok x (pack ([.u 1 x.healthy, .u 1 seeded] ++ (List.range 8).map (fun i => .u 4 (x.src i).fails.toNat)))))

/-- `grt.kat` (R423, R424); `pass` is what the test gave. -/
def execGrtKat (h : Hdr) (target : Nat) (pass : Bool) (s : State) : Host.Outcome State Fault Refusal :=
  .next (s.run h { len := 1, lenX := 1 } (fun x =>
    if 19 < target then .err (stBadArg, 16)
    else
      let x1 := { x with grt := { x.grt with
        katTarget := target, katResult := if pass then 1 else 2, katCount := satInc x.grt.katCount } }
      if pass then .ok x1 []
      else if target = 0 then
        let x2 := ({ x1 with grt := { x1.grt with condFailed := true } }).gritFail
        .bad x2 (stRngFail, x2.healthy)
      else
        let n := if target = 19 then 18 else target - 1
        let x2 := (failGens .kat [n, genChild n] x1).report 195 n
        let x3 := if n < 9 then x2.setFeed n true else x2
        .bad x3 (stRngFail, x3.healthy)))

end Sys2Proof.Machine
end

