-- ==== Sys2Proof/Machine/Keys.lean ====
section
/-!
DEFINITION. Bond's commands and events: `key.info`, `key.free`, `key.import`, `key.update`, `key.attest`, `key.list`
(R440, R454-R466), slot wipes, refresh sweeps, commits and restores (R429, R430, R441, R450).
-/
namespace Sys2Proof.Machine

def GSt.code : GSt → Nat
  | .unseeded => 0
  | .ok => 1
  | .fail => 2

/-! ## `key.info`, `key.free`, `key.list` -/

def execKeyInfo (h : Hdr) (key : W64) (s : State) : Host.Outcome State Fault Refusal :=
  .next (s.run h { vf := true, len := 8, lenX := 8 } (fun x =>
    match x.handleSlot h.iss.fn key with
    | .error e => .err e
    | .ok k =>
      let b := x.slot k
      .ok x (pack [.u 1 b.usage.code, .u 2 b.alg.toNat, .u 1 b.fn, .u 1 b.gen.toNat, .u 1 b.origin.code])))

/-- `key.free` (R440). The removal of a persistent LMS/HSS key is committed in the background, and its state unit is
wiped (R351); its limit stays for the jobs dispatched before (R300, R332). -/
def execKeyFree (h : Hdr) (key : W64) (s : State) : Host.Outcome State Fault Refusal :=
  .next (s.run h { vf := true, len := 8, lenX := 8 } (fun x =>
    match x.handleSlot h.iss.fn key with
    | .error e => .err e
    | .ok k =>
      match x.freeKey k with
      | .error e => .err e
      | .ok (x1, lms) =>
        if lms then
          .ok ((x1.updHss k (fun h => h.dropTree)).requestCommit
            { drops := [k] }) []
        else .ok x1 []))

/-- One 24-byte entry of `key.list`. -/
def State.listEntry (s : State) (k : Nat) : List Byte :=
  let b := s.slot k
  leBytes 8 (s.handleOf k).toNat ++ [BitVec.ofNat 8 b.usage.code, BitVec.ofNat 8 b.level] ++ leBytes 2 b.alg.toNat ++
    leBytes 2 b.klen ++ [BitVec.ofNat 8 b.origin.code,
      BitVec.ofNat 8 ((if b.persist then 1 else 0) + (if 0 < b.epochRefs then 2 else 0) + (if b.txn then 4 else 0))] ++
    leBytes 4 b.stamp.toNat ++ leBytes 2 (min b.epochRefs 65535) ++ leBytes 2 0

/-- The slots that `key.list` names, in ascending order from `first`. -/
def State.listed (s : State) (first : Nat) : List Nat :=
  List.map (fun kb => kb.1) (s.bnd.slots.filter (fun kb =>
    decide (first ≤ kb.1) && kb.2.st == .allocated && decide (0 < kb.2.run) && kb.2.origin != .system && !isSystemSlot kb.1))

/-- The DTK public block of 1 640 bytes (R466). -/
def State.dtkBlock (s : State) : List Byte :=
  leBytes 4 0x4B545146 ++ [BitVec.ofNat 8 s.lcy.st, 0, 0, 0] ++ w256Bytes s.deviceId ++
    fit 1568 (Config.pubOf 0x20 3 ((s.system 8194).getD [])) ++ fit 32 (Config.x25519Pub ((s.system 8195).getD []))

def execKeyList (h : Hdr) (first : Nat) (out : Buf) (s : State) : Host.Outcome State Fault Refusal :=
  .next (s.run h { len := 24, lenX := 24, buf := true, bufX := true } (fun x =>
    if out.mbz ≠ 0 then .err (stBadArg, 36)
    else if first = 0xFFFF0000 then
      if out.len.toNat < 1640 then .err (stBadArg, 16)
      else x.answerBuf out x.dtkBlock (pack [.u 4 1, .u 4 0])
    else if 131071 < first ∨ out.len.toNat < 24 then .err (stBadArg, 16)
    else
      let l := x.listed first
      let n := min l.length (out.len.toNat / 24)
      x.answerBuf out ((l.take n).flatMap (fun k => x.listEntry k)) (pack [.u 4 n, .u 4 ((l.drop n).headD 131072)])))

/-! ## `key.import` (R462, R463) -/

/-- Allocates one slot run for a new key and answers its handle (R439, R463). -/
def State.addKey (x : State) (ks : KeySpec) : Ans :=
  match x.rngCmdErr with
  | some e => .err e
  | none =>
    match x.allocKey ks with
    | (some n, x1) => .ok x1 (leBytes 8 (x1.handleOf n).toNat)
    | (none, x1) => .bad x1 (stBondFull, 0)

/-- The blob's fields are consistent with R462 and with the arguments. -/
def blobOk (usage : Nat) (alg : W16) (b : List Byte) : Bool :=
  let len := fieldLe b 8 2
  decide (40 ≤ b.length) && fieldLe b 0 4 == 0x494B5146 && fieldLe b 4 1 == usage && decide (usage ≤ 3) &&
    (fieldLe b 5 1 == 1 || fieldLe b 5 1 == 2) && fieldLe b 6 2 == alg.toNat && b.length == 40 + len &&
    algLenOk alg len && fieldLe b 10 2 == 0 && algUsageOk alg (usageOf usage) &&
    !(algLevel1Only alg && fieldLe b 5 1 == 2)

/-- `key.import` (R462, R463). -/
def execKeyImport (h : Hdr) (usage : Nat) (alg : W16) (wrap : W64) (blob : Buf) (s : State) :
    Host.Outcome State Fault Refusal :=
  .next (s.run h { len := 32, lenX := 32, buf := true, bufX := true } (fun x =>
    match x.checkHandle 0 wrap .wrap (fun a => a == 0x0500) with
    | .error e => .err e
    | .ok k =>
      match blob.read 32 with
      | .error e => .err e
      | .ok b =>
        if blobOk usage alg b = false then .err (stBadArg, 32)
        else if algImport alg = false then .err (stUnsupported, 32)
        else
          let len := fieldLe b 8 2
          match Config.gcmOpen (x.keyBytes k) (slice b 12 12) (b.take 24 ++ w256Bytes x.deviceId) (slice b 24 len)
              (slice b (24 + len) 16) with
          | none => .err (stAuthFail, 0)
          | some key =>
            if Config.keyValid alg key = false then .err (stKeyInvalid, 0)
            else x.addKey { usage := usageOf usage, alg := alg, level := fieldLe b 5 1, fn := 0,
                            origin := .imported, data := fit len key }))

/-! ## `key.update` (R454-R460) -/

/-- An entry of a key update record: its offset in the record, and its fields (R455). -/
structure UpdEnt where
  off : Nat := 0
  type : Nat := 0
  usage : Nat := 0
  alg : W16 := 0
  slot : Nat := 0
  level : Nat := 0
  klen : Nat := 0
  hdr : List Byte := []
  data : List Byte := []
deriving DecidableEq, Repr

/-- The first offending byte of an entry's layout. -/
def UpdEnt.layoutErr (e : UpdEnt) : Option Nat :=
  let n := e.data.length
  if e.type = 0 ∨ 5 < e.type then some e.off
  else if 3 < e.usage ∨ (e.usage ≠ 0 ∧ (e.type = 2 ∨ 4 ≤ e.type)) then some (e.off + 1)
  else if e.alg ≠ 0 ∧ (e.type = 2 ∨ 4 ≤ e.type) then some (e.off + 2)
  else if e.slot ≠ 0 ∧ 4 ≤ e.type then some (e.off + 4)
  else if e.level ≠ 0 ∧ e.type ≠ 1 then some (e.off + 8)
  else if e.klen ≠ 0 ∧ (e.type = 2 ∨ 4 ≤ e.type) then some (e.off + 9)
  else if (e.type = 1 ∧ n < 17) ∨ (e.type = 2 ∧ n ≠ 0) ∨ (e.type = 3 ∧ (n = 0 ∨ 64 < n)) ∨ (e.type = 4 ∧ n ≠ 80) ∨
      (e.type = 5 ∧ n ≠ 32) then some (e.off + 10)
  else if allZero e.hdr 12 4 then none
  else some (e.off + 12)

/-- Parses `k` entries from the body; the offset of the first fault. -/
def parseEnts : Nat → Nat → List Byte → Except Nat (List UpdEnt)
  | 0, off, l => if l.isEmpty then .ok [] else .error off
  | k + 1, off, l =>
    if l.length < 16 then .error off
    else
      let n := fieldLe l 10 2
      if l.length < 16 + n then .error (off + 10)
      else
        let e : UpdEnt :=
          { off := off, type := fieldLe l 0 1, usage := fieldLe l 1 1, alg := BitVec.ofNat 16 (fieldLe l 2 2),
            slot := fieldLe l 4 4, level := fieldLe l 8 1, klen := fieldLe l 9 1, hdr := l.take 16, data := slice l 16 n }
        match e.layoutErr with
        | some o => .error o
        | none =>
          match parseEnts k (off + 16 + n) (l.drop (16 + n)) with
          | .ok t => .ok (e :: t)
          | .error o => .error o

/-- The signer that a state requires (R458). -/
def signerFor (st : Nat) : Nat := if st < 2 then 0 else if st = 3 then 2 else 1

/-- The states in which an entry type is accepted (R456). -/
def typeOk (type st : Nat) : Bool :=
  match type with
  | 1 => st == 0 || st == 1 || st == 3
  | 4 => st == 0 || st == 1 || st == 3
  | 5 => st == 3
  | _ => decide (st ≤ 4)

/-- The lengths of the sections (R454). -/
def updSigner (r : List Byte) : Nat := fieldLe r 49 1
def updPkLen (r : List Byte) : Nat := if updSigner r = 0 then 0 else 2689
def updTrLen (r : List Byte) : Nat := if fieldLe r 50 1 = 1 then 1600 else 0
def updBody (r : List Byte) : Nat := 128 + updPkLen r + updTrLen r
def updSigLen (r : List Byte) : Nat := if updSigner r = 0 then 0 else 4723

/-- Check 1 of R459: the entries, or the byte offset of the fault. An encrypted entry needs the TRANSPORT section. -/
def updParse (r : List Byte) : Except Nat (List UpdEnt) :=
  let n := fieldLe r 6 2
  let bl := fieldLe r 52 4
  if r.length < 128 then .error 0
  else if fieldLe r 0 4 ≠ 0x554B5146 then .error 0
  else if fieldLe r 4 2 ≠ 1 then .error 4
  else if n = 0 ∨ 64 < n then .error 6
  else if 4 < fieldLe r 48 1 then .error 48
  else if 2 < updSigner r then .error 49
  else if 1 < fieldLe r 50 1 then .error 50
  else if fieldLe r 51 1 ≠ 0 then .error 51
  else if r.length ≠ updBody r + bl + updSigLen r ∨ 65536 < r.length then .error 52
  else if allZero r 56 72 = false then .error 56
  else
    match parseEnts n (updBody r) (slice r (updBody r) bl) with
    | .error o => .error o
    | .ok es =>
      if updTrLen r = 0 ∧ es.any (fun e => e.type == 1 || e.type == 4) = true then .error 50 else .ok es

/-- The dual signature of a record: the key hash and both signatures (R458). -/
def State.sigOk (s : State) (ctx : String) (signer : Nat) (owner : W256) (body pk sig : List Byte) : Bool :=
  (Config.sha3 pk == (if signer = 1 then Config.vendorPkh else owner)) && Config.dualSigOk (ascii ctx) body pk sig &&
    decide (s.lcy.st ≠ 5)

/-- Key bytes that an entry places, by its binding. -/
def UpdEnt.keyLen (e : UpdEnt) : Nat := algLen e.alg e.klen

/-- Check 6 of R459 for one entry. -/
def UpdEnt.fieldErr (e : UpdEnt) (s : State) : Option Nat :=
  if e.type = 1 ∨ e.type = 3 then
    let var : Bool := algVariable e.alg
    if algKnown e.alg = false ∨ (e.type = 1 ∧ algInstall e.alg = false) ∨ (e.type = 3 ∧ algDerive e.alg = false) then
      some (e.off + 2)
    else if algUsageOk e.alg (usageOf e.usage) = false then some (e.off + 1)
    else if 7680 < e.slot + runOf e.keyLen then some (e.off + 4)
    else if e.type = 1 ∧ (e.level = 0 ∨ 2 < e.level ∨ (algLevel1Only e.alg = true ∧ e.level = 2)) then some (e.off + 8)
    else if (var = true ∧ (e.klen < 16 ∨ 64 < e.klen)) ∨ (var = false ∧ e.klen ≠ 0) then some (e.off + 9)
    else none
  else if e.type = 2 then
    let b := s.slot e.slot
    if 7679 < e.slot ∨ b.st ≠ .allocated ∨ b.run = 0 ∨ ¬ (b.origin = .owner ∨ b.origin = .root) then some (e.off + 4)
    else none
  else none

def firstErr {α : Type} (f : α → Option Nat) : List α → Option Nat
  | [] => none
  | e :: t => match f e with
    | some o => some o
    | none => firstErr f t

/-- The first entry whose SLOT an earlier entry has named. -/
def dupSlot : List Nat → List UpdEnt → Option Nat
  | _, [] => none
  | seen, e :: t =>
    if 4 ≤ e.type then dupSlot seen t
    else if seen.contains e.slot then some (e.off + 4)
    else dupSlot (e.slot :: seen) t

/-- The transport key K_T (R457). -/
def State.transportKey (s : State) (r : List Byte) : List Byte :=
  let tr := slice r (128 + updPkLen r) 1600
  let ct := tr.take 1568
  let xe := tr.drop 1568
  let ssM := Config.decaps 0x22 3 ((s.system 8194).getD []) ct
  let ssX := Config.x25519 ((s.system 8195).getD []) xe
  Config.kmac256 (ssX ++ ssM) (w256Bytes (Config.sha3 ct) ++ xe ++ slice r 8 8 ++ w256Bytes s.deviceId) 256
    (ascii "FQKU-TRANSPORT-01")

/-- The plaintext of entry `i`; none where its tag is wrong. Plaintext entries give their data. -/
def State.openEnt (s : State) (r : List Byte) (i : Nat) (e : UpdEnt) : Option (List Byte) :=
  if e.type = 1 ∨ e.type = 4 then
    let n := e.data.length - 16
    Config.gcmOpen (s.transportKey r) (beBytes 4 i ++ List.replicate 8 0) (r.take 128 ++ e.hdr) (e.data.take n) (e.data.drop n)
  else some e.data

def State.openEnts (s : State) (r : List Byte) : Nat → List UpdEnt → Option (List (UpdEnt × List Byte))
  | _, [] => some []
  | i, e :: t =>
    match s.openEnt r i e with
    | none => none
    | some d =>
      match s.openEnts r (i + 1) t with
      | some l => some ((e, d) :: l)
      | none => none

/-- The entry deletes or replaces the key whose run starts at its SLOT. -/
def UpdEnt.drops (e : UpdEnt) (s : State) : Bool :=
  decide (e.type ≤ 3) && (s.slot e.slot).st == .allocated && decide (0 < (s.slot e.slot).run)

/-- First slots of the keys that a record deletes or replaces. -/
def updDrops (s : State) (es : List UpdEnt) : List Nat := List.map (fun e => e.slot) (es.filter (fun e => e.drops s))

/-- Slots `k` to `k + n - 1` are free, or belong to the keys named. -/
def roomAt (s : State) (drops : List Nat) (k n : Nat) : Bool :=
  (List.range n).all (fun i =>
    (s.slot (k + i)).st == .free ||
      drops.any (fun d => decide (d ≤ k + i) && decide (k + i < d + (s.slot d).run)))

/-- Every key placed finds room in the state that the entries before it leave, where it stands in `freed` slots of the keys that
they and it delete or replace (R456). -/
def roomsOk (s : State) : List Nat → List UpdEnt → Bool
  | _, [] => true
  | freed, e :: t =>
    let now := if e.drops s then e.slot :: freed else freed
    ((e.type != 1 && e.type != 3) || roomAt s now e.slot (runOf e.keyLen)) && roomsOk s now t

def updPuts (l : List (UpdEnt × List Byte)) : List Put :=
  List.map (fun (p : UpdEnt × List Byte) =>
    ({ slot := p.1.slot, kind := if p.1.type = 1 then 1 else 2, usage := usageOf p.1.usage, alg := p.1.alg,
       level := if p.1.type = 1 then p.1.level else 1, klen := p.1.klen, data := p.2 } : Put))
    (l.filter (fun (p : UpdEnt × List Byte) => p.1.type == 1 || p.1.type == 3))

/-- Two runs that a record places overlap. -/
def putsClash : List UpdEnt → Bool
  | [] => false
  | e :: t =>
    ((e.type == 1 || e.type == 3) && t.any (fun f => (f.type == 1 || f.type == 3) &&
      decide (e.slot < f.slot + runOf f.keyLen) && decide (f.slot < e.slot + runOf e.keyLen))) || putsClash t

/-- The commit of a record that passes checks 1-12, or the status of the first check that fails (R459). -/
def State.updCheck (s : State) (r : List Byte) : Except Err Commit :=
  match updParse r with
  | .error o => .error (stBadArg, o)
  | .ok es =>
    let j := s.image
    let bodyEnd := updBody r + fieldLe r 52 4
    let signer := updSigner r
    if fieldLe r 48 1 ≠ s.lcy.st ∨ signer ≠ signerFor s.lcy.st ∨ es.any (fun e => !typeOk e.type s.lcy.st) = true then
      .error (stLifecycle, s.lcy.st)
    else if slice r 16 32 ≠ w256Bytes s.deviceId then .error (stDeviceId, 0)
    else if signer ≠ 0 ∧
        s.sigOk "FQKU-01" signer j.ownerPkh (r.take bodyEnd) (slice r 128 2689) (r.drop bodyEnd) = false then
      .error (stSigInvalid, 0)
    else if fieldLe r 8 8 ≤ j.counter.toNat then .error (stCounter, j.counter.toNat % 2 ^ 32)
    else
      match firstErr (fun e => e.fieldErr s) es <|> dupSlot [] es with
      | some o => .error (stBadArg, o)
      | none =>
        match s.rngCmdErr with
        | some e => .error e
        | none =>
          match s.openEnts r 0 es with
          | none => .error (stAuthFail, 0)
          | some l =>
            let drops := updDrops s es
            let c : Commit :=
              { counter := some (BitVec.ofNat 64 (fieldLe r 8 8)), drops := drops, puts := updPuts l,
                ownerPkh := (l.find? (fun p => p.1.type == 5)).map (fun p => BitVec.ofNat 256 (ofLe p.2)),
                att := (l.find? (fun p => p.1.type == 4)).map (fun p => BitVec.ofNat 512 (ofLe p.2)) }
            if l.any (fun p => p.1.type == 1 && (p.2.length != p.1.keyLen || !Config.keyValid p.1.alg p.2)) then
              .error (stKeyInvalid, 0)
            else if drops.any (fun k => decide (0 < (s.slot k).epochRefs)) then .error (stKeyInUse, 0)
            else if drops.any (fun k => (s.slot k).txn) then
              .error (stTxnConflict, ((drops.find? (fun k => (s.slot k).txn)).map s.keyLockIdx).getD 0)
            else if putsClash es || !roomsOk s [] es ||
                (s.commitImage c).isNone then .error (stBondFull, 0)
            else .ok c

/-- `key.update`: the checks of R459, and the commit of R450, which JOURNAL_COMMIT_DONE ends. -/
def execKeyUpdate (h : Hdr) (record : Buf) (s : State) : Host.Outcome State Fault Refusal :=
  .next (s.run h { len := 16, lenX := 16, buf := true, bufX := true } (fun x =>
    match record.read 16 with
    | .error e => .err e
    | .ok r =>
      match x.updCheck r with
      | .error e => .err e
      | .ok c =>
        match x.tmp.erased, h.iss with
        | some src, _ => .err (stTamperErased, src)
        | none, .pf n => .wait (x.requestCommit { c with mbx := some (n, h.seq) })
        | none, _ => .err (stNotPermitted, 0)))

/-! ## `key.attest` (R464, R465) -/

/-- The image that runs. -/
def State.runImage (s : State) : Option Image := if s.boot.image = 0 then s.boot.flashA else if s.boot.image = 1 then s.boot.flashB else none

def State.fwVersion (s : State) : W32 :=
  match s.runImage with
  | some i => i.version
  | none => 0

/-- LTH_PUTTY_VER: every engine runs the same patch set (R227). -/
def State.puttyVer (s : State) : W32 := (s.lath 0).puttyVer

/-- `tmp.status` reports the mirror. The measurement block of R464. -/
def State.measure (s : State) : List Byte :=
  leBytes 4 s.fwVersion.toNat ++ leBytes 4 s.puttyVer.toNat ++ leBytes 4 Config.lathRomVer.toNat ++
    leBytes 4 Config.primerVer.toNat ++ w256Bytes (Config.sha3 (match s.runImage with | some i => i.bytes | none => [])) ++
    [BitVec.ofNat 8 s.lcy.st, BitVec.ofNat 8 s.boot.image, 0, 0] ++ leBytes 4 s.tmp.sticky.toNat ++
    leBytes 4 s.lcy.scope.toNat ++ [BitVec.ofNat 8 s.grt.st.code, BitVec.ofNat 8 s.healthy, 0, 0]

/-- Mask words of the response: four Keccak units of two shares (R352, R369). -/
def attestWords : Nat := 8

/-- `key.attest`: a keyed job of the pool, whose mask generator must serve (R372). -/
def execKeyAttest (h : Hdr) (challenge : W256) (s : State) : Host.Outcome State Fault Refusal :=
  .next (s.run h { len := 32, lenX := 32 } (fun x =>
    match x.system 8196 with
    | none => .err (stHandleInvalid, 0)
    | some secret =>
      if x.rngWaits genPool then .err (stRngNotReady, 0)
      else
      match x.rngErr genPool with
      | some e => .err e
      | none =>
      let c := leBytes 8 x.image.counter.toNat
      let m := x.measure
      .ok (x.drawMany genPool attestWords) (c ++ m ++ fit 64 (Config.kmac256 secret (w256Bytes challenge ++ w256Bytes x.deviceId ++ m ++ c) 512
        (ascii "FQATTEST-01")))))

/-! ## Events of Bond -/

/-- R430: the first slot in release order that no job refers to is wiped and becomes FREE. -/
def execSlotWipe (s : State) : Host.Outcome State Fault Refusal :=
  match s.bnd.wipeQ.find? (fun k => (s.slot k).jobRefs == 0) with
  | some k => .next (s.wipeSlot k)
  | none => .next s

/-- The key shares of an epoch under a fresh word (R174). -/
def Epoch.refresh (e : Epoch) (w : W512) : Epoch :=
  if e.st = .empty then e else { e with key0 := e.key0 ^^^ w.setWidth 256, key1 := e.key1 ^^^ w.setWidth 256 }

/-- The key shares of every epoch are re-randomised with the Bond schedule, a word each (R174; DEDUCED, log entry 108). -/
def State.refreshSas (s : State) : State :=
  let live := (s.rdr.sas.filter (fun ka => ka.2.ep0.st != .empty)).length +
    (s.rdr.sas.filter (fun ka => ka.2.ep1.st != .empty)).length
  { s with
    freeCtr := s.freeCtr + 65536
    rdr := { s.rdr with sas := Tbl.map {} (fun a (x : Sa) =>
      { x with ep0 := x.ep0.refresh (Config.gritWord (s.freeCtr + 2 * a)),
               ep1 := x.ep1.refresh (Config.gritWord (s.freeCtr + 2 * a + 1)) }) s.rdr.sas } }.updGen genDevice (fun g =>
    { g with generated := g.generated + BitVec.ofNat 64 live, consumed := g.consumed + BitVec.ofNat 64 live })

/-- R429: a refresh sweep gives every slot a fresh word of the device key queue, and every epoch of the SA table (R174); while
Grit is failed, or the device expander cannot serve its draws (R417), it does not run. A slot that the state does not list is refreshed too: its data stays 0 (log entry 25). -/
def execRefreshSweep (s0 : State) : Host.Outcome State Fault Refusal :=
  if s0.bnd.paused = true ∨ (s0.gen genDevice).st ≠ .ok then .next s0
  else
    let s := s0.refreshSas
    .next { s with
      freeCtr := s.freeCtr + slotCount
      bnd := { s.bnd with
        slots := Tbl.map {} (fun k (b : BSlot) =>
          { b with s0 := b.s0 ^^^ Config.gritWord (s.freeCtr + k), s1 := b.s1 ^^^ Config.gritWord (s.freeCtr + k) }) s.bnd.slots
        pos := 0, sweeps := satInc s.bnd.sweeps }
      grt := { s.grt with gens := Tbl.upd {} s.grt.gens genDevice (fun g =>
        { g with generated := g.generated + BitVec.ofNat 64 slotCount, consumed := g.consumed + BitVec.ofNat 64 slotCount }) } }

/-- Ends the commit that is in progress with an error, and starts the next one. -/
def State.failCommit (s : State) (c : Commit) (e : Err) : State :=
  let s1 := { s with commits := s.commits.tail }
  let s2 := match c.mbx with
    | some (n, seq) => s1.answerPf n { status := e.1, gen := (s1.fn 0).gen, seq := seq, detail := BitVec.ofNat 32 e.2 }
    | none => s1
  let s3 := match c.job with
    | some id => s2.failJob id e.1 e.2
    | none => s2
  s3.startCommit

/-- Who waits for a commit that has passed its commit point: `key.update` returns the new COUNTER, `lms.keygen` the
handle in front of its other results. -/
def State.answerCommit (s : State) (c : Commit) : State :=
  let s1 := match c.mbx with
    | some (n, seq) =>
      s.answerPf n { gen := (s.fn 0).gen, seq := seq, results := leBytes 8 s.image.counter.toNat }
    | none => s
  match c.job, c.puts with
  | some id, p :: _ =>
    match s1.findJob id with
    | some j => s1.endJob id { j.res with result := leBytes 8 (s1.handleOf p.slot).toNat ++ j.res.result }
    | none => s1
  | _, _ => s1

/-! ### The end of a transition (R476) -/

/-- The empty image of R453, in place of image `j`. -/
def emptyImage (j : Journal) (dst : Nat) (owner : W256) (bk : W256) : Journal :=
  { present := true, lcs := dst, seq := j.seq + 1, counter := j.counter, stampNext := j.stampNext, ownerPkh := owner, bk := bk }

/-- The cells that image `j` refers to are zeroed. -/
def dropCells (j : Journal) (t : Tbl BlobCell) : Tbl BlobCell := t.filter (fun c => !usesCell j.ranges c.1)

/-- Steps 4 to 6 of R476, from the COMMITTED mark on: the other journal slot and the former cells, the word, DONE. None
where no word is left (R472). -/
def State.lifeTail (s : State) (src : Nat) (l : LifeReq) (former : Journal) (word cand : Nat) : Option State :=
  let keepB := s.activeJ == some true
  let other := if keepB then s.mram.ja else s.mram.jb
  let s1 := { s with mram := { s.mram with
    cells := dropCells other (dropCells former s.mram.cells)
    ja := if keepB then {} else s.mram.ja
    jb := if keepB then s.mram.jb else {} } }
  let s2 := s1.writeMark src l.dst 4 word cand
  match programWord l.dst 9 l.wordFails word s2.otp.lcw with
  | none => none
  | some ws =>
    let s3 := { s2 with otp := { s2.otp with lcw := ws }, lcy := { s2.lcy with st := l.dst } }
    let s4 := s3.writeMark src l.dst 5 word cand
    let s6 := (s4.writeAnchorBy (fun a => if l.dst = 3 then { a with ownerDseq := 0 } else a)).writeMark src l.dst 6 word cand
    some { s6 with lcy := { s6.lcy with pending := false } }

/-- The persistent slots of the state being left are released, and its attestation secret (R453). -/
def State.dropPersistent (s : State) : State :=
  (s.releaseWhere (fun _ b => b.persist)).clearSystem 8196

/-- The anchor names the state that the transition commits (R502). -/
def State.writeAnchorAs (s : State) (dst : Nat) : State :=
  s.writeAnchorBy (fun a => { a with lcs := dst })

/-- The active image under the blob key of TEST. -/
def State.testImage (s : State) : Journal :=
  let bk := s.blobKeyFor 1
  let ok := fun (j : Journal) => j.present && !j.torn && j.bk == bk
  let a := s.mram.ja
  let b := s.mram.jb
  if ok a && ok b then (if a.seq.toNat < b.seq.toNat then b else a) else if ok a then a else if ok b then b else {}

/-- Writes an image into the slot that does not hold `former`. -/
def State.putBeside (s : State) (former j : Journal) : State :=
  if former.present ∧ s.mram.ja = former then { s with mram := { s.mram with jb := j } }
  else { s with mram := { s.mram with ja := j } }

/-- The commit of a transition has passed its commit point (R476 step 3); the rest of the steps follow. -/
def State.endLife (s : State) (l : LifeReq) (mbx : Option (Nat × W32)) : State :=
  let src := s.lcy.st
  let m := s.mram.mark
  let former := if src = 1 ∧ l.dst = 2 then s.testImage else s.image
  let s1 := s.dropPersistent.putBeside former (emptyImage former l.dst l.owner (s.systemW 8193))
  let s2 := (s1.writeAnchorAs l.dst).writeMark src l.dst 3 m.word m.cand
  match s2.lifeTail src l former m.word m.cand with
  | none => (s2.answerLife mbx { status := stOtpFail, detail := 8 }).report 132 0
  | some s3 =>
    ({ s3 with lcy := { s3.lcy with resetDue := true } }).answerLife mbx { results := [BitVec.ofNat 8 l.dst] }

/-- R450: the image of the commit in progress is read back with a valid MAC, or the write has failed its retry. Nothing is
read back over a Seam that is down (R17), and a transition, whose marks follow, waits while VIN is below its warning threshold
(R547). -/
def execJournalCommitDone (ok : Bool) (s : State) : Host.Outcome State Fault Refusal :=
  match s.commits with
  | [] => .next s
  | c :: t =>
    if c.started = false ∨ (ok = true ∧ (s.seamDown = true ∨ (c.life.isSome = true ∧ s.pwr.vinWarn = true))) then .next s
    else
      match s.tmp.erased with
      | some src => .next (s.failCommit c (stTamperErased, src))
      | none =>
        if ok ∧ c.life.isSome = true then .next (({ s with commits := t }).endLife (c.life.getD {}) c.mbx).startCommit
        else if ok then
          match s.commitImage c with
          | none => .next (s.failCommit c (stBondFull, 0))
          | some (j, m) =>
            .next ((({ s with commits := t }).applyCommit c j m).answerCommit c).startCommit
        else .next ((s.failCommit c (stMramFail, 0)).report 130 0)

/-- R441: persistent slots released at a PF FLR are restored from the active image. -/
def execPersistRestore (s : State) : Host.Outcome State Fault Refusal :=
  if s.bnd.loaded = true ∧ (s.fn 0).flr = false ∧ s.tmp.erased = none then .next (loadEntries s.image.dir s) else .next s

end Sys2Proof.Machine
end

