-- ==== Sys2Proof/Machine/Admin.lean ====
section
/-!
DEFINITION. The administration commands of Arong (R137): device, functions, queues, transactions, ports, SAs, Float
budget and Scrim; the mailbox events (R117, R120, R123, R136).
-/
namespace Sys2Proof.Machine

/-! ## Device -/

/-- In-service units of a kind code. -/
def State.inServiceOf (s : State) (k : EKind) : List Nat := (List.range k.count).filter (fun n => s.inService k n)

/-- PWR_STATE.STATE (R568). -/
def PowerSt.code : PowerSt → Nat
  | .idle => 1
  | .dustEntry => 2
  | _ => 0

def bitmap (l : List Nat) : Nat := l.foldl (fun a n => a + 2 ^ n) 0

def execDevInfo (h : Hdr) (s : State) : Host.Outcome State Fault Refusal :=
  .next (s.run h { vf := true, smb := true, basic := true, primer := true, scrap := true } (fun x =>
    .ok x (pack [.u 2 Config.deviceCode.toNat, .u 1 Config.stepping.toNat, .u 1 x.lcy.st, .u 4 x.fwVersion.toNat,
      .u 4 Config.lathRomVer.toNat, .u 4 x.puttyVer.toNat, .b (w256Bytes x.deviceId)])))

/-- SCR_CAUSEg is not 0, as bit g (R542). -/
def State.causeSummary (s : State) : Nat := bitmap ((List.range 24).filter (fun g => s.cause g != 0))

def execDevStatus (h : Hdr) (s : State) : Host.Outcome State Fault Refusal :=
  .next (s.run h { smb := true, basic := true, primer := true, scrap := true } (fun x =>
    let kinds : List EKind := [.render, .lath, .hawk]
    let base : List Fld :=
      [.u 1 x.pwr.st.code, .u 1 x.grt.st.code] ++ kinds.map (fun k => .u 1 (x.inServiceOf k).length) ++
        [0, 36, 72].map (fun u => .u 1 (sparesOf x u).length) ++
        [.u 2 x.boot.reason.toNat, .u 4 x.tmp.sticky.toNat, .u 4 x.causeSummary]
    let more : List Fld := if h.level = 1 then kinds.map (fun k => .u 8 (bitmap (x.inServiceOf k))) else []
    .ok x (pack (base ++ more))))

/-- `dev.expert` (R128). -/
def execDevExpert (h : Hdr) (enable : Nat) (s : State) : Host.Outcome State Fault Refusal :=
  .next (s.run h { len := 1, lenX := 1 } (fun x =>
    if 1 < enable then .err (stBadArg, 16)
    else .ok { x with mbx := { x.mbx with expert := enable == 1 } } []))

/-- A 32-byte device-log record (R540). -/
def LogRec.bytes (r : LogRec) : List Byte :=
  leBytes 4 r.seq.toNat ++ leBytes 8 r.stamp.toNat ++ leBytes 2 r.cause.toNat ++ leBytes 2 r.unit.toNat ++
    [r.rank, r.rtype, r.flags, r.merges] ++ leBytes 4 r.causes.toNat ++ leBytes 4 r.detail.toNat ++ leBytes 4 0

/-- `dev.log` (R143, R540): the records from SEQ `first` on, oldest first. -/
def execDevLog (h : Hdr) (first : W32) (out : Buf) (s : State) : Host.Outcome State Fault Refusal :=
  let smb : Bool := h.iss == .smb
  let n := if smb then 4 else 24
  .next (s.run h { smb := true, basic := true, len := n, lenX := n, buf := !smb, bufX := !smb } (fun x =>
    let l := x.mram.log.filter (fun r => decide (first.toNat ≤ r.seq.toNat))
    let k := if smb then min 7 l.length else min l.length (out.len.toNat / 32)
    let next := match (l.drop k).head? with
      | some r => r.seq.toNat
      | none => (x.mram.logSeq + 1).toNat
    let head := pack [.u 4 k, .u 4 next]
    if smb then .ok x (head ++ (l.take k).flatMap LogRec.bytes)
    else if out.mbz ≠ 0 then .err (stBadArg, 36)
    else x.answerBuf out ((l.take k).flatMap LogRec.bytes) head))

/-! ## Functions (R655) -/

/-- Jobs of PF0 that are dispatched, without Horrov's own (R655). -/
def State.pfJobs (s : State) : Nat := (s.que.jobs.filter (fun j => j.fn == 0 && j.id.q != horrovQ)).length

def execFnInfo (h : Hdr) (vf : Nat) (s : State) : Host.Outcome State Fault Refusal :=
  .next (s.run h { vf := true, len := 1, lenX := 1 } (fun x =>
    let v := match h.iss with
      | .vf n => n
      | _ => vf
    let f := x.fn v
    let q := (x.queuesOf v).length
    if v ≠ 0 ∧ f.st = .absent then .ok x (pack [.u 1 0, .u 1 0, .u 2 0, .u 2 0, .u 1 0, .u 4 0])
    else if v = 0 then .ok x (pack [.u 1 f.gen.toNat, .u 1 1, .u 2 0, .u 2 x.pfJobs, .u 1 q, .u 4 0])
    else .ok x (pack [.u 1 f.gen.toNat, .u 1 f.st.code, .u 2 f.quota, .u 2 f.dispatched, .u 1 q, .u 4 f.perm.toNat])))

/-- `fn.quota`: a profile at the basic level, a VF and its quota at the expert level (R66-R69). -/
def execFnQuota (h : Hdr) (profile vf quota : Nat) (s : State) : Host.Outcome State Fault Refusal :=
  .next (s.runT h { t := true, len := 2, lenX := 4 }
    (.ok (if h.level = 1 then .fnQuotaVf vf quota else .fnQuotaProfile profile)))

def execFnPerm (h : Hdr) (vf : Nat) (perm : W32) (s : State) : Host.Outcome State Fault Refusal :=
  .next (s.runT h { t := true, len := 8, lenX := 8 } (.ok (.fnPerm vf perm)))

/-! ## Queues -/

def execQueAssign (h : Hdr) (q fn slot cls : Nat) (s : State) : Host.Outcome State Fault Refusal :=
  .next (s.runT h { t := true, len := 5, lenX := 5 } (.ok (.queAssign q fn slot cls)))

def execQueRelease (h : Hdr) (q : Nat) (s : State) : Host.Outcome State Fault Refusal :=
  .next (s.runT h { t := true, len := 2, lenX := 2 } (.ok (.queRelease q)))

/-- `que.class` (R100, R129): a profile, or a weight and five engine masks. -/
def execQueClass (h : Hdr) (cls profile weight : Nat) (masks : List W64) (s : State) : Host.Outcome State Fault Refusal :=
  .next (s.runT h { t := true, len := 2, lenX := 48 }
    (.ok (if h.level = 1 then .queClassMasks cls weight (fit5 masks) else .queClassProfile cls profile)))
where
  fit5 (l : List W64) : List W64 := (l ++ [0, 0, 0, 0, 0]).take 5

def execQueInfo (h : Hdr) (queue : Nat) (s : State) : Host.Outcome State Fault Refusal :=
  .next (s.run h { vf := true, len := 2, lenX := 2 } (fun x =>
    let q := match h.iss with
      | .vf v => ((x.queuesOf v).find? (fun kq => kq.2.slot == queue)).map (fun kq => kq.1)
      | _ => if queue ≤ 4095 then some queue else none
    match q with
    | none => .err (stBadArg, 16)
    | some k =>
      let u := x.queue k
      if u.assigned then
        .ok x (pack [.u 1 u.st.code, .u 1 u.cls, .u 1 u.slot, .u 1 u.sizeLog2, .u 2 u.pi.toNat, .u 2 u.ci.toNat])
      else .ok x (pack [.u 1 0, .u 1 0, .u 1 0xFF, .u 1 0, .u 2 0, .u 2 0])))

def execQueMove (h : Hdr) (q cls : Nat) (s : State) : Host.Outcome State Fault Refusal :=
  .next (s.runT h { t := true, len := 3, lenX := 3 } (.ok (.queMove q cls)))

/-! ## Transactions (R130-R136) -/

def execTxnBegin (h : Hdr) (timeout : Nat) (s : State) : Host.Outcome State Fault Refusal :=
  .next (s.run h { len := 4, lenX := 4 } (fun x =>
    if 60000 < timeout then .err (stBadArg, 16)
    else
      match x.mbx.txn with
      | some t => .err (stTxnOpen, t.id.toNat)
      | none =>
        let id := x.mbx.nextTxn
        let t : Txn := { id := id, remain := if timeout = 0 then 5000 else timeout }
        .ok { x with mbx := { x.mbx with txn := some t, nextTxn := if id + 1 = 0 then 1 else id + 1, expired := [] } }
          (leBytes 4 id.toNat)))

/-- `txn.commit` checks the staged commands again and waits for the commit epoch (R134). -/
def execTxnCommit (h : Hdr) (s : State) : Host.Outcome State Fault Refusal :=
  .next (s.run h {} (fun x =>
    match x.txnErr h.txn, x.mbx.txn, h.iss with
    | some e, _, _ => .err e
    | none, some t, .pf n =>
      match applyAll 0 t.staged x with
      | .error i => .bad x.endTxn (stTxnConflict, i)
      | .ok _ => .wait { x with mbx := { x.mbx with pend := some { slot := n, seq := h.seq, cmds := t.staged } } }
    | none, _, _ => .err (stTxnNone, 0)))

def execTxnRollback (h : Hdr) (s : State) : Host.Outcome State Fault Refusal :=
  .next (s.run h {} (fun x =>
    match x.txnErr h.txn, x.mbx.txn with
    | some e, _ => .err e
    | none, some t => .ok x.endTxn (leBytes 4 t.staged.length)
    | none, none => .err (stTxnNone, 0)))

def execTxnStatus (h : Hdr) (s : State) : Host.Outcome State Fault Refusal :=
  .next (s.run h {} (fun x =>
    match x.mbx.txn with
    | some t => .ok x (pack [.u 4 t.id.toNat, .u 4 t.staged.length, .u 4 t.remain])
    | none => .ok x (pack [.u 4 0, .u 4 0, .u 4 0])))

/-- R136: the transaction reaches its timeout. A commit that Horrov has started is carried out. -/
def execTxnTimeout (s : State) : Host.Outcome State Fault Refusal :=
  match s.mbx.txn, s.mbx.pend with
  | some t, none =>
    let s1 := s.endTxn
    .next (({ s1 with mbx := { s1.mbx with expired := s1.mbx.expired ++ [t.id] } }).report 642 0)
  | _, _ => .next s

/-- `txn.commit` is answered once every port has taken up the new state (R134): a pair that it enabled does so when its
standing grant is held. -/
def State.commitReady (s : State) (cmds : List TCmd) : Bool :=
  cmds.all (fun c => match c with
    | .portEnable n => !(s.pair n).enabled || s.standingHeld n
    | _ => true)

/-- The answer of a commit applied at epoch `e`. -/
def State.answerTxn (s : State) (p : PendCommit) (e : W64) : State :=
  ({ s with mbx := { s.mbx with pend := none } }).answerPf p.slot
    { gen := (s.fn 0).gen, seq := p.seq, results := pack [.u 8 e.toNat, .u 4 p.cmds.length] }

/-- Answers the `port.enable` commands whose standing grant is now held (R561). -/
def answerEnables : List (Nat × W32 × Nat) → State → State
  | [], s => s
  | (slot, seq, n) :: t, s =>
    answerEnables t
      (if s.standingHeld n then
        let s1 := { s with mbx := { s.mbx with waitEnable := s.mbx.waitEnable.erase (slot, seq, n) } }
        s1.answerPf slot { gen := (s1.fn 0).gen, seq := seq }
      else s)

/-- A standing grant has been given: ports train, and the commands that waited for it are answered (R23, R561). -/
def State.checkEnables (s : State) : State :=
  let s1 := (List.range 8).foldl (fun x n => x.trainPair n) s
  let s2 := answerEnables s1.mbx.waitEnable s1
  match s2.mbx.pend with
  | some p =>
    match p.done with
    | some e => if s2.commitReady p.cmds then serveBad 300 (s2.answerTxn p e) else s2
    | none => s2
  | none => s2

/-- R134: the commit epoch. Every staged command is applied, the locks end, and the commit is answered with the number
of the epoch and the commands applied. A command that has become impossible since the check rolls everything back. -/
def execCommitEpoch (s : State) : Host.Outcome State Fault Refusal :=
  match s.mbx.pend with
  | none => .next { s with mbx := { s.mbx with epoch := s.mbx.epoch + 1 } }
  | some p =>
    if p.done.isSome then .next { s with mbx := { s.mbx with epoch := s.mbx.epoch + 1 } }
    else
    let s0 := { s with mbx := { s.mbx with pend := none } }
    match applyAll 0 p.cmds s0 with
    | .error i =>
      .next (serveBad 300 (s0.endTxn.answerPf p.slot
        { status := stTxnConflict, gen := (s.fn 0).gen, seq := p.seq, detail := BitVec.ofNat 32 i }))
    | .ok s1 =>
      let s2 := { s1 with mbx := { s1.mbx with epoch := s1.mbx.epoch + 1 } }
      let s3 := s2.endTxn.dispatchAll.flowAll
      if s3.commitReady p.cmds then .next (serveBad 300 (s3.answerTxn p s2.mbx.epoch))
      else .next { s3 with mbx := { s3.mbx with pend := some { p with done := some s2.mbx.epoch } } }

/-! ## Ports -/

/-- `port.mode` (R148-R150). -/
def execPortMode (h : Hdr) (pair profile : Nat) (params : Buf) (s : State) : Host.Outcome State Fault Refusal :=
  .next (s.runT h { t := true, len := 2, lenX := 24, bufX := true }
    (if h.level = 1 then (params.read 24).map (fun b => .portModeParams pair b) else .ok (.portModeProfile pair profile)))

def execPortEnable (h : Hdr) (pair : Nat) (s : State) : Host.Outcome State Fault Refusal :=
  .next (s.runT h { t := true, len := 1, lenX := 1 } (.ok (.portEnable pair)))

def execPortDisable (h : Hdr) (pair : Nat) (s : State) : Host.Outcome State Fault Refusal :=
  .next (s.runT h { t := true, len := 1, lenX := 1 } (.ok (.portDisable pair)))

/-- Lanes trained of a port, and the sum of one of its counters over its sub-ports. -/
def State.lanesUp (s : State) (p : Nat) : Nat := (List.range 4).foldl (fun a i => a + (s.subPort p i).lanes) 0

def State.portCount (s : State) (p c : Nat) : Nat :=
  (List.range (subCount (s.pair (p % 8)).mode)).foldl (fun a i => a + Tbl.get 0 (s.subPort p i).cnt c) 0

def execPortStatus (h : Hdr) (port : Nat) (s : State) : Host.Outcome State Fault Refusal :=
  .next (s.run h { smb := true, len := 1, lenX := 1 } (fun x =>
    if 15 < port then .err (stBadArg, 16)
    else .ok x (pack [.u 1 (x.pair (port % 8)).mode, .u 1 (x.portState port), .u 1 (x.lanesUp port),
      .u 8 (x.portCount port cFecCorr), .u 8 (x.portCount port cFecUncorr)])))

/-- `port.recal` (R620): the lane's sub-port trains again, and the command completes when it is UP. -/
def execPortRecal (h : Hdr) (port lane disruptive : Nat) (s : State) : Host.Outcome State Fault Refusal :=
  .next (s.run h { len := 3, lenX := 3 } (fun x =>
    let n := port % 8
    if 15 < port then .err (stBadArg, 16)
    else if 3 < lane then .err (stBadArg, 17)
    else if disruptive ≠ 1 then .err (stBadArg, 18)
    else if (x.pair n).enabled = false then .err (stPortState, x.portState port)
    else if x.locked [.pair n] then .err (stTxnConflict, x.lockIdx [.pair n])
    else
      let sub := lane / lanesPer (x.pair n).mode
      let x1 := ((x.updSub port sub (fun p => { p with st := .training, lanes := 0 })).faultsSince x n).flowAll
      match h.iss with
      | .pf k => .wait { x1 with mbx := { x1.mbx with waitRecal := x1.mbx.waitRecal ++ [(k, h.seq, port, sub)] } }
      | _ => .err (stNotPermitted, 0)))

/-! ## SAs -/

/-- `sa.create` (R164, R169-R172). -/
def execSaCreate (h : Hdr) (dir sa pair suite : Nat) (params : Buf) (s : State) : Host.Outcome State Fault Refusal :=
  .next (s.runT h { t := true, len := 6, lenX := 24, bufX := true }
    (if h.level = 1 then (params.read 24).map (fun b => .saCreateParams dir sa b)
     else .ok (.saCreateProfile dir sa pair suite)))

/-- `sa.stage` (R175). -/
def execSaStage (h : Hdr) (dir sa : Nat) (key : W64) (an : Byte) (pn : W64) (ssci : W32) (salt : BitVec 96) (s : State) :
    Host.Outcome State Fault Refusal :=
  .next (s.runT h { t := true, len := 16, lenX := 48 }
    (.ok (if h.level = 1 then .saStageExpert dir sa key an pn ssci salt else .saStageBasic dir sa key)))

def execSaCommit (h : Hdr) (dir sa : Nat) (s : State) : Host.Outcome State Fault Refusal :=
  .next (s.runT h { t := true, len := 4, lenX := 4 } (.ok (.saCommit dir sa)))

def execSaDelete (h : Hdr) (dir sa : Nat) (s : State) : Host.Outcome State Fault Refusal :=
  .next (s.runT h { t := true, len := 4, lenX := 4 } (.ok (.saDelete dir sa)))

def execSaTimers (h : Hdr) (profile overlap drain : Nat) (s : State) : Host.Outcome State Fault Refusal :=
  .next (s.runT h { t := true, len := 1, lenX := 8 }
    (.ok (if h.level = 1 then .saTimersMs overlap drain else .saTimersProfile profile)))

/-- The state byte of a role (R181). -/
def Sa.roleByte (a : Sa) (dir : Nat) : Option Nat → Nat
  | none => 0
  | some i =>
    let e := a.ep i
    if dir = 1 ∧ e.st = .draining then 3 else if dir = 1 ∧ e.seen = true then 2 else 1

def execSaStatus (h : Hdr) (dir sa : Nat) (s : State) : Host.Outcome State Fault Refusal :=
  .next (s.run h { len := 4, lenX := 4 } (fun x =>
    let a := x.sa dir sa
    if 1 < dir then .err (stBadArg, 16)
    else if 16383 < sa ∨ a.present = false then .err (stSaInvalid, 0)
    else
      let roles := [a.current, a.staged, a.draining]
      let pn := match a.current with
        | some i => (a.ep i).nextPn.toNat
        | none => 0
      .ok x (pack (roles.map (fun r => .u 1 (a.roleByte dir r)) ++ roles.map (fun r => .u 1 (a.resAn r).toNat) ++ [.u 8 pn]))))

/-! ## Float -/

def execFltBudget (h : Hdr) (profile tokens : Nat) (caps : List Nat) (s : State) : Host.Outcome State Fault Refusal :=
  .next (s.runT h { t := true, len := 1, lenX := 10 }
    (.ok (if h.level = 1 then .fltBudgetTokens tokens caps else .fltBudgetProfile profile)))

def execFltStatus (h : Hdr) (s : State) : Host.Outcome State Fault Refusal :=
  .next (s.run h { smb := true } (fun x =>
    let f := x.flt
    .ok x (pack [.u 2 f.lb, .u 2 f.free, .u 2 f.granted, .u 2 f.inTransit, .u 1 (if f.limit then 1 else 0)])))

/-! ## Scrim -/

def execScrStatus (h : Hdr) (s : State) : Host.Outcome State Fault Refusal :=
  .next (s.run h { smb := true, basic := true } (fun x =>
    .ok x (pack [.u 4 x.causeSummary, .u 2 x.scr.total.toNat, .u 2 x.scr.evq.length])))

/-- The reporter of a cause reads 0b01: no unit of it stays at error. -/
def State.reporterNormal (s : State) (c : Nat) : Bool := s.scr.asserted.all (fun p => p.1 != c)

/-- `scr.clear` can clear the cause now: start-bound causes stay latched (R525, R530). -/
def State.clearable (s : State) (c : Nat) : Bool := s.reporterNormal c && !isStartBound c

def clrCauses : List Nat → State → State
  | [], s => s
  | c :: t, s =>
    clrCauses t { s with scr := { s.scr with cause := Tbl.upd 0 s.scr.cause (c / 32) (fun w => clrBit w (c % 32)) } }

/-- Removes cleared causes from a record. A WIRE record that is start-bound keeps its causes. -/
def Rec.without (r : Rec) (l : List Nat) : Rec :=
  let l' := if r.startBound && r.wire.isSome then l.filter (fun c => c % 32 != 31) else l
  { r with
    causes := l'.foldl (fun w c => if c / 32 = r.who.group then clrBit w (c % 32) else w) r.causes
    nums := r.nums.filter (fun c => !l'.contains c) }

def closeEmpty : List Rec → State → State
  | [], s => s
  | r :: t, s => closeEmpty t (if r.nums.isEmpty ∧ 4 ≤ r.rank ∧ r.rank ≤ 5 then s.closeRec r false else s)

/-- `scr.clear` (R530): a held record whose causes become empty closes. -/
def execScrClear (h : Hdr) (cause : Nat) (s : State) : Host.Outcome State Fault Refusal :=
  .next (s.run h { len := 2, lenX := 2 } (fun x =>
    if 767 < cause ∧ cause ≠ 0xFFFF then .err (stBadArg, 16)
    else
      let l := (if cause = 0xFFFF then List.range 768 else [cause]).filter (fun c => x.clearable c)
      let x1 := clrCauses (l.filter (fun c => (x.cause (c / 32)).getLsbD (c % 32))) x
      let x2 := { x1 with scr := { x1.scr with recs := x1.scr.recs.map (fun r => r.without l)
                                               devRec := x1.scr.devRec.map (fun r => r.without l) } }
      .ok (closeEmpty (x2.scr.recs ++ x2.scr.devRec.toList) x2) []))

/-- The ranks that VERBOSE has changed, as expert changes: they stand when the profile becomes 3. -/
def State.fixRanks (s : State) : State :=
  let add := fun (t : Tbl (Option Nat)) (c : Nat) =>
    if causeKnown c ∧ s.rankOf c ≠ defaultRank c ∧ rankFixed c = false then Tbl.set none t c (some (s.rankOf c)) else t
  if s.scr.profile = 2 then { s with scr := { s.scr with ranks := (List.range 768).foldl add s.scr.ranks } } else s

def scrRankErr (cause rank : Nat) : Option Err :=
  if causeKnown cause = false ∨ rankFixed cause = true then some (stNotPermitted, 0)
  else if rank = 0xFF then none
  else if rank < floorRank cause ∨ 7 < rank ∨
      ((rank = 2 ∨ rank = 3) ∧ ¬ (floorRank cause = 2 ∨ floorRank cause = 3)) ∨
      (rank = 3 ∧ ¬ ([8, 10, 11, 12, 13].contains (cause / 32) = true)) then some (stBadArg, 18)
  else none

/-- `scr.config` (R541). -/
def execScrConfig (h : Hdr) (profile cause rank quiet : Nat) (s : State) : Host.Outcome State Fault Refusal :=
  .next (s.run h { len := 1, lenX := 8 } (fun x =>
    if h.level = 1 then
      match (if cause = 0xFFFF ∧ rank = 0xFF then none else scrRankErr cause rank) with
      | some e => .err e
      | none =>
        if ¬ (quiet = 0 ∨ (100 ≤ quiet ∧ quiet ≤ 60000)) then .err (stBadArg, 20)
        else
          let x1 := x.fixRanks
          .ok { x1 with scr := { x1.scr with
            profile := 3, quietMs := quiet,
            ranks := if rank = 0xFF then x1.scr.ranks else Tbl.set none x1.scr.ranks cause (some rank) } } []
    else if 2 < profile then .err (stBadArg, 16)
    else .ok { x with scr := { x.scr with profile := profile, ranks := [], quietMs := if profile = 1 then 0 else 1000 } } []))

/-! ## Mailbox events -/

/-- R117, R122: a doorbell. `bad` is the CMD and SEQ of a frame whose command the catalogue does not hold, where the row says
so; else the frame in the slot tells. In a device that has no Horrov, and where the function's BARs do not decode (R51,
R60), the doorbell is ignored; one that names slot 0 or a slot that is not FREE is recorded. -/
def execMbxDoorbell (vf : Nat) (slot : Nat) (bad : Option (W16 × W32)) (s : State) : Host.Outcome State Fault Refusal :=
  if s.mbx.ready = false ∨ (vf ≠ 0 ∧ s.mbx.undercoat = true) ∨ s.barOpen vf = false then .next s
  else if vf = 0 then
    if slot = 0 ∨ 15 < slot ∨ (s.mslot slot).st ≠ .free then .next (s.report 38 0)
    else
      let s1 := s.updMslot slot (fun m => { m with st := .queued, bad := bad <|> m.badCmd slot })
      .next (serveBad 300 { s1 with mbx := { s1.mbx with order := s1.mbx.order ++ [slot] } }).activity
  else if (s.vmbx vf).slot.st ≠ .free then .next (s.report 38 vf)
  else .next (serveBad 300 (s.updVmbx vf (fun m =>
    { m with slot := { m.slot with st := .queued, bad := bad <|> m.slot.badCmd (16 + vf) } }))).activity

/-- R120: 1 is written to the DONE bits of `mask`. -/
def execMbxDoneClear (mask : W32) (s : State) : Host.Outcome State Fault Refusal :=
  if s.barOpen 0 = false then .next s
  else .next { s with mbx := { s.mbx with
    slots := Tbl.map {} (fun n m => if mask.getLsbD n && m.st == .done then { m with st := .free } else m) s.mbx.slots } }

/-- R120: 1 is written to VMB_DONE.DONE of VF `vf`. -/
def execVmbDoneClear (vf : Nat) (s : State) : Host.Outcome State Fault Refusal :=
  if s.barOpen vf = false then .next s
  else .next (s.updVmbx vf (fun m =>
    if m.slot.st = .done then { m with slot := { m.slot with st := .free } } else m))

/-- The effects so far of the admin command in slot `n` are undone (R123): a commit before its commit point is dropped,
an enabled pair is disabled again, and a transaction stays open. A lane goes on training (R620), and a test stays
queued (R612). -/
def State.undoCmd (s : State) (n : Nat) : State :=
  let drop := fun (t : TestEnt) =>
    if t.waiters.any (fun w => w.1 == n) then { t with waiters := t.waiters.filter (fun w => w.1 != n), late := true } else t
  let keep := fun (c : Commit) => match c.mbx with
    | some (k, _) => k != n
    | none => true
  let mine := (s.mbx.waitEnable.filter (fun w => w.1 == n)).map (fun w => w.2.2) ++
    (match s.mbx.pend with
     | some p => if p.slot = n ∧ p.done.isSome = true then (List.range 8).filter (fun k => p.cmds.contains (.portEnable k) && !s.standingHeld k)
       else []
     | none => [])
  let s1 := { s with
    commits := s.commits.filter keep
    lth := { s.lth with loadWait := match s.lth.loadWait with
      | some (k, q) => if k = n then none else some (k, q)
      | none => none }
    mbx := { s.mbx with
      pend := match s.mbx.pend with
        | some p => if p.slot = n then none else some p
        | none => none
      waitRecal := s.mbx.waitRecal.filter (fun w => w.1 != n)
      waitEnable := s.mbx.waitEnable.filter (fun w => w.1 != n) }
    plb := { s.plb with
      waitMargin := match s.plb.waitMargin with
        | some (k, q) => if k = n then none else some (k, q)
        | none => none
      testq := s.plb.testq.map drop } }
  (disablePairs mine s1).startCommit

/-- A transition of `lcy.advance` whose ARMED mark is written is under way for slot `n`: no time limit ends it (R123, R476). -/
def State.lifeRuns (s : State) (n : Nat) : Bool :=
  s.commits.any (fun c => c.started && c.life.isSome && (match c.mbx with
    | some (k, _) => k == n
    | none => false))

/-- A write to MRAM for slot `n` waits until VIN is above its warning threshold (R547). -/
def State.mramWaits (s : State) (n : Nat) : Bool :=
  s.pwr.vinWarn && s.commits.any (fun c => !c.started && (match c.mbx with
    | some (k, _) => k == n
    | none => false))

/-- The response to the command of slot `n` at its time limit: ST_ABORTED, DETAIL 5 (R123), and ST_MRAM_FAIL where its write to
MRAM still waits (R547). -/
def State.limitResp (s : State) (h : Hdr) (n : Nat) : Resp :=
  let r : Resp := { gen := (s.fn h.iss.fn).gen, seq := h.seq }
  if s.mramWaits n then { r with status := stMramFail } else { r with status := stAborted, detail := 5 }

/-- R123, R547: a command reaches its maximum time. The RUNNING admin command is undone; a command that Horrov starts only now
ends without any effect. An op-family job runs past its command. -/
def execCmdTimeLimit (h : Hdr) (s : State) : Host.Outcome State Fault Refusal :=
  let r := s.limitResp h (match h.iss with
    | .pf n => n
    | _ => 300)
  match h.iss with
  | .pf n =>
    if s.lifeRuns n then .next s
    else if s.mbx.running = n ∧ n ≠ 0 then .next (serveBad 300 ((s.undoCmd n).answerPf n r))
    else if s.canStartCmd h.iss then .next (serveBad 300 ((s.startCmd h.iss).answer h.iss r))
    else .next s
  | _ =>
    if s.canStartCmd h.iss ∧ h.iss ≠ .smb then .next (serveBad 300 ((s.startCmd h.iss).answer h.iss r)) else .next s

/-- R634: SMB_CLK is held low and the SMBus interface is reset. A request in transfer is lost; the responses of
completed requests stand. -/
def execSmbusTimeout (s : State) : Host.Outcome State Fault Refusal := .next s

end Sys2Proof.Machine
end

