-- ==== Sys2Proof/Machine/Func.lean ====
section
/-!
DEFINITION. Functions and the link (R43-R74): SR-IOV, function-level reset and generations, power states of functions,
link events and the pending interrupts.
-/
namespace Sys2Proof.Machine

/-! ## Interrupts (R57) -/

/-- Vector `v` of function `f` has a source: a queue vector has one only while its slot or page holds a queue (R57). -/
def State.hasSource (s : State) (f v : Nat) : Bool :=
  if v < (if f = 0 then 64 else 16) then (s.queuesOf f).any (fun kq => kq.2.slot == v) else true

/-- Sends every pending message of function `f` that can be sent now. -/
def State.sendPending (s : State) (f : Nat) : State :=
  let vs := (List.map (fun kv => kv.1) (((s.fn f).vecs).filter (fun kv => kv.2.pend))).filter (fun v =>
    s.msixOpen f v && s.hasSource f v)
  vs.foldl (fun x v =>
    (x.updFn f (fun y => { y with vecs := Tbl.upd {} y.vecs v (fun w => { w with pend := false }) })).wakeLink.emit (.msix f v))
    (if (s.fn f).pmePend && (s.fn f).bme then s.signalPme f else s)

/-- A configuration request that function `f` answers with Request Retry Status (R54, R56, R64): nothing else happens. A VF that
does not exist answers none. -/
def State.cfgRetry (s : State) (f : Nat) : State :=
  if s.pcie.linkUp ∧ (f = 0 ∨ (s.fn f).st ≠ .absent) then s.emit (.cfgRetry f) else s

/-- Configuration requests of function `f` take effect. -/
def State.cfgOpen (s : State) (f : Nat) : Bool := !(s.fn f).flr && !(s.fn f).rrs && (f == 0 || (s.fn f).st != .absent)

/-- R57: a vector, or the function, is unmasked, or MSI-X is enabled, and pending messages are sent. The mask bit of a vector
stands in BAR2, and the other two in configuration space. -/
def execMsixUnmask (f : Nat) (vec : Option Nat) (enable : Bool) (s : State) : Host.Outcome State Fault Refusal :=
  if vec.isSome ∧ s.barOpen f = false then .next s
  else if vec = none ∧ s.cfgOpen f = false then .next (s.cfgRetry f)
  else
    let s1 := s.updFn f (fun x =>
      match vec with
      | some v => { x with vecs := Tbl.upd {} x.vecs v (fun w => { w with masked := false }) }
      | none => if enable then { x with msixEn := true } else { x with msixMask := false })
    .next (s1.sendPending f)

/-! ## Records held back (R51, R59, R113) -/

/-- Writes held records in their original order, and returns the tokens of their jobs; CI does not move yet. -/
def writeHeld : List HeldRec → State → State
  | [], s => s
  | r :: t, s =>
    let s1 := if r.comp.gen = (s.fn r.fn).gen then s.putRecord r.fn r.id r.comp r.segs else s
    writeHeld t (if r.token then s1.returnToken r.fn else s1)

def coverAll : List Nat → State → State
  | [], s => s
  | q :: t, s => coverAll t (s.advanceCi q)

/-- Interrupts that came due in D3hot and that no CI advance has raised. -/
def raiseDue : List Nat → State → State
  | [], s => s
  | q :: t, s =>
    raiseDue t (if (s.queue q).irqDue then (s.updQueue q (fun x => { x with irqDue := false })).raiseQueueIrq q else s)

/-- In D0 with Bus Master Enable set, the records that function `f` holds are written in order, then the CI writebacks, then
the interrupts that came due (R113). -/
def State.flushHeld (s : State) (f : Nat) : State :=
  if (s.fn f).d3hot ∨ (s.fn f).bme = false then s
  else
    let mine := s.que.heldRecs.filter (fun r => r.fn == f)
    let qs := List.map (fun kq => kq.1) (s.queuesOf f)
    let s1 := { s with que := { s.que with heldRecs := s.que.heldRecs.filter (fun r => r.fn != f) } }
    raiseDue qs (coverAll qs (writeHeld mine s1))

/-- R51: Bus Master Enable is set: held records and pending messages leave, and the function's jobs proceed. -/
def execBusMasterEnable (f : Nat) (s : State) : Host.Outcome State Fault Refusal :=
  if s.cfgOpen f = false then .next (s.cfgRetry f)
  else .next ((((s.updFn f (fun x => { x with bme := true })).flushHeld f).sendPending f).assign)

/-! ## Function-level reset (R61-R66) -/

/-- Ends the work of a function at the start of its FLR (R63): a job that holds no started engine is discarded and its token
returns, a paused one is aborted on the WIPE reserve (R562), and a running one at its next safe point. -/
def discardJobs : List Job → State → State
  | [], s => s
  | j :: t, s =>
    discardJobs t
      (if j.st = .waiting ∨ j.st = .suspended ∨ j.st = .assigned then
        let s1 := if j.st = .assigned then s.leaveEngine j else s
        let s2 := ((s1.freeHolds j).dropRefs j.refs).dropJob j.id
        if j.id.q = horrovQ then s2 else s2.returnToken j.fn
      else if j.st = .ended then s
      else if j.st = .paused then s.borrowWipe j (stAborted, 3)
      else s.updJob j.id (fun x => { x with abort := some (stAborted, 3) }))

/-- The queues of `f` lose every entry that is not dispatched; a VF's queues leave with the end of its FLR (R63). Held records
are discarded, and the tokens of their jobs return (R62, R68). -/
def State.resetQueues (s0 : State) (f : Nat) : State :=
  let s := (s0.que.heldRecs.filter (fun r => r.fn == f && r.token)).foldl (fun x r => x.returnToken r.fn) s0
  { s with que := { s.que with
      queues := Tbl.map {} (fun _ (q : Queue) =>
        if q.assigned ∧ q.fn = f then { assigned := true, fn := f, slot := q.slot, cls := q.cls, leaving := decide (f ≠ 0) } else q)
        s.que.queues
      heldRecs := s.que.heldRecs.filter (fun r => r.fn != f) } }

/-- Moves the generation of a handle on. -/
def retag (h : W64) (g : Byte) : W64 :=
  BitVec.ofNat 64 (h.toNat % 4294967296 + 4294967296 * g.toNat + 1099511627776 * (h.toNat / 1099511627776))

/-- Bond slots of `f`: all released, except those that a current or draining epoch refers to, which are re-tagged (R34). -/
def State.resetSlots (s : State) (f : Nat) (g : Byte) : State :=
  let mine := fun (k : Nat) (b : BSlot) => b.fn == f && b.st == .allocated && b.origin != .system && !isSystemSlot k
  if f = 0 then
    let kept := fun (k : Nat) (b : BSlot) => mine k b && decide (0 < b.epochRefs)
    let s1 := s.releaseWhere (fun k b => mine k b && b.epochRefs == 0)
    { s1 with
      bnd := { s1.bnd with slots := Tbl.map {} (fun k (b : BSlot) => if kept k b then { b with gen := g } else b) s1.bnd.slots }
      rdr := { s1.rdr with sas := Tbl.map {} (fun _ (a : Sa) =>
        let re := fun (e : Epoch) => if e.st = .empty then e else { e with slot := retag e.slot g }
        { a with ep0 := re a.ep0, ep1 := re a.ep1 }) s1.rdr.sas } }
  else s.releaseWhere mine

/-- Discards the staged epochs of every SA (R63). -/
def dropStaged : List (Nat × Sa) → State → State
  | [], s => s
  | (k, a) :: t, s =>
    dropStaged t
      (match a.staged with
       | some i => s.emptySlot (k / 16384) (k % 16384) i
       | none => s)

/-- Abandons the mailbox of a function: its commands end without a response and its slots are FREE (R122). What a
command waits for goes on without it. -/
def State.resetMailbox (s : State) (f : Nat) : State :=
  if f = 0 then
    { s.endTxn with
      commits := s.commits.map (fun c => { c with mbx := none })
      lth := { s.lth with loadWait := none }
      plb := { s.plb with waitMargin := none, testq := s.plb.testq.map (fun t => { t with waiters := [] }) }
      mbx := { s.endTxn.mbx with slots := [], irqEn := false, order := [], running := 0, pend := none, waitEnable := [],
                                 waitRecal := [], expert := false } }
  else s.updVmbx f (fun _ => {})

/-- A VF's fields when its removal starts: its quota is 0, so that the quotas of drained and created VFs together keep the
bound of R67 (DESIGN CHOICE, log entry 93), its mask ends, and a creation that was to follow is withdrawn (R55). -/
def Fn.removed (x : Fn) : Fn :=
  { x with st := .drain, quota := 0, perm := 0, pendQuota := none, pendPerm := none, pendQueues := [], reenable := false }

/-- Starts the FLR of a function, or a VF's removal, whose state meanwhile is `st` (R61-R65). A second one is absorbed. -/
def State.startFlr (s : State) (f : Nat) (st : VfState) : State :=
  if (s.fn f).flr then (if f ≠ 0 ∧ st = .drain then s.updFn f Fn.removed else s)
  else
    let g := (s.fn f).gen + 1
    let s1 := s.updFn f (fun x =>
      let y : Fn :=
        { gen := g, st := if f = 0 then x.st else st, quota := x.quota, dispatched := x.dispatched, perm := x.perm,
          maxPayload := x.maxPayload, flr := true, rrs := true }
      if f ≠ 0 ∧ st = .drain then y.removed else y)
    let s2 := discardJobs (s1.que.jobs.filter (fun j => j.fn == f)) s1
    let s3 := s2.resetQueues f
    let s4 := (if f = 0 then dropStaged s3.rdr.sas s3 else s3)
    let s5 := (s4.resetMailbox f).resetSlots f g
    { s5 with spg := { s5.spg with ctxs := s5.spg.ctxs.filter (fun kc => kc.2.fn != f) } }

def startFlrs (st : VfState) : List Nat → State → State
  | [], s => s
  | v :: t, s => startFlrs st t (s.startFlr v st)

/-- VFs that exist. -/
def State.vfs (s : State) : List Nat :=
  List.map (fun kf => kf.1) (s.pcie.fns.filter (fun kf => kf.1 != 0 && kf.2.st != .absent))

/-- R55: every VF is removed. VF_LIMITED keeps its value until the next enable, which the spec leaves open (DESIGN CHOICE, log
entry 94). -/
def State.removeVfs (s : State) : State :=
  startFlrs .drain s.vfs { s with pcie := { s.pcie with vfEn := false } }

/-- The SR-IOV and ACS settings of PF0 return to their reset values with its FLR. PCIe keeps ASPM Control and Max Payload
Size through an FLR (PRESUMED, log entry 7). -/
def State.resetSriov (s : State) : State :=
  { s with pcie := { s.pcie with ari := false, numVfs := 0, pageSize := 1, vfBar0 := 0, vfBar2 := 0, acs := 0 } }

/-- R61-R65: an FLR of function `f`; PF0's removes every VF. A function that is in FLR, or not ready, answers the request
with Request Retry Status, and a second FLR is absorbed. -/
def execFlr (f : Nat) (s : State) : Host.Outcome State Fault Refusal :=
  if f ≠ 0 ∧ (s.fn f).st = .absent then .next s
  else if (s.fn f).flr ∨ (s.fn f).rrs then .next (s.cfgRetry f)
  else if f = 0 then .next ((s.removeVfs.startFlr 0 .flr).resetSriov).assign
  else .next (s.startFlr f .flr).assign

/-- Nothing of an old generation of `f` is left: no job, no wiping engine, no slot awaiting its wipe (R64). -/
def State.flrDrained (s : State) (f : Nat) : Bool :=
  let g := (s.fn f).gen
  s.que.jobs.all (fun j => !(j.fn == f && j.gen != g)) &&
    s.lth.engs.all (fun ke => !(ke.2.st == .wiping && ke.2.wipeFn == f && ke.2.wipeGen != g)) &&
    s.hwk.all (fun ke => !(ke.2.st == 5 && ke.2.wipeFn == f && ke.2.wipeGen != g)) &&
    s.bnd.wipeQ.all (fun k => !((s.slot k).fn == f && (s.slot k).gen != g))

/-- The queue changes that waited for the end of a VF's FLR are made (R66). -/
def applyQueues : List TCmd → State → State
  | [], s => s
  | c :: t, s =>
    applyQueues t (match applyT c s with
      | .ok (s', _) => s'
      | .error _ => s)

/-- R64, R66: the FLR of `f` completes. -/
def execFlrComplete (f : Nat) (s : State) : Host.Outcome State Fault Refusal :=
  let x := s.fn f
  if x.flr ∧ s.flrDrained f = true then
    if f = 0 then .next (s.updFn 0 (fun y => { y with flr := false, rrs := false }))
    else
      let s1 := { s with que := { s.que with
        queues := Tbl.map {} (fun _ (q : Queue) => if q.fn = f ∧ q.leaving = true then {} else q) s.que.queues } }
      let quota := x.pendQuota.getD x.quota
      let s2 := s1.updFn f (fun y =>
        if x.st = .drain then
          if x.reenable then { gen := y.gen, st := .active, quota := quota, perm := y.pendPerm.getD 0, rrs := true }
          else { gen := y.gen }
        else { y with flr := false, rrs := false, st := .active, quota := quota, perm := y.pendPerm.getD y.perm,
                      pendQuota := none, pendPerm := none, pendQueues := [] })
      let s3 := if x.st = .drain ∧ x.reenable = false then s2 else applyQueues x.pendQueues s2
      .next ({ s3 with pcie := { s3.pcie with flrDone := setBit s3.pcie.flrDone f } }.fnEvent 2)
  else .next s

/-! ## SR-IOV (R52-R56) -/

/-- Creates VF `v` with a quota: at once, or when its index has drained (R56). -/
def State.createVf (s : State) (q v : Nat) : State :=
  s.updFn v (fun x =>
    if x.st = .drain then { x with reenable := true, pendQuota := some q, pendPerm := none, pendQueues := [] }
    else { gen := x.gen, st := .active, quota := q, rrs := true })

def createVfs (q : Nat) : List Nat → State → State
  | [], s => s
  | v :: t, s => createVfs q t (s.createVf q v)

/-- R52-R54, R69: VF Enable is set. In Undercoat it creates no VF (R599). -/
def execVfEnable (s : State) : Host.Outcome State Fault Refusal :=
  if s.cfgOpen 0 = false then .next (s.cfgRetry 0)
  else if s.pcie.vfEn then .next s
  else if s.mbx.undercoat then
    .next { s with pcie := { s.pcie with vfEn := true, vfLimited := decide (0 < s.pcie.numVfs) } }
  else
    let page : Bool := s.pcie.pageSize == 1 || s.pcie.pageSize == 2 || s.pcie.pageSize == 4
    let want := min s.pcie.numVfs 255
    let n := if page then (if s.pcie.ari then want else min want 7) else 0
    let lim : Bool := !page || decide (n < s.pcie.numVfs)
    let s1 := { s with pcie := { s.pcie with vfEn := true, vfLimited := lim } }
    let s2 := setQuotas (fun _ => 0) s1.drainVfs s1
    .next (if n = 0 then s2 else createVfs (evenQuota n) ((List.range n).map (fun i => i + 1)) s2)

/-- R54: a created VF is ready. -/
def execVfReady (v : Nat) (s : State) : Host.Outcome State Fault Refusal :=
  if v ≠ 0 ∧ (s.fn v).st = .active ∧ (s.fn v).flr = false then .next (s.updFn v (fun x => { x with rrs := false }))
  else .next s

/-- R55: VF Enable is cleared. -/
def execVfDisable (s : State) : Host.Outcome State Fault Refusal :=
  if s.cfgOpen 0 = false then .next (s.cfgRetry 0)
  else if s.pcie.vfEn then .next s.removeVfs.assign else .next s

/-! ## D3hot (R59, R113) -/

def execD3hotEntry (f : Nat) (s : State) : Host.Outcome State Fault Refusal :=
  if s.cfgOpen f = false then .next (s.cfgRetry f)
  else if (s.fn f).d3hot then .next s
  else .next (s.updFn f (fun x => { x with d3hot := true, pmeSent := false, st := if f = 0 then x.st else .sleep }))

/-- R113: the function returns to D0: the held records, the writebacks, then the interrupts; all of them wait for Bus Master
Enable where it is 0 (R51). -/
def execD3hotExit (f : Nat) (s : State) : Host.Outcome State Fault Refusal :=
  if (s.fn f).d3hot then
    let s1 := s.updFn f (fun x => { x with d3hot := false, pmePend := false, st := if f = 0 then x.st else .active })
    .next (((s1.flushHeld f).sendPending f).assign)
  else .next s

/-! ## The link (R45-R47, R74) -/

/-- The effects of a link that goes down (R47): those of an FLR of PF0, and the configuration space of every function returns
to its reset values. FLIT reads 0 without a link (R43); LINK_SPEED, LINK_WIDTH and LINK_DEGRADED keep the values of the
last training, which R45 leaves open (DESIGN CHOICE, log entry 95). -/
def State.linkDown (s : State) : State :=
  let s1 := s.report 480 0
  let s2 := (if (s1.fn 0).flr then s1 else s1.removeVfs.startFlr 0 .flr).resetSriov.updFn 0 (fun x => { x with maxPayload := 0 })
  ({ s2 with pcie := { s2.pcie with linkUp := false, flit := false, inL1 := false, aspmL1 := false } }).assign

def execLinkDown (s : State) : Host.Outcome State Fault Refusal := .next s.linkDown

/-- R45: the link trains at a rate (LINK_SPEED code) and a width; at 64 GT/s always in flit mode (R43). -/
def execLinkChange (speed width : Nat) (flit : Bool) (s : State) : Host.Outcome State Fault Refusal :=
  let deg : Bool := decide (speed < 5 ∨ width < 16)
  let ev : Bool := deg || s.pcie.speed != speed || s.pcie.width != width || s.pcie.degraded
  let s1 := { s with pcie := { s.pcie with linkUp := true, speed := speed, width := width, flit := flit || speed == 6, degraded := deg, inL1 := false } }
  let s2 := if ev then s1.fnEvent 3 else s1
  .next ((List.range 256).foldl (fun x f => x.sendPending f) s2)

/-- R105: a DMA read of a job fails: the job ends with ST_DMA_ERROR. -/
def execDmaReadError (id : JobId) (e : DmaErr) (s : State) : Host.Outcome State Fault Refusal :=
  match s.findJob id with
  | some j =>
    if j.st = .running ∨ j.st = .paused then .next ((s.dmaFailed e).failJob id stDmaError e.code).assign
    else .next s
  | none => .next s

/-- R74: a receiver error (0), a replay (1), an entry to Recovery (2) or a poisoned inbound TLP (3). -/
def execPcieLinkError (kind : Nat) (s : State) : Host.Outcome State Fault Refusal :=
  let p := s.pcie
  match kind with
  | 0 => .next ({ s with pcie := { p with rxErr := satInc p.rxErr } }.fnEvent 0)
  | 1 => .next ({ s with pcie := { p with replay := satInc p.replay } }.fnEvent 0)
  | 2 => .next ({ s with pcie := { p with recovery := satInc p.recovery } }.fnEvent 0)
  | _ => .next (s.dmaFailed .poisoned)

end Sys2Proof.Machine
end

