-- ==== Sys2Proof/Machine/Body.lean ====
section
/-!
DEFINITION. The checks of a descriptor (R90): the common checks 1 to 6, the body checks of every family (R197, R288,
R320, R656, R388), the keys that a descriptor names (R432, R434, R436), and what its job asks of an engine: kind, grant
and effective level.
-/
namespace Sys2Proof.Machine

/-! ## Fields -/

def Desc.op (d : Desc) : Nat := d.opcode.toNat

/-- The little-endian field of `n` bytes at descriptor offset `off`, 32 or above. -/
def Desc.b (d : Desc) (off n : Nat) : Nat := (d.body.toNat / 256 ^ (off - 32)) % 256 ^ n

/-- A handle field. -/
def Desc.h (d : Desc) (off : Nat) : W64 := BitVec.ofNat 64 (d.b off 8)

def Desc.p (d : Desc) : Nat := d.param.toNat
def Desc.set (d : Desc) : Nat := d.p % 16
def Desc.lvl (d : Desc) : Nat := (d.p / 16) % 4
def Desc.hyb (d : Desc) : Bool := d.param.getLsbD 6
def Desc.dir (d : Desc) : Bool := d.param.getLsbD 7
/-- ALG of the Sponge opcodes, KDF of `kdf.derive`. -/
def Desc.alg (d : Desc) : Nat := d.p / 256
def Desc.phase (d : Desc) : Nat := d.p % 4
def Desc.ver (d : Desc) : Bool := d.param.getLsbD 2

/-- A field of a body: offset, bytes, and whether its value is allowed. -/
structure FldUse where
  off : Nat := 32
  len : Nat := 1
  ok : Bool := true
deriving DecidableEq, Repr

/-- A field that the opcode does not use and that must be 0. -/
def Desc.mbz (d : Desc) (off n : Nat) : FldUse := { off := off, len := n, ok := d.b off n == 0 }

/-- The lowest offending offset of a body (R90): of a field with a value that is not allowed, its first byte; of the
bytes that belong to no field, the byte that is not 0. -/
def Desc.bodyFault (d : Desc) (us : List FldUse) : Option Nat :=
  ((List.range 32).map (fun i => 32 + i)).find? (fun o =>
    us.any (fun u => u.off == o && !u.ok) ||
      (d.b o 1 != 0 && !us.any (fun u => decide (u.off ≤ o) && decide (o < u.off + u.len))))

/-- The first error of a list of checks in order. -/
def firstOf : List (Option Err) → Option Err
  | [] => none
  | some e :: _ => some e
  | none :: t => firstOf t

def errIf (b : Bool) (st : W16) (detail : Nat) : Option Err := if b then some (st, detail) else none

def badOff (o : Option Nat) : Option Err := o.map (fun n => (stBadDesc, n))

/-! ## Opcodes (R87, R88) -/

/-- Check 1 of R90. -/
def opReserved (op : Nat) : Bool :=
  (decide (2 ≤ op) && decide (op ≤ 0x0F)) || (decide (0x14 ≤ op) && decide (op ≤ 0x1F)) || op == 0x26 || op == 0x27 ||
    (decide (0x2B ≤ op) && decide (op ≤ 0x3F)) || op == 0x43 || op == 0x47 || op == 0x4B ||
    (decide (0x50 ≤ op) && decide (op ≤ 0x5F)) || (decide (0x65 ≤ op) && decide (op ≤ 0x6F)) || decide (0x7A ≤ op)

/-- Check 2 of R90 (R318, R357). -/
def State.opAllowed (s : State) (f op : Nat) : Bool :=
  f == 0 || !(op == 0x44 || op == 0x45 || op == 0x4F || (op == 0x61 && !(s.fn f).perm.getLsbD 1))

/-! ## Sizes -/

/-- ML-KEM: ek and ct; ML-DSA: pk and signature (R283). -/
def kemSizes : Nat → Nat × Nat
  | 1 => (800, 768)
  | 2 => (1184, 1088)
  | _ => (1568, 1568)

def dsaSizes : Nat → Nat × Nat
  | 1 => (1312, 2420)
  | 2 => (1952, 3309)
  | _ => (2592, 4627)

/-- SLH-DSA: pk and signature (R325). -/
def slhSizes (set : Nat) : Nat × Nat :=
  match (set - 1) % 6 with
  | 0 => (32, 7856)
  | 1 => (32, 17088)
  | 2 => (48, 16224)
  | 3 => (48, 35664)
  | 4 => (64, 29792)
  | _ => (64, 49856)

/-- HQC and Classic McEliece: pk and ct (R342, R345). -/
def hqcSizes : Nat → Nat × Nat
  | 1 => (2249, 4433)
  | 2 => (4522, 8978)
  | _ => (7245, 14421)

def mceSizes : Nat → Nat × Nat
  | 1 => (261120, 96)
  | _ => (1044992, 208)

/-- Digest bytes of a pre-hash function (R295). -/
def phLen : Nat → Nat
  | 0 => 32 | 1 => 48 | 2 => 64 | 3 => 32 | 4 => 64 | 5 => 32 | _ => 64

/-- Key bytes and binding of an AEAD value (R306). -/
def aeadLen : Nat → Nat
  | 0 => 16 | 1 => 32 | 2 => 20 | _ => 36

def aeadAlg (a : Nat) : W16 := BitVec.ofNat 16 (0x0101 + a)

/-- Block size or rate, and digest size, of a Sponge ALG code (R354). -/
def algBlock (a : Nat) : Nat :=
  if a ≤ 2 then 64 else if a ≤ 6 then 128 else if a = 0x11 then 144 else if a = 0x12 then 136 else if a = 0x13 then 104
  else if a = 0x14 then 72 else if a = 0x15 ∨ a = 0x17 ∨ a = 0x21 ∨ a = 0x23 then 168 else 136

def algDigest (a : Nat) : Nat :=
  match a with
  | 1 => 28 | 2 => 32 | 3 => 48 | 4 => 64 | 5 => 28 | 6 => 32 | 0x11 => 28 | 0x12 => 32 | 0x13 => 48 | 0x14 => 64
  | _ => 0

def algIsXof (a : Nat) : Bool := decide (0x15 ≤ a ∧ a ≤ 0x18)
def algIsCshake (a : Nat) : Bool := a == 0x17 || a == 0x18
def algIsKmac (a : Nat) : Bool := decide (0x21 ≤ a ∧ a ≤ 0x24)
def algListed (a : Nat) : Bool := isHmacAlg a || algIsXof a || algIsKmac a

/-- The core kind that a Sponge ALG code needs (R354). -/
def algCore (a : Nat) : EKind := if a < 0x10 then .sha2 else .keccak

/-- The hash of a `kdf.derive` construction (R373), as a Sponge ALG code. -/
def kdfAlg (k : Nat) : Nat :=
  match k with
  | 0x01 => 2 | 0x02 => 3 | 0x03 => 4 | 0x04 => 0x21 | 0x05 => 0x22 | 0x11 => 2 | 0x12 => 3 | 0x13 => 4 | 0x14 => 0x12
  | 0x15 => 0x14 | 0x16 => 2 | 0x17 => 4 | 0x21 => 2 | 0x22 => 3 | _ => 4

def kdfListed (k : Nat) : Bool :=
  decide (1 ≤ k ∧ k ≤ 5) || decide (0x11 ≤ k ∧ k ≤ 0x17) || decide (0x21 ≤ k ∧ k ≤ 0x23)

def kdfSalted (k : Nat) : Bool := decide (0x16 ≤ k)

/-- Public-key and signature bytes of a curve (R387). -/
def curvePk : Nat → Nat
  | 3 => 65 | 4 => 97 | _ => 32

def curveSig : Nat → Nat
  | 4 => 96 | _ => 64

def curveAlg (c : Nat) : W16 := BitVec.ofNat 16 (0x2000 + c)

/-- Hash bytes of the HASH field (R386). -/
def hashLen : Nat → Nat
  | 1 => 32 | 2 => 48 | _ => 64

def rsaAlg (bits : Nat) : W16 :=
  if bits = 2048 then 0x2011 else if bits = 3072 then 0x2012 else if bits = 4096 then 0x2013 else 0x2014

/-! ## LMS/HSS keys (R329-R331) -/

/-- The parameters that an LMS/HSS slot stores behind I and SEED: n, levels, heights and W values. -/
structure LmsPar where
  n : Nat := 32
  levels : Nat := 1
  hs : List Nat := []
  ws : List Nat := []
deriving DecidableEq, Repr

def lmsHeight (t : Nat) : Nat := if t = 5 ∨ t = 10 then 5 else 10

def otsW (t : Nat) : Nat :=
  match (t - 1) % 4 with
  | 0 => 1 | 1 => 2 | 2 => 4 | _ => 8

/-- LM-OTS chains of a W value (R339; for n = 24 as SP 800-208 gives, log entry 30). -/
def otsP (n w : Nat) : Nat :=
  if n = 32 then (match w with | 1 => 265 | 2 => 133 | 4 => 67 | _ => 34)
  else (match w with | 1 => 200 | 2 => 101 | 4 => 51 | _ => 26)

/-- The nine parameter bytes, LEVELS, LMS_TYPE and OTS_TYPE. -/
def lmsPar (n : Nat) (b : List Byte) : LmsPar :=
  let l := fieldLe b 0 1
  { n := n, levels := l, hs := (List.range l).map (fun i => lmsHeight (fieldLe b (1 + i) 1)),
    ws := (List.range l).map (fun i => otsW (fieldLe b (5 + i) 1)) }

/-- The parameters of the key in a slot, by its key bytes. -/
def lmsOf (key : List Byte) : LmsPar := let n := key.length - 25; lmsPar n (key.drop (16 + n))

/-- Signatures that the key can make. -/
def LmsPar.total (p : LmsPar) : Nat := 2 ^ (p.hs.foldl (fun a h => a + h) 0)

/-- Bytes of an HSS signature: per level an LMS signature, and the public key of each lower level. -/
def LmsPar.sigLen (p : LmsPar) : Nat :=
  4 + (p.levels - 1) * (24 + p.n) +
    (List.zipWith (fun h w => 12 + p.n * (otsP p.n w + 1 + h)) p.hs p.ws).foldl (fun a x => a + x) 0

/-- Stored tree levels, one state unit each (R338). -/
def LmsPar.units (p : LmsPar) : Nat := p.levels

/-! ## Output sizes fixed in advance (check 6) -/

def Desc.fixedOut (d : Desc) : Option Nat :=
  let n := d.inLen.toNat
  let aad := d.b 52 4
  let tag := d.b 56 1
  let s := d.set
  let kem : Bool := decide (1 ≤ s ∧ s ≤ 3)
  let k := d.b 46 2 / 8
  match d.op with
  | 0x10 => some (n + tag - aad)
  | 0x11 => some (n - aad - tag)
  | 0x12 => some tag
  | 0x20 => if kem then some (kemSizes s).1 else none
  | 0x21 => if kem then some (kemSizes s).2 else none
  | 0x23 => if kem then some ((kemSizes s).2 + 32) else none
  | 0x25 => if kem && d.dir then some ((kemSizes s).2 + if d.hyb then 32 else 0) else none
  | 0x28 => if kem then some (dsaSizes s).1 else none
  | 0x29 => if kem then some (dsaSizes s).2 else none
  | 0x40 => if 1 ≤ s ∧ s ≤ 12 then some (slhSizes s).1 else none
  | 0x41 => if 1 ≤ s ∧ s ≤ 12 then some (slhSizes s).2 else none
  | 0x44 => if s = 1 then some 60 else if s = 2 then some 52 else none
  | 0x48 => if kem then some (hqcSizes s).1 else none
  | 0x49 => if kem then some (hqcSizes s).2 else none
  | 0x4C => if s = 1 ∨ s = 2 then some (mceSizes s).1 else none
  | 0x4D => if s = 1 ∨ s = 2 then some (mceSizes s).2 else none
  | 0x60 =>
    if d.phase = 0 ∨ d.phase = 3 then
      (if algIsXof d.alg then some (d.b 48 4) else if isHmacAlg d.alg then some (algDigest d.alg) else none)
    else none
  | 0x62 => if (d.phase = 0 ∨ d.phase = 3) ∧ d.ver = false then some (d.b 42 2) else none
  | 0x63 => if (d.phase = 0 ∨ d.phase = 3) ∧ d.ver = false then some (d.b 42 2) else none
  | 0x70 => if 1 ≤ s ∧ s ≤ 4 then some (curvePk s) else none
  | 0x72 => if 2 ≤ s ∧ s ≤ 4 then some (curveSig s) else none
  | 0x74 => some k
  | 0x76 => some k
  | 0x77 => if d.b 50 1 = 0 then some (k - 2 * hashLen (d.b 41 1) - 2) else none
  | 0x78 => some k
  | 0x79 => some k
  | _ => none

/-! ## Lists (checks 4 and 5) -/

/-- The entries of a list up to LAST, or none where the list is malformed (R89). -/
def listOf : Nat → List SglEnt → Option (List SglEnt)
  | 0, _ => none
  | _ + 1, [] => none
  | k + 1, e :: t =>
    if e.len = 0 ∨ e.eflags.toNat / 2 ≠ 0 then none
    else if e.eflags.getLsbD 0 then some [e]
    else (listOf k t).map (fun l => e :: l)

/-- Reads one list: its entries, or the error of check 4. `off` is the offset of its pointer. -/
def readList (ptr : W64) (off : Nat) (r : SglRead) : Except Err (List SglEnt) :=
  if ptr.toNat % 16 ≠ 0 then .error (stBadDesc, off)
  else
    match r with
    | .fail e => .error (stDmaError, e.code)
    | .got l => match listOf 256 l with
      | some x => .ok x
      | none => .error (stBadDesc, off)

def sglSum (l : List SglEnt) : Nat := l.foldl (fun a e => a + e.len.toNat) 0

/-- Check 5 for one list: its sum in 64 bits equals the declared length. -/
def sumErr (l : List SglEnt) (len : W32) : Option Err :=
  if sglSum l = len.toNat then none else some (stLenMismatch, sglSum l % 4294967296)

/-- Checks 4 and 5: the gather and scatter lists of the descriptor. -/
def Desc.lists (d : Desc) (i o : SglRead) : Except Err (List SglEnt × List SglEnt) :=
  let ri := if d.flags.getLsbD 1 then readList d.inPtr 16 i else .ok []
  match ri with
  | .error e => .error e
  | .ok li =>
    match (if d.flags.getLsbD 2 then readList d.outPtr 24 o else .ok []) with
    | .error e => .error e
    | .ok lo =>
      match (if d.flags.getLsbD 1 then sumErr li d.inLen else none),
            (if d.flags.getLsbD 2 then sumErr lo d.outLen else none) with
      | some e, _ => .error e
      | none, some e => .error e
      | none, none => .ok (li, lo)

/-- FENCE and NOP, which use no list, no buffer and no body (R88). -/
def Desc.isNop (d : Desc) : Bool := d.opcode == 0 || d.opcode == 1

/-- Checks 1 to 6 of R90. Reserved bytes of the body are looked at with the body checks (check 7), where R288, R388 and R656 list
them (DEDUCED, log entry 102). PARAM of a FENCE or NOP may hold any value, as the fields that R88 names may (DESIGN CHOICE, log
entry 103). -/
def State.commonErr (s : State) (f : Nat) (d : Desc) (pushed : Bool) (i o : SglRead) :
    Except Err (List SglEnt × List SglEnt) :=
  if opReserved d.op then .error (stBadOpcode, 0)
  else if s.opAllowed f d.op = false then .error (stNotPermitted, 0)
  else if d.flags.toNat / 32 ≠ 0 ∨ (pushed = true ∧ (d.flags.getLsbD 1 = true ∨ d.flags.getLsbD 2 = true)) then
    .error (stBadDesc, 1)
  else if d.isNop then .ok ([], [])
  else
    match d.lists i o with
    | .error e => .error e
    | .ok l =>
      match d.fixedOut with
      | some n => if d.outLen.toNat < n then .error (stOutTooSmall, n) else .ok l
      | none => .ok l

/-! ## Body checks: lookaside AEAD (R196, R197) -/

def State.aeadErr (s : State) (cls : Nat) (d : Desc) : Option Err :=
  let op := d.op
  let tag := d.b 56 1
  let ivm := d.b 57 1
  let aad := d.b 52 4
  let n := d.inLen.toNat
  let data := if op = 0x11 ∨ op = 0x13 then n - tag else n
  let short : Bool := decide (op = 0x11 ∨ op = 0x13) && decide (n < tag)
  let aadOk : Bool := !short && (if op = 0x12 ∨ op = 0x13 then aad == data else decide (aad ≤ data))
  firstOf
    [ errIf (tag == 4 || tag == 8) stUnsupported 56,
      errIf (d.p != 0) stBadDesc 2,
      badOff (d.bodyFault
        [ { off := 32, len := 8 },
          { off := 40, len := 12, ok := ivm != 1 || d.b 40 12 == 0 },
          { off := 52, len := 4, ok := aadOk },
          { off := 56, ok := decide (12 ≤ tag ∧ tag ≤ 16) },
          { off := 57, ok := ivm == 0 || (ivm == 1 && (op == 0x10 || op == 0x12)) } ]),
      errIf (!s.hasEngine cls .render) stNoEngine 1 ]

/-! ## Lattice operations (R286-R290, R294, R295, R306, R307) -/

/-- A job with a Hawk part (R304). -/
def Desc.isHybrid (d : Desc) : Bool := d.op == 0x23 || d.op == 0x24 || (d.op == 0x25 && d.hyb)

/-- The job encapsulates. -/
def Desc.isEncaps (d : Desc) : Bool := d.op == 0x21 || d.op == 0x23 || (d.op == 0x25 && d.dir)

/-- Fields of the KEM bodies (R290). -/
def Desc.kemFields (d : Desc) : List FldUse :=
  let op := d.op
  let key : Bool := op == 0x22 || op == 0x24 || (op == 0x25 && !d.dir)
  let key2 : Bool := op == 0x23 || op == 0x24 || (op == 0x25 && !d.dir && d.hyb)
  let rk : Bool := op == 0x25
  let aead := d.b 48 1
  let om := d.b 49 1
  [ (if key then { off := 32, len := 8 } else d.mbz 32 8),
    (if key2 then { off := 40, len := 8 } else d.mbz 40 8),
    (if rk then { off := 48, ok := decide (aead ≤ 3) && (om != 3 || aead == 0) } else d.mbz 48 1),
    (if rk then { off := 49, ok := decide (om ≤ 3) } else d.mbz 49 1),
    (if rk then { off := 52, len := 2, ok := decide (d.b 52 2 ≤ 255) } else d.mbz 52 2),
    (if rk then { off := 54, len := 2, ok := decide (d.b 54 2 ≤ 1024) } else d.mbz 54 2) ]

/-- Fields of the signature bodies (R294, R327); `modes` is the number of MODE values. -/
def Desc.sigFields (d : Desc) (sign verify : Bool) (modes : Nat) : List FldUse :=
  let mode := d.b 40 1
  let ph := d.b 41 1
  let cl := d.b 44 2
  let both : Bool := sign || verify
  [ (if sign then { off := 32, len := 8 } else d.mbz 32 8),
    (if both then { off := 40, ok := decide (mode < modes) } else d.mbz 40 1),
    (if both then { off := 41, ok := if mode = 1 then decide (ph ≤ 6) else ph == 0 } else d.mbz 41 1),
    (if sign then { off := 42, ok := decide (d.b 42 1 ≤ 1) } else d.mbz 42 1),
    (if both then { off := 44, len := 2, ok := decide (cl ≤ 255) && (mode != 2 || cl == 0) } else d.mbz 44 2) ]

/-- The message part fits: exactly its size for a pre-hash or an external representative, any length otherwise (R295). -/
def Desc.sigLenOk (d : Desc) (before : Nat) : Bool :=
  let n := d.inLen.toNat
  let b := before + d.b 44 2
  match d.b 40 1 with
  | 0 => decide (b ≤ n)
  | 1 => n == b + phLen (d.b 41 1)
  | _ => n == b + 64

/-- IN_LEN of a lattice descriptor (R289, R295, R307). -/
def Desc.latLenOk (d : Desc) : Bool :=
  let n := d.inLen.toNat
  let (ek, ct) := kemSizes d.set
  let (pk, sg) := dsaSizes d.set
  match d.op with
  | 0x20 => n == 0
  | 0x21 => n == ek
  | 0x22 => n == ct
  | 0x23 => n == ek + 32
  | 0x24 => n == ct + 32
  | 0x25 => n == (if d.dir then ek else ct) + (if d.hyb then 32 else 0) + d.b 52 2 + d.b 54 2
  | 0x28 => n == 0
  | 0x29 => d.sigLenOk 0
  | _ => d.sigLenOk (pk + sg)

def State.latErr (s : State) (cls : Nat) (d : Desc) : Option Err :=
  let op := d.op
  let fields := if op < 0x28 then d.kemFields else d.sigFields (op == 0x29) (op == 0x2A) 3
  firstOf
    [ errIf (d.set == 0 || decide (3 < d.set)) stUnsupported 2,
      errIf (d.p / 256 != 0 || (if op = 0x2A then d.lvl != 0 else d.lvl == 0 || d.lvl == 3) ||
        (op != 0x25 && (d.hyb || d.dir))) stBadDesc 2,
      badOff (d.bodyFault fields),
      errIf (!d.latLenOk) stBadDesc 8,
      errIf (!s.hasEngine cls .lath) stNoEngine 2,
      errIf (d.isHybrid && !s.hasEngine cls .hawk) stNoEngine 3 ]

/-! ## Hash-based and code-based operations (R318-R320, R327, R330, R331, R343, R346) -/

def setMax (op : Nat) : Nat := if op < 0x44 then 12 else if op < 0x48 then 2 else if op < 0x4C then 3 else 2

/-- LEVEL that R319 requires. -/
def hcLevel (op : Nat) : Nat := if op = 0x42 ∨ op = 0x46 ∨ op = 0x4F then 0 else 1

/-- Typecodes of R329 by SET, in a field of level `i`. -/
def lmsTypeOk (set l i t : Nat) : Bool :=
  if i < l then (if set = 1 then t == 5 || t == 6 else t == 10 || t == 11) else t == 0

def otsTypeOk (set l i t : Nat) : Bool :=
  if i < l then (if set = 1 then decide (1 ≤ t ∧ t ≤ 4) else decide (5 ≤ t ∧ t ≤ 8)) else t == 0

/-- Fields of `lms.keygen` (R330). -/
def Desc.lmsFields (d : Desc) : List FldUse :=
  let l := d.b 40 1
  { off := 40, ok := decide (1 ≤ l ∧ l ≤ 4) } ::
    (List.range 4).flatMap (fun i =>
      [ { off := 41 + i, ok := lmsTypeOk d.set l i (d.b (41 + i) 1) },
        { off := 45 + i, ok := otsTypeOk d.set l i (d.b (45 + i) 1) } ])

/-- The cache entry that a descriptor names: the index of R347, 1 to 4. -/
def State.mceEntry (s : State) (n : Nat) : McE := Tbl.get {} s.lth.cache n

/-- Fields of the Classic McEliece bodies; an ENTRY or CTAG that names no loaded entry fails here (R346, R347). -/
def State.mceFields (s : State) (d : Desc) : List FldUse :=
  let op := d.op
  let e := d.b 40 1
  let x := s.mceEntry e
  let named : Bool := decide (1 ≤ e ∧ e ≤ 4) && x.valid && x.set == d.set && (d.set == 1 || e == 1)
  let cacheOk : Bool := if d.set = 1 then decide (1 ≤ e ∧ e ≤ 4) else e == 1
  [ (if op = 0x4E then { off := 32, len := 8 } else d.mbz 32 8),
    (if op = 0x4D then { off := 40, ok := e == 0 || named } else if op = 0x4F then { off := 40, ok := cacheOk } else d.mbz 40 1),
    (if op = 0x4D ∧ e ≠ 0 then { off := 44, len := 4, ok := !named || d.b 44 4 == x.tag.toNat } else d.mbz 44 4) ]

def State.hcFields (s : State) (d : Desc) : List FldUse :=
  match d.op with
  | 0x40 => []
  | 0x41 => d.sigFields true false 2
  | 0x42 => d.sigFields false true 2
  | 0x44 => d.lmsFields
  | 0x45 => [{ off := 32, len := 8 }]
  | 0x46 => [{ off := 40, len := 2 }, { off := 44, len := 4 }]
  | 0x4A => [{ off := 32, len := 8 }]
  | 0x48 => []
  | 0x49 => []
  | _ => s.mceFields d

def Desc.hcLenOk (d : Desc) : Bool :=
  let n := d.inLen.toNat
  match d.op with
  | 0x41 => d.sigLenOk 0
  | 0x42 => d.sigLenOk ((slhSizes d.set).1 + (slhSizes d.set).2)
  | 0x45 => true
  | 0x46 => decide (d.b 40 2 + d.b 44 4 ≤ n)
  | 0x49 => n == (hqcSizes d.set).1
  | 0x4A => n == (hqcSizes d.set).2
  | 0x4D => n == if d.b 40 1 = 0 then (mceSizes d.set).1 else 0
  | 0x4E => n == (mceSizes d.set).2
  | 0x4F => n == (mceSizes d.set).1
  | _ => n == 0

def State.hcErr (s : State) (cls : Nat) (d : Desc) : Option Err :=
  let op := d.op
  firstOf
    [ errIf (d.set == 0 || decide (setMax op < d.set)) stUnsupported 2,
      errIf (d.p / 64 != 0) stBadDesc 2,
      errIf (d.lvl == 2) stUnsupported 2,
      errIf (d.lvl != hcLevel op) stBadDesc 2,
      badOff (d.bodyFault (s.hcFields d)),
      errIf (!d.hcLenOk) stBadDesc 8,
      errIf (!s.hasEngine cls .lath) stNoEngine 2 ]

/-! ## Sponge opcodes (R356-R359, R362, R373, R374, R656) -/

def Desc.isFirst (d : Desc) : Bool := d.phase == 0 || d.phase == 1
def Desc.isLast (d : Desc) : Bool := d.phase == 0 || d.phase == 3

/-- PARAM of 0x60, 0x62 and 0x63 (R358). -/
def Desc.hashParamErr (d : Desc) : Option Err :=
  let a := d.alg
  firstOf
    [ errIf (!algListed a || (d.op == 0x62 && !isHmacAlg a)) stUnsupported 2,
      errIf ((d.p / 8) % 32 != 0 || (d.op == 0x60 && (algIsKmac a || d.ver)) || (d.op == 0x63 && !algIsKmac a)) stBadDesc 2 ]

/-- Fields of R359. -/
def Desc.hashFields (d : Desc) : List FldUse :=
  let a := d.alg
  let keyed : Bool := d.op != 0x60
  let cs : Bool := d.op == 0x60 && algIsCshake a && d.isFirst
  let ml := d.b 42 2
  [ (if keyed && d.isFirst then { off := 32, len := 8 } else d.mbz 32 8),
    (if d.isFirst then d.mbz 40 2 else { off := 40, len := 2, ok := decide (1 ≤ d.b 40 2 ∧ d.b 40 2 ≤ 448) }),
    (if keyed && d.isLast then
      { off := 42, len := 2, ok := decide (8 ≤ ml) && decide (ml ≤ if d.op = 0x62 then algDigest a else 256) }
     else d.mbz 42 2),
    (if cs then { off := 44, len := 2, ok := decide (d.b 44 2 ≤ 255) } else d.mbz 44 2),
    (if cs || (d.op == 0x63 && d.isFirst) then { off := 46, len := 2, ok := decide (d.b 46 2 ≤ 255) } else d.mbz 46 2),
    (if d.op == 0x60 && algIsXof a && d.isLast then
      { off := 48, len := 4, ok := decide (1 ≤ d.b 48 4 ∧ d.b 48 4 ≤ 1048576) } else d.mbz 48 4) ]

/-- The context that a descriptor names exists for its queue and holds its ALG (R362). -/
def State.ctxOk (s : State) (f q : Nat) (d : Desc) : Bool :=
  let c := s.ctx (d.b 40 2)
  c.live && c.fn == f && c.gen == (s.fn f).gen && c.q == q && c.alg.toNat == d.alg && c.opcode == d.opcode

/-- Contexts given to functions, and those of one function (R361). -/
def State.ctxCount (s : State) : Nat := (s.spg.ctxs.filter (fun kc => kc.2.alloc)).length

def State.ctxCountOf (s : State) (f : Nat) : Nat := (s.spg.ctxs.filter (fun kc => kc.2.alloc && kc.2.fn == f)).length

def State.ctxFull (s : State) (f : Nat) : Bool := decide (448 ≤ s.ctxCount ∨ 64 ≤ s.ctxCountOf f)

/-- The prefix fields, and the tag of a verification, that the input must cover. -/
def Desc.hashNeed (d : Desc) : Nat :=
  (if d.isFirst then d.b 44 2 + d.b 46 2 else 0) + (if d.ver && d.isLast then d.b 42 2 else 0)

def State.hashErr (s : State) (f q cls : Nat) (d : Desc) : Option Err :=
  firstOf
    [ d.hashParamErr,
      badOff (d.bodyFault d.hashFields),
      errIf (!d.isFirst && !s.ctxOk f q d) stBadDesc 40,
      errIf (!d.isFirst && (s.ctx (d.b 40 2)).verify != d.ver) stBadDesc 2,
      errIf (decide (d.inLen.toNat < d.hashNeed)) stBadDesc 8,
      errIf (d.phase == 1 && s.ctxFull f) stCtxFull 0,
      errIf (!s.hasEngine cls (algCore d.alg)) stNoEngine 4 ]

/-- `hash.import` (R368); it is given a pool Keccak core (log entry 31). -/
def State.importErr (s : State) (f cls : Nat) (d : Desc) : Option Err :=
  firstOf
    [ errIf (d.p != 0) stBadDesc 2,
      badOff (d.bodyFault []),
      errIf (d.inLen != 400) stBadDesc 8,
      errIf (s.ctxFull f) stCtxFull 0,
      errIf (!s.hasEngine cls .keccak) stNoEngine 4 ]

/-- Fields of R374. -/
def Desc.kdfFields (d : Desc) : List FldUse :=
  let aead := d.b 48 1
  let om := d.b 49 1
  let sl := d.b 50 2
  [ { off := 32, len := 8 }, { off := 40, len := 8 },
    { off := 48, ok := decide (aead ≤ 3) && (decide (om < 3) || aead == 0) },
    { off := 49, ok := decide (om ≤ 4) },
    { off := 50, len := 2, ok := decide (sl ≤ 128) && (kdfSalted d.alg || sl == 0) },
    { off := 52, len := 2, ok := decide (d.b 52 2 ≤ 255) },
    { off := 54, len := 2, ok := decide (d.b 54 2 ≤ 1024) } ]

def State.kdfErr (s : State) (cls : Nat) (d : Desc) : Option Err :=
  firstOf
    [ errIf (!kdfListed d.alg) stUnsupported 2,
      errIf (d.p % 256 != 0) stBadDesc 2,
      badOff (d.bodyFault d.kdfFields),
      errIf (d.inLen.toNat != d.b 50 2 + d.b 52 2 + d.b 54 2) stBadDesc 8,
      errIf (!s.hasEngine cls (algCore (kdfAlg d.alg))) stNoEngine 4 ]

/-! ## Hawk opcodes (R385-R388) -/

def Desc.hawkSecret (d : Desc) : Bool :=
  d.op == 0x70 || d.op == 0x71 || d.op == 0x72 || d.op == 0x74 || d.op == 0x77

def Desc.curveOk (d : Desc) : Bool :=
  let c := d.set
  match d.op with
  | 0x70 => decide (1 ≤ c ∧ c ≤ 4)
  | 0x71 => c == 1 || c == 3 || c == 4
  | 0x72 => decide (2 ≤ c ∧ c ≤ 4)
  | 0x73 => decide (2 ≤ c ∧ c ≤ 4)
  | _ => c == 0

def Desc.isRsa (d : Desc) : Bool := decide (0x74 ≤ d.op ∧ d.op ≤ 0x77)
def Desc.isBn (d : Desc) : Bool := d.op == 0x78 || d.op == 0x79
/-- ECDSA or Ed25519 signing or verification. -/
def Desc.isEcSig (d : Desc) : Bool := d.op == 0x72 || d.op == 0x73
def Desc.isEd (d : Desc) : Bool := d.isEcSig && d.set == 2
def Desc.isEcdsa (d : Desc) : Bool := d.isEcSig && d.set != 2
def Desc.modBits (d : Desc) : Nat := d.b 46 2

/-- MOD_BITS names a modulus of R383. -/
def Desc.modOk (d : Desc) : Bool :=
  let b := d.modBits
  match d.op with
  | 0x74 => b == 2048 || b == 3072 || b == 4096 || b == 8192
  | 0x77 => b == 2048 || b == 3072 || b == 4096 || b == 8192
  | 0x75 => decide (2048 ≤ b ∧ b ≤ 16384) && b % 64 == 0
  | 0x76 => decide (2048 ≤ b ∧ b ≤ 16384) && b % 64 == 0
  | _ => decide (64 ≤ b ∧ b ≤ 16384) && b % 64 == 0

/-- Check 3 of R388: the lowest of MODE, HASH and MOD_BITS that names no option of R383. -/
def Desc.hawkOptErr (d : Desc) : Option Err :=
  let mode := d.b 40 1
  let hash := d.b 41 1
  let modeBad : Bool :=
    if d.op = 0x70 then decide ((if d.set ≤ 2 then 0 else 1) < mode)
    else if d.isEd then decide (2 < mode)
    else if d.op = 0x74 ∨ d.op = 0x75 then decide (1 < mode) else false
  let hashBad : Bool :=
    if d.isEcdsa then decide (3 < hash) else if d.isRsa then decide (hash = 0 ∨ 3 < hash) else false
  firstOf
    [ errIf modeBad stUnsupported 40, errIf hashBad stUnsupported 41,
      errIf ((d.isRsa || d.isBn) && !d.modOk) stUnsupported 46 ]

/-- Check 4 of R388. -/
def Desc.hawkFields (d : Desc) : List FldUse :=
  let op := d.op
  let mode := d.b 40 1
  let x := d.b 42 2
  let el := d.b 48 2
  let od := d.b 50 1
  let key : Bool := op == 0x71 || op == 0x72 || op == 0x74 || op == 0x77
  [ (if key then { off := 32, len := 8 } else d.mbz 32 8),
    (if op = 0x70 ∨ d.isEd = true ∨ op = 0x74 ∨ op = 0x75 then { off := 40 } else d.mbz 40 1),
    (if d.isEcdsa || d.isRsa then { off := 41 } else d.mbz 41 1),
    (if d.isEd then { off := 42, len := 2, ok := if mode = 0 then x == 0 else if mode = 1 then decide (1 ≤ x ∧ x ≤ 255) else decide (x ≤ 255) }
     else if op = 0x76 ∨ op = 0x77 then { off := 42, len := 2, ok := decide (x ≤ 1024) } else d.mbz 42 2),
    (if (op = 0x74 ∨ op = 0x75) ∧ mode = 0 then { off := 44, len := 2, ok := decide (d.b 44 2 ≤ hashLen (d.b 41 1)) } else d.mbz 44 2),
    (if d.isRsa || d.isBn then { off := 46, len := 2 } else d.mbz 46 2),
    (if op = 0x75 ∨ op = 0x76 then { off := 48, len := 2, ok := decide (1 ≤ el ∧ el ≤ 32) }
     else if op = 0x78 then { off := 48, len := 2, ok := decide (1 ≤ el ∧ el ≤ 2048) } else d.mbz 48 2),
    (if op = 0x77 then { off := 50, ok := decide (od ≤ 1) } else d.mbz 50 1),
    (if op = 0x77 ∧ od = 1 then { off := 51, ok := decide (16 ≤ d.b 51 1 ∧ d.b 51 1 ≤ 64) } else d.mbz 51 1) ]

/-- The message input of Ed25519 and ECDSA behind `before` bytes (R387). -/
def Desc.ecMsgOk (d : Desc) (before : Nat) : Bool :=
  let n := d.inLen.toNat
  if d.isEd then
    (if d.b 40 1 = 2 then n == before + d.b 42 2 + 64 else decide (before + d.b 42 2 ≤ n))
  else if d.b 41 1 = 0 then decide (before + 28 ≤ n ∧ n ≤ before + 64)
  else decide (before ≤ n)

def Desc.hawkLenOk (d : Desc) : Bool :=
  let n := d.inLen.toNat
  let k := d.modBits / 8
  let h := hashLen (d.b 41 1)
  let el := d.b 48 2
  match d.op with
  | 0x70 => n == 0
  | 0x71 => n == curvePk d.set
  | 0x72 => d.ecMsgOk 0
  | 0x73 => d.ecMsgOk (curvePk d.set + curveSig d.set)
  | 0x74 => n == h
  | 0x75 => n == 2 * k + el + h
  | 0x76 => decide (k + el + d.b 42 2 ≤ n ∧ n ≤ k + el + d.b 42 2 + (k - 2 * h - 2))
  | 0x77 => n == d.b 42 2 + k
  | 0x78 => n == 2 * k + el
  | _ => n == 3 * k

def State.hawkErr (s : State) (cls : Nat) (d : Desc) : Option Err :=
  firstOf
    [ errIf (!d.curveOk) stUnsupported 2,
      errIf (d.p / 64 != 0 || (if d.hawkSecret then d.lvl == 0 || d.lvl == 3 else d.lvl != 0)) stBadDesc 2,
      d.hawkOptErr,
      badOff (d.bodyFault d.hawkFields),
      errIf (!d.hawkLenOk) stBadDesc 8,
      errIf (!s.hasEngine cls .hawk) stNoEngine 3 ]

/-- The body checks of check 7 other than the handle checks. -/
def State.bodyErr (s : State) (f q cls : Nat) (d : Desc) : Option Err :=
  let op := d.op
  if op < 0x10 then none
  else if op < 0x20 then s.aeadErr cls d
  else if op < 0x40 then s.latErr cls d
  else if op < 0x60 then s.hcErr cls d
  else if op = 0x61 then s.importErr f cls d
  else if op = 0x64 then s.kdfErr cls d
  else if op < 0x70 then s.hashErr f q cls d
  else s.hawkErr cls d

/-! ## The keys that a descriptor names (R432, R434, R436) -/

/-- A handle that a descriptor names, the usage it needs and the bindings that are accepted. -/
structure KeyReq where
  h : W64 := 0
  usage : Usage := .enc
  lo : W16 := 0
  hi : W16 := 0

/-- The binding is accepted. -/
def KeyReq.algOk (r : KeyReq) (a : W16) : Bool := decide (r.lo.toNat ≤ a.toNat ∧ a.toNat ≤ r.hi.toNat)

def Desc.req (d : Desc) (off : Nat) (u : Usage) (a : Nat) : KeyReq :=
  { h := d.h off, usage := u, lo := BitVec.ofNat 16 a, hi := BitVec.ofNat 16 a }

def Desc.keyReqs (d : Desc) : List KeyReq :=
  let vu : Usage := if d.ver then .dec else .enc
  match d.op with
  | 0x10 => [{ h := d.h 32, usage := .enc, lo := 0x0101, hi := 0x0104 }]
  | 0x11 => [{ h := d.h 32, usage := .dec, lo := 0x0101, hi := 0x0104 }]
  | 0x12 => [{ h := d.h 32, usage := .enc, lo := 0x0101, hi := 0x0104 }]
  | 0x13 => [{ h := d.h 32, usage := .dec, lo := 0x0101, hi := 0x0104 }]
  | 0x22 => [d.req 32 .dec (0x1000 + d.set)]
  | 0x23 => if d.b 40 8 = 0 then [] else [d.req 40 .dec 0x2001]
  | 0x24 => [d.req 32 .dec (0x1000 + d.set), d.req 40 .dec 0x2001]
  | 0x25 =>
    if d.dir then []
    else if d.hyb then [d.req 32 .dec (0x1000 + d.set), d.req 40 .dec 0x2001]
    else [d.req 32 .dec (0x1000 + d.set)]
  | 0x29 => [d.req 32 .enc (0x1010 + d.set)]
  | 0x41 => [d.req 32 .enc (0x1020 + d.set)]
  | 0x45 => [d.req 32 .enc (0x1030 + d.set)]
  | 0x4A => [d.req 32 .dec (0x1040 + d.set)]
  | 0x4E => [d.req 32 .dec (0x1050 + d.set)]
  | 0x62 => if d.isFirst then [d.req 32 vu (0x0200 + d.alg)] else []
  | 0x63 => if d.isFirst then [d.req 32 vu 0x0300] else []
  | 0x64 => d.req 32 .derive 0x0400 :: (if d.b 40 8 = 0 then [] else [d.req 40 .derive 0x0400])
  | 0x71 => [d.req 32 .dec (0x2000 + d.set)]
  | 0x72 => [d.req 32 .enc (0x2000 + d.set)]
  | 0x74 => [{ h := d.h 32, usage := .enc, lo := rsaAlg d.modBits, hi := rsaAlg d.modBits }]
  | 0x77 => [{ h := d.h 32, usage := .dec, lo := rsaAlg d.modBits, hi := rsaAlg d.modBits }]
  | _ => []

/-- The handle checks of the keys, in the order of the body: their first slots. -/
def State.checkKeys (s : State) (f : Nat) : List KeyReq → Except Err (List Nat)
  | [] => .ok []
  | r :: t =>
    match s.checkHandle f r.h r.usage r.algOk with
    | .error e => .error e
    | .ok k =>
      match s.checkKeys f t with
      | .error e => .error e
      | .ok l => .ok (k :: l)

/-! ## What the job asks of an engine -/

/-- The engine kind of the job's first part. -/
def Desc.kind (d : Desc) : EKind :=
  let op := d.op
  if op < 0x20 then .render
  else if op < 0x60 then (if d.isHybrid then .hawk else .lath)
  else if op = 0x61 then .keccak
  else if op = 0x64 then algCore (kdfAlg d.alg)
  else if op < 0x70 then algCore d.alg
  else .hawk

/-- The effective level (R287, R319, R385): the requested one, raised by the slots named; 0 where no secret is used. -/
def State.jobLevel (s : State) (d : Desc) (slots : List Nat) : Nat :=
  let req := if d.op < 0x20 ∨ (0x60 ≤ d.op ∧ d.op < 0x70) then 0 else d.lvl
  slots.foldl (fun a k => max a (s.slot k).level) req

/-- The Float grant of a Lath part (R313, R328, R340, R344, R350; `mce.cache` log entry 32). -/
def lathGrant (op level : Nat) : Nat :=
  if op = 0x2A ∨ op = 0x42 ∨ op = 0x46 ∨ op = 0x4F then 10
  else if op = 0x29 then (if level = 2 then 15 else 13)
  else if op < 0x40 then (if level = 2 then 14 else 12)
  else if op < 0x48 then 11
  else if op < 0x4C then 12
  else if op = 0x4C then 14
  else if op = 0x4D then 11
  else 12

/-- The Float grant of the job on an engine of kind `k` (R356, R398, R557). `shares` is 1 for a plain Sponge job. -/
def grantOf (k : EKind) (d : Desc) (level shares : Nat) : Nat :=
  match k with
  | .render => 10
  | .lath => lathGrant d.op level
  | .hawk => if level = 0 then 3 else if level = 1 then 4 else 5
  | .keccak => if shares = 1 then 3 else 4
  | .sha2 => if shares = 1 then 2 else 3

end Sys2Proof.Machine
end

