-- ==== Sys2Proof/Machine/Queue.lean ====
section
/-!
DEFINITION. Work queues (R75-R113): posting and the push window, enable and stop, QUE_INVAL, descriptor fetch, dispatch,
FENCE and NOP, the end of a job, moderation, and the op family of the mailbox (R138).
-/
namespace Sys2Proof.Machine

/-! ## Access to a function's registers -/

/-- A write that reaches no register is ignored and recorded (R15). -/
def State.noRegister (s : State) (f : Nat) : State := s.report 33 f

/-- The queue whose page is page `p` of function `f` (R39, R77). -/
def State.queueAt (s : State) (f p : Nat) : Option Nat :=
  if f = 0 then (if (s.queue p).assigned ∧ (s.queue p).fn = 0 then some p else none)
  else ((s.queuesOf f).find? (fun kq => kq.2.slot == p && !kq.2.leaving)).map (fun kq => kq.1)

/-- A write to a register of the queue on page `p`: what `g` does with queue `q`. -/
def State.onPage (s : State) (f p : Nat) (g : Nat → State → State) : State :=
  if s.barOpen f then
    match s.queueAt f p with
    | some q => g q s
    | none => s.noRegister f
  else s

/-- The part runs: RUN or IDLE. -/
def State.powered (s : State) : Bool := s.pwr.st == .run || s.pwr.st == .idle

/-! ## Indices (R80) -/

/-- Distance from index `a` forward to index `b`. -/
def idxDist (a b : W16) : Nat := (b - a).toNat

def Queue.entry (q : Queue) (i : W16) : Option Entry := Tbl.get none q.entries i.toNat

def Queue.setEntry (q : Queue) (i : W16) (e : Option Entry) : Queue := { q with entries := Tbl.set none q.entries i.toNat e }

/-- QUE_STATUS.HELD_AHEAD: entries fetched, or received from the push window, that are not dispatched, at most 32 (R95).
A pushed entry is received in its turn and counts from then on (DESIGN CHOICE, log entry 91). -/
def Queue.ahead (q : Queue) : Nat :=
  min 32 (q.entries.filter (fun ie =>
    match ie.2 with
    | some e => e.st == .ready
    | none => false)).length

/-! ## The queue-credit ledger (R84) -/

/-- Pushed entries that the device has not received yet. -/
def Queue.pushedAhead (q : Queue) : Nat :=
  (q.entries.filter (fun ie =>
    match ie.2 with
    | some e => e.st == .pushed
    | none => false)).length

/-- The queue counts in its function's credit limit: it is enabled, or stopping. -/
def Queue.enabled (q : Queue) : Bool := q.st != .disabled

/-- Entries from the fetch pointer to PI that are not pushed; none once the queue stops. -/
def Queue.posted (q : Queue) : Nat :=
  if q.st = .active ∨ q.st = .error then idxDist q.fetch q.pi - q.pushedAhead else 0

/-- Entries fetched or pushed and not yet covered by CI; those that a stop discarded are free. -/
def Queue.inFlight (q : Queue) : Nat :=
  if q.st = .active ∨ q.st = .error then idxDist q.ci q.fetch + q.pushedAhead
  else if q.st = .stopping then q.entries.length else 0

/-- The terms of a function's ledger: credit limit, posted, in flight and free. -/
def State.creditSum (s : State) (f : Nat) (g : Queue → Nat) : Nat :=
  (s.que.queues.filter (fun kq => kq.2.assigned && kq.2.fn == f)).foldl (fun a kq => a + g kq.2) 0

def State.creditLimit (s : State) (f : Nat) : Nat := s.creditSum f (fun q => if q.enabled then q.size else 0)

def State.creditPosted (s : State) (f : Nat) : Nat := s.creditSum f Queue.posted

def State.creditInFlight (s : State) (f : Nat) : Nat := s.creditSum f Queue.inFlight

def State.creditFree (s : State) (f : Nat) : Nat := s.creditLimit f - (s.creditPosted f + s.creditInFlight f)

/-! ## Posting (R81, R91-R93) -/

/-- The descriptor that the eight words of a push slot spell (R86). -/
def descOf (w : Nat → W64) : Desc :=
  { opcode := (w 0).setWidth 8, flags := (w 0 >>> 8).setWidth 8, param := (w 0 >>> 16).setWidth 16,
    tag := (w 0 >>> 32).setWidth 32, inLen := (w 1).setWidth 32, outLen := (w 1 >>> 32).setWidth 32,
    inPtr := w 2, outPtr := w 3, body := w 7 ++ w 6 ++ w 5 ++ w 4 }

/-- Written words of push slot `i`. -/
def Queue.pushWords (q : Queue) (i : Nat) : List (Option W64) := (List.range 8).map (fun w => Tbl.get none q.push (8 * i + w))

/-- Consumes slots 0 to `n - 1` of queue `q`, whose entries begin at index `base` (R93). -/
def consume (q f : Nat) (base : W16) : List Nat → State → State
  | [], s => s
  | i :: t, s =>
    let ws := (s.queue q).pushWords i
    let s1 :=
      if ws.all (fun w => w.isSome) then
        s.updQueue q (fun x => x.setEntry (base + BitVec.ofNat 16 i)
          (some { st := .pushed, desc := descOf (fun k => ((ws.getD k none).getD 0)) }))
      else if ws.any (fun w => w.isSome) then s.report 37 f
      else s
    consume q f base t s1

/-- R91, R658: a write of QUE_PI. A write that would post more than the ring holds, or that moves PI backwards, puts the
queue into ERROR (R81, log entry 33). -/
def execQuePiWrite (f page : Nat) (v : W16) (s : State) : Host.Outcome State Fault Refusal :=
  .next (s.onPage f page (fun q x =>
    let qu := x.queue q
    if qu.st ≠ .active then x.report 36 f
    else if qu.size < idxDist qu.ci v ∨ qu.size < idxDist qu.pi v then
      (x.updQueue q (fun y => { y with st := .error, err := .overflow })).report 448 q
    else
      let n := idxDist qu.pi v
      ((consume q f qu.pi (List.range (min n 8)) x).updQueue q (fun y => { y with pi := v, push := [] })).activity))

/-- Marks the words of one write into the push window. -/
def pushWordsAt (off : Nat) (data : List Byte) : List Nat → Tbl (Option W64) → Tbl (Option W64)
  | [], t => t
  | i :: r, t =>
    pushWordsAt off data r (Tbl.set none t (off / 8 + i) (some (BitVec.ofNat 64 (fieldLe data (8 * i) 8))))

/-- R93: a write into the push window at offset `off` from 0x800. -/
def execPushSlotWrite (f page off : Nat) (data : List Byte) (s : State) : Host.Outcome State Fault Refusal :=
  .next (s.onPage f page (fun q x =>
    let n := data.length
    if (n = 8 ∨ n = 16 ∨ n = 32 ∨ n = 64) ∧ off % n = 0 ∧ off + n ≤ 512 then
      x.updQueue q (fun y => { y with push := pushWordsAt off data (List.range (n / 8)) y.push })
    else x.report 32 f))

/-! ## Enable and stop (R82, R83) -/

/-- R82: QUE_CTRL.EN is set. Only a DISABLED queue starts (log entry 34). -/
def execQueueEnable (f page : Nat) (irq : Bool) (s : State) : Host.Outcome State Fault Refusal :=
  .next (s.onPage f page (fun q x =>
    let qu := x.queue q
    if qu.en ∨ qu.st ≠ .disabled then x.updQueue q (fun y => { y with irqEn := irq })
    else
      let bad : Bool := qu.base == 0 || decide (qu.sizeLog2 < 3 ∨ 12 < qu.sizeLog2)
      let x1 := x.updQueue q (fun y =>
        { y with en := true, irqEn := irq, pi := 0, ci := 0, fetch := 0, push := [], entries := [], hold := none,
                 inval := .idle, st := if bad then .error else .active, err := if bad then .config else .none })
      if bad then x1.report 450 q else x1))

/-- Keeps the entries that are dispatched or whose record is written. -/
def keepDispatched (t : Tbl (Option Entry)) : Tbl (Option Entry) :=
  t.filter (fun ie =>
    match ie.2 with
    | some e => e.st == .dispatched || e.st == .written
    | none => false)

/-- R83: QUE_CTRL.EN is cleared: posted and prefetched entries are abandoned, dispatched jobs go on. A standing QUE_INVAL hold
ends and RESULT reads IDLE, which R83 leaves open (DESIGN CHOICE, log entry 92). -/
def execQueueDisable (f page : Nat) (irq : Bool) (s : State) : Host.Outcome State Fault Refusal :=
  .next (s.onPage f page (fun q x =>
    x.updQueue q (fun y =>
      if y.en then
        { y with en := false, irqEn := irq, st := .stopping, entries := keepDispatched y.entries, hold := none, inval := .idle }
      else { y with irqEn := irq })))

/-- No dispatched job of the queue is unfinished, its held records included. -/
def State.queueIdle (s : State) (q : Nat) : Bool :=
  s.que.jobs.all (fun j => j.id.q != q) && s.que.heldRecs.all (fun r => r.id.q != q)

/-- R83: a STOPPING queue enters DISABLED. -/
def execQueueStopped (q : Nat) (s : State) : Host.Outcome State Fault Refusal :=
  if (s.queue q).st = .stopping ∧ s.queueIdle q = true then .next (s.updQueue q (fun y => { y with st := .disabled }))
  else .next s

/-! ## QUE_INVAL (R97, R98) -/

def execQueInvalHold (f page : Nat) (idx : W16) (s : State) : Host.Outcome State Fault Refusal :=
  .next (s.onPage f page (fun q x =>
    x.updQueue q (fun y =>
      let z := { y with invalIndex := idx }
      if y.hold.isSome ∧ y.hold ≠ some idx then { z with inval := .busy }
      else if idxDist y.ci y.pi ≤ idxDist y.ci idx then { z with inval := .notPosted }
      else
        match y.entry idx with
        | some e =>
          if e.st = .dispatched ∨ e.st = .written then { z with inval := .started }
          else { z.setEntry idx none with inval := .held, hold := some idx }
        | none => { z with inval := .held, hold := some idx })))

def execQueInvalRelease (f page : Nat) (idx : W16) (s : State) : Host.Outcome State Fault Refusal :=
  .next (s.onPage f page (fun q x =>
    x.updQueue q (fun y =>
      if y.hold = some idx then { y with invalIndex := idx, hold := none, inval := .idle } else { y with invalIndex := idx })))

/-! ## QUE_MOD (R111, R112) -/

def execQueModWrite (f page timer count : Nat) (s : State) : Host.Outcome State Fault Refusal :=
  .next (s.onPage f page (fun q x =>
    x.updQueue q (fun y => { y with timer := timer % 1024, count := count % 256 })))

/-- R111: the moderation timer runs out. -/
def execQueModTimer (q : Nat) (s : State) : Host.Outcome State Fault Refusal :=
  let qu := s.queue q
  if qu.modTimer ∧ qu.irqEn ∧ 0 < qu.modPend then .next (s.raiseQueueIrq q) else .next s

/-! ## Fetch (R90, R95, R105) -/

/-- The first index from `i` that the device holds no copy of, among `fuel` indices: a released entry (R98). -/
def firstMissing (q : Queue) : Nat → W16 → Option W16
  | 0, _ => none
  | fuel + 1, i =>
    if i = q.fetch then none
    else
      match q.entry i with
      | none => if q.hold = some i then none else some i
      | some _ => firstMissing q fuel (i + 1)

/-- The index that is fetched, or received, next: a released entry, or the one at the fetch pointer, which does not pass
PI, nor a held entry (R95, R98). -/
def Queue.nextFetch (q : Queue) : Option W16 :=
  match firstMissing q (idxDist q.ci q.fetch) q.ci with
  | some i => some i
  | none =>
    if q.fetch = q.pi then none
    else
      match q.hold with
      | some h => if idxDist q.ci h ≤ idxDist q.ci q.fetch then none else some q.fetch
      | none => some q.fetch

/-- Fetch and dispatch run for function `f` (R59, R63, R522, R571). Bus Master Enable holds the fetch only: a dispatched job
waits for it in its class (R51, R99, R100). -/
def State.serving (s : State) (f : Nat) : Bool :=
  let x := s.fn f
  s.powered && !s.held && !x.d3hot && !x.flr

/-- A VF has a free job token (R68). -/
def State.tokenFree (s : State) (f : Nat) : Bool := f == 0 || decide ((s.fn f).dispatched < (s.fn f).quota)

/-- The PF may dispatch one more job (R85). -/
def State.pfRoom (s : State) (f : Nat) : Bool := f != 0 || decide (s.pfJobs < 3840)

/-- The completion record of a descriptor that fails a check of R90: no engine starts. -/
def State.failRecord (s : State) (f : Nat) (d : Desc) (e : Err) : Comp :=
  { status := e.1, gen := (s.fn f).gen, tag := d.tag, detail := BitVec.ofNat 32 e.2 }

/-- A failed read of a list is counted as a DMA error (R74). -/
def State.countDma (s : State) (e : Err) : State :=
  if e.1 = stDmaError then
    s.dmaFailed (if e.2 = 1 then .timeout else if e.2 = 2 then .poisoned else .refused)
  else s

/-- Ends entry `i` of queue `q` with the status of a failed check. -/
def State.failEntry (s : State) (q : Nat) (i : W16) (d : Desc) (e : Err) : State :=
  let f := (s.queue q).fn
  let s1 := (s.countDma e).updQueue q (fun y => y.setEntry i (some { st := .dispatched, desc := d }))
  s1.finishEntry f { q := q, idx := i } (s1.failRecord f d e) [] false

/-- Checks a fetched or pushed descriptor as entry `i`, and holds it for dispatch or ends it (R90). -/
def State.receive (s : State) (q : Nat) (i : W16) (d : Desc) (pushed : Bool) (li lo : SglRead) : State :=
  let qu := s.queue q
  let s1 := s.updQueue q (fun y => if i = y.fetch then { y with fetch := y.fetch + 1 } else y)
  match s1.commonErr qu.fn d pushed li lo with
  | .error e => s1.failEntry q i d e
  | .ok (gi, so) =>
    match s1.bodyErr qu.fn q qu.cls d with
    | some e => s1.failEntry q i d e
    | none => s1.updQueue q (fun y => y.setEntry i (some { st := .ready, desc := d, inSgl := gi, outSgl := so }))

/-- R90: the next descriptor of queue `q` returns from host memory as `r`, or its pushed copy is received. At most 32 entries
are held ahead of dispatch (R95), and the read of a descriptor is a DMA access (R46, R51). -/
def execDescriptorFetch (q : Nat) (r : Fetched) (s : State) : Host.Outcome State Fault Refusal :=
  let qu := s.queue q
  let f := qu.fn
  match qu.nextFetch with
  | none => .next s
  | some i =>
    if qu.st ≠ .active ∨ s.serving f = false ∨ s.pfRoom f = false ∨ 32 ≤ qu.ahead then .next s
    else if (qu.entry i).isNone ∧ (s.fn f).bme = false then .next s
    else if s.tokenFree f = false then .next (s.fnEvent 1)
    else
      match qu.entry i with
      | some e => .next (s.receive q i e.desc true (.got []) (.got []))
      | none =>
        let x := s.wakeLink.emit (.fetch q (qu.entryAddr i))
        match r with
        | .fail e =>
          .next (((x.dmaFailed e).updQueue q (fun y => { y with st := .error, err := .fetch })).report 449 q)
        | .got d li lo => .next (x.receive q i d false li lo)

/-! ## Dispatch (R99, R101) -/

/-- The next entry in dispatch order, where it is ready and no hold stands before it. -/
def nextReady (q : Queue) : Nat → W16 → Option (W16 × Entry)
  | 0, _ => none
  | fuel + 1, i =>
    if i = q.fetch ∨ q.hold = some i then none
    else
      match q.entry i with
      | none => none
      | some e =>
        match e.st with
        | .ready => some (i, e)
        | .pushed => none
        | .dispatched => nextReady q fuel (i + 1)
        | .written => nextReady q fuel (i + 1)

def Queue.nextDispatch (q : Queue) : Option (W16 × Entry) := nextReady q (idxDist q.ci q.fetch) q.ci

/-- Every entry before `i` has its record written (R101). -/
def Queue.allBefore (q : Queue) (i : W16) : Bool :=
  (List.range (idxDist q.ci i)).all (fun k =>
    match q.entry (q.ci + BitVec.ofNat 16 k) with
    | some e => e.st == .written
    | none => false)

/-- The entry that is dispatched now: next in order, its fence satisfied, and its function served. -/
def State.dispatchable (s : State) (q : Nat) : Option (W16 × Entry) :=
  let qu := s.queue q
  if (qu.st = .active ∨ qu.st = .error) ∧ s.serving qu.fn = true then
    match qu.nextDispatch with
    | none => none
    | some (i, e) =>
      if (e.desc.flags.getLsbD 0 ∨ e.desc.opcode = 0) ∧ qu.allBefore i = false then none else some (i, e)
  else none

/-! ## What a job takes at dispatch -/

/-- The lowest free context number (R361). -/
def State.freeCtx (s : State) : Option Nat := ((List.range 448).map (fun i => i + 1)).find? (fun n => !(s.ctx n).alloc)

/-- Reserves context `n` for a START or a `hash.import`. -/
def State.reserveCtx (s : State) (n : Nat) (id : JobId) (f : Nat) (d : Desc) : State :=
  s.updCtx n (fun _ =>
    { alloc := true, fn := f, gen := (s.fn f).gen, q := id.q, opcode := d.opcode, alg := BitVec.ofNat 8 d.alg,
      verify := d.ver, keyed := d.op == 0x62 || d.op == 0x63 })

/-- The new tag of a cache entry, a value that the spec does not give, other than the old one (R347). -/
def State.newTag (s : State) (old : W32) : W32 :=
  let t := (Config.openValue s.freeCtr).setWidth 32
  if t = old then t + 1 else t

/-- Entries that a load into entry `e` overwrites (R347): all four for SET 2, and a SET 2 key that stands in entry 1. -/
def State.overwrites (s : State) (set e : Nat) : List Nat :=
  if set = 2 then [1, 2, 3, 4] else if (s.mceEntry 1).set = 2 ∧ e ≠ 1 then [1, e] else [e]

/-- Gives every entry of the list a new tag and takes its key out of use; entry `e` loads. -/
def retagEntries (set e : Nat) : List Nat → State → State
  | [], s => s
  | n :: t, s =>
    let x : McE := if n = e then { set := set, tag := s.newTag (s.mceEntry n).tag, loading := true }
      else { tag := s.newTag (s.mceEntry n).tag }
    retagEntries set e t
      { s with lth := { s.lth with cache := Tbl.set {} s.lth.cache n x }, freeCtr := s.freeCtr + 1 }

/-- State units of bank 6 that keys with home `q` take (R338). -/
def State.homeUnits (s : State) (q : Nat) : Nat :=
  s.lth.hss.foldl (fun a kh => if kh.2.home = some q then a + (lmsOf (s.keyBytes kh.1)).units else a) 0

/-- The Quad with the most free state units. -/
def State.bestHome (s : State) : Nat :=
  (List.range 9).foldl (fun b q => if s.homeUnits q < s.homeUnits b then q else b) 0

/-- A dispatched `lms.sign` job names the key. -/
def State.hssBusy (s : State) (k : Nat) : Bool := s.que.jobs.any (fun j => j.desc.opcode == 0x45 && j.refs.head? == some k)

/-- Evicts states of Quad `q`, the least recently used first and none that a dispatched job needs, until `need` units
are free (R338). -/
def evict (q need : Nat) : List Nat → State → State
  | [], s => s
  | k :: t, s =>
    if s.homeUnits q + need ≤ 4 then s
    else
      evict q need t
        (if (s.hss k).home = some q ∧ s.hssBusy k = false then
          s.updHss k (fun h => { h with home := none, rebuilding := false, built := [], waitFrom := none }) else s)

/-- Notes the use of a key. -/
def State.useHss (s : State) (k : Nat) : State :=
  { s with lth := { s.lth with hssUse := s.lth.hssUse.filter (fun x => x != k) ++ [k] } }

/-- Gives a key a home Quad where it has none and room can be made, and starts the rebuild of its state (R338). -/
def State.giveHome (s : State) (k : Nat) : State :=
  if (s.hss k).home.isSome then s.useHss k
  else
    let q := s.bestHome
    let need := (lmsOf (s.keyBytes k)).units
    let s1 := evict q need s.lth.hssUse s
    if s1.homeUnits q + need ≤ 4 then
      (s1.updHss k (fun h => { h with home := some q, rebuilding := true, built := [], waitFrom := none })).useHss k
    else s

/-- Signatures under one tree of level `l`, and under one leaf of it. -/
def LmsPar.perTree (p : LmsPar) (l : Nat) : Nat := 2 ^ (p.hs.drop l).foldl (· + ·) 0
def LmsPar.perLeaf (p : LmsPar) (l : Nat) : Nat := p.perTree (l + 1)

/-- The next tree of level `l` as index `q` is taken (R339): `b` leaves of it were built. It is built at one leaf for each
signature of its level, and at up to four until it catches up. With the first index of a tree the next one begins. -/
def LmsPar.buildStep (p : LmsPar) (q l b : Nat) : Nat :=
  let b0 := if q % p.perTree l = 0 then 0 else b
  if l = 0 then 0
  else if q % p.perLeaf l = 0 then min (q / p.perLeaf l % 2 ^ (p.hs.getD l 0) + 1) (b0 + 4)
  else b0

/-- Index `q` is the first of a tree that was to be complete by now and is not. -/
def LmsPar.treeLate (p : LmsPar) (q : Nat) (built : List Nat) : Bool :=
  q != 0 && (List.range p.levels).any (fun l =>
    l != 0 && q % p.perTree l == 0 && decide (built.getD l 0 < 2 ^ (p.hs.getD l 0)))

/-- The index step of `lms.sign` (R333): N is taken; with R reached, a reservation is written (R332). -/
def State.takeIndex (s : State) (k total : Nat) : State :=
  let h := s.hss k
  let p := lmsOf (s.keyBytes k)
  let q := h.next.toNat
  s.updHss k (fun x =>
    { x with next := x.next + 1,
             built := (List.range p.levels).map (fun l => p.buildStep q l (h.built.getD l 0))
             waitFrom := if h.home.isSome ∧ h.rebuilding = false ∧ p.treeLate q h.built = true then
                 some (h.waitFrom.getD q) else h.waitFrom
             writing := if h.limit.toNat ≤ h.next.toNat ∧ h.writing.isNone = true then
                 some (BitVec.ofNat 64 (h.limit.toNat + min 4096 (total - h.limit.toNat)))
               else h.writing
             started := if h.limit.toNat ≤ h.next.toNat ∧ h.writing.isNone = true then !s.pwr.vinWarn else h.started })

/-- What a job takes besides its keys when it is dispatched: the state, its `hold`, the Quad it is bound to, and why it
cannot start yet. -/
structure Taken where
  s : State
  hold : Option Nat := none
  quad : Option Nat := none
  blocked : Nat := 0

/-- The step that follows the handle checks (R90): contexts, cache entries and regions. `slots` are the keys' slots. -/
def State.take (s : State) (id : JobId) (f : Nat) (d : Desc) (slots : List Nat) : Except Err Taken :=
  let op := d.op
  if (op = 0x60 ∨ op = 0x62 ∨ op = 0x63) ∧ d.isFirst = false then .ok { s := s, hold := some (d.b 40 2) }
  else if ((op = 0x60 ∨ op = 0x62 ∨ op = 0x63) ∧ d.phase = 1) ∨ op = 0x61 then
    match s.freeCtx with
    | some n => .ok { s := s.reserveCtx n id f d, hold := some n }
    | none => .error (stCtxFull, 0)
  else if op = 0x45 then
    let k := slots.headD 0
    let p := lmsOf (s.keyBytes k)
    if d.outLen.toNat < p.sigLen then .error (stOutTooSmall, p.sigLen)
    else if p.total ≤ (s.hss k).next.toNat then .error (stLmsExhausted, 0)
    else
      let s1 := (s.takeIndex k p.total).giveHome k
      .ok { s := s1, hold := some (s.hss k).next.toNat, quad := (s1.hss k).home,
            blocked := if (s1.hss k).home.isSome then 0 else 1 }
  else if op = 0x4C then .ok { s := s, blocked := 1 }
  else if op = 0x4D then
    (if d.b 40 1 = 0 then .ok { s := s, blocked := 1 } else .ok { s := s, hold := some (d.b 40 1) })
  else if op = 0x4F then
    .ok { s := retagEntries d.set (d.b 40 1) (s.overwrites d.set (d.b 40 1)) s, hold := some (d.b 40 1) }
  else .ok { s := s }

/-- Shares of a pool job: 1 for a plain digest (R353, R372). -/
def State.jobShares (s : State) (d : Desc) (level : Nat) : Nat :=
  let op := d.op
  if op = 0x64 then (if level = 2 then 3 else 2)
  else if op = 0x62 ∨ op = 0x63 then
    (if d.isFirst then (if level = 2 then 3 else 2) else (s.ctx (d.b 40 2)).shares)
  else 1

/-- The job that an accepted descriptor becomes. -/
def State.newJob (s : State) (id : JobId) (f cls : Nat) (d : Desc) (so : List SglEnt) (slots : List Nat)
    (mbx : Option (Nat × W32)) (t : Taken) : Job :=
  let l0 := s.jobLevel d slots
  let shares := s.jobShares d l0
  let level := if (d.op = 0x62 ∨ d.op = 0x63) ∧ d.isFirst = false then shares - 1 else l0
  { id := id, fn := f, gen := (s.fn f).gen, cls := cls, desc := d, outSgl := so, kind := d.kind, level := level,
    keys := slots.map (fun k => s.keyBytes k), tDisp := s.clk, refs := slots.eraseDups, mbx := mbx,
    quad := t.quad, hold := t.hold, blocked := t.blocked, grant := grantOf d.kind d level shares }

/-- Adds a dispatched job at the end of the dispatch order and lets free engines take their next job. -/
def State.addJob (s : State) (j : Job) : State :=
  let s1 := (s.addRefs j.refs).activity
  ({ s1 with que := { s1.que with jobs := s1.que.jobs ++ [j] } }).assign

/-- The checks of dispatch and, when they pass, the job (R90, R99): the handle checks, the steps behind them, then the
VF's token; none while the VF has no token. -/
def State.dispatchDesc (s : State) (id : JobId) (f cls : Nat) (d : Desc) (so : List SglEnt) (mbx : Option (Nat × W32)) :
    Except Err (Option State) :=
  match s.bodyErr f id.q cls d with
  | some e => .error e
  | none =>
    match s.checkKeys f d.keyReqs with
    | .error e => .error e
    | .ok slots =>
      match s.take id f d slots with
      | .error e => .error e
      | .ok t =>
        if id.q ≠ horrovQ ∧ s.tokenFree f = false then .ok none
        else
          let s1 := if id.q = horrovQ ∨ f = 0 then t.s else t.s.updFn f (fun x => { x with dispatched := x.dispatched + 1 })
          .ok (some (s1.addJob (s1.newJob id f cls d so slots mbx t)))

/-- R99: the next entry of queue `q` is dispatched, or fails a check made at dispatch. -/
def execJobDispatch (q : Nat) (s : State) : Host.Outcome State Fault Refusal :=
  match s.dispatchable q with
  | none => .next s
  | some (i, e) =>
    let qu := s.queue q
    if e.desc.isNop ∨ s.pfRoom qu.fn = false then .next s
    else
      match s.dispatchDesc { q := q, idx := i } qu.fn qu.cls e.desc e.outSgl none with
      | .error er => .next (s.failEntry q i e.desc er)
      | .ok none => .next (s.fnEvent 1)
      | .ok (some s1) => .next (s1.updQueue q (fun y => y.setEntry i (some { e with st := .dispatched })))

/-- A FENCE or NOP that is next completes with ST_OK at its dispatch (R88). -/
def State.nopDone (s : State) (q : Nat) (op : Byte) : State :=
  match s.dispatchable q with
  | none => s
  | some (i, e) =>
    if e.desc.opcode = op then
      let f := (s.queue q).fn
      (s.updQueue q (fun y => y.setEntry i (some { e with st := .dispatched }))).finishEntry f { q := q, idx := i }
        { gen := (s.fn f).gen, tag := e.desc.tag } [] false
    else s

def execFence (q : Nat) (s : State) : Host.Outcome State Fault Refusal := .next (s.nopDone q 0)

def execNop (q : Nat) (s : State) : Host.Outcome State Fault Refusal := .next (s.nopDone q 1)

/-! ## The end of a job (R103-R106) -/

/-- The job's writes can leave the device, or its record can be held: Bus Master Enable is set, or its function is in D3hot, or
its generation has gone (R51, R59, R62). The answer of an op-family command has no record to hold: in D3hot it waits for
the return to D0. -/
def State.canComplete (s : State) (j : Job) : Bool :=
  let x := s.fn j.fn
  j.gen != x.gen ||
    (if j.mbx.isSome || j.id.q == horrovQ then !x.d3hot && (x.bme || j.outBytes.isEmpty) else x.d3hot || x.bme)

/-- R103: a job that has ended on its engine is completed. -/
def execJobEnd (id : JobId) (s : State) : Host.Outcome State Fault Refusal :=
  match s.findJob id with
  | none => .next s
  | some j => if j.st = .ended ∧ s.canComplete j = true then .next ((s.freeHolds j).completeJob j) else .next s

/-! ## Link power (R46) -/

/-- A descriptor read is due, or a completion can be written, for some function. -/
def State.hostWork (s : State) : Bool :=
  s.que.queues.any (fun kq => kq.2.st == .active && kq.2.nextFetch.isSome && decide (kq.2.ahead < 32) && s.serving kq.2.fn &&
      (s.fn kq.2.fn).bme && s.tokenFree kq.2.fn && s.pfRoom kq.2.fn) ||
    s.que.jobs.any (fun j => j.st == .ended && s.canComplete j)

/-- R46: the link has been idle for 8 µs with ASPM L1 enabled, and no request, completion or interrupt is pending. A message
that can be sent leaves at once, so none is ever pending here. -/
def execL1Entry (s : State) : Host.Outcome State Fault Refusal :=
  if s.pcie.linkUp ∧ s.pcie.aspmL1 ∧ s.hostWork = false then .next { s with pcie := { s.pcie with inL1 := true } } else .next s

/-! ## The op family (R138) -/

/-- An op-family command `code` with its descriptor and the lists that the device reads for it. In D3hot no job is
dispatched (R59), and a list is read only while Bus Master Enable is 1 (R51, R659): until then the command waits. -/
def execOpFamily (h : Hdr) (code : Byte) (d : Desc) (li lo : SglRead) (s : State) : Host.Outcome State Fault Refusal :=
  if (s.fn 0).d3hot ∨ ((d.flags.getLsbD 1 ∨ d.flags.getLsbD 2) ∧ (s.fn 0).bme = false) then .next s
  else .next (s.run h { len := 64, lenX := 64 } (fun x =>
    let n := match h.iss with
      | .pf k => k
      | _ => 0
    let give := fun (y : State) (c : Comp) =>
      Ans.wait (y.answerPf n { status := c.status, gen := c.gen, seq := h.seq, detail := c.detail, results := c.bytes })
    let id : JobId := { q := horrovQ, idx := x.que.horrovIdx }
    let x1 := { x with que := { x.que with horrovIdx := x.que.horrovIdx + 1 } }
    if d.opcode ≠ code then .err (stBadArg, 16)
    else
      match x1.commonErr 0 d false li lo with
      | .error e => give (x1.countDma e) (x1.failRecord 0 d e)
      | .ok (_, so) =>
        if d.isNop then give x1 { gen := (x1.fn 0).gen, tag := d.tag }
        else
          match x1.dispatchDesc id 0 horrovCls d so (some (n, h.seq)) with
          | .error e => give x1 (x1.failRecord 0 d e)
          | .ok none => .wait x1
          | .ok (some x2) => .wait { x2 with mbx := { x2.mbx with running := 0 } }))

end Sys2Proof.Machine
end

