-- ==== Sys2Proof/Machine/JobRun.lean ====
section
/-!
DEFINITION. What every job row shares: the conditions under which an operation runs, its draws of random words, its
result keys, its self-check; and the lookaside AEAD jobs (R195-R197).
-/
namespace Sys2Proof.Machine

/-! ## Running an operation -/

/-- Runs the job that a row names with opcode `op`, on its last part: a pending abort is met (R231, R402), a failed read
ends it (R105), and otherwise `f` computes its end from its input. A job that waits or is paused is left alone, and while
Bus Master Enable of its function is 0 only an abort ends it (R51). -/
def State.runJob (s : State) (id : JobId) (op : Nat) (inp : JobIn) (f : Job → List Byte → State → State) : State :=
  match s.findJob id with
  | none => s
  | some j =>
    if j.desc.op ≠ op ∨ j.st ≠ .running ∨ (j.desc.isHybrid = true ∧ j.part = 0) then s
    else
      match j.abort with
      | some (st, det) => s.endJob id { status := st, detail := det }
      | none =>
        match inp with
        | .fail e => if (s.fn j.fn).bme then (s.wakeLink.dmaFailed e).failJob id stDmaError e.code else s
        | .got b =>
          if (s.fn j.fn).bme then f j (fit j.desc.inLen.toNat b) (if j.desc.inLen = 0 then s else s.wakeLink) else s

/-- Draws one word from each part of the list in turn (R303, R417): at a part that is not seeded the job waits, at one
that has failed it ends with ST_RNG_FAIL. -/
def State.withWords (s : State) (id : JobId) (gens : List Nat) (f : List W512 → State → State) : State :=
  match gens with
  | [] => f [] s
  | g :: t =>
    if s.rngWaits g then s.updJob id (fun j => { j with waitOn := some g })
    else
      match s.rngErr g with
      | some e => s.failJob id e.1 e.2
      | none =>
        let (w, s1) := s.drawFrom g
        State.withWords s1 id t (fun ws x => f (w :: ws) x)

/-- Goes on once part `g` is seeded and has not failed (R303, R372). -/
def State.whenSeeded (s : State) (id : JobId) (g : Nat) (f : State → State) : State :=
  if s.rngWaits g then s.updJob id (fun j => { j with waitOn := some g })
  else
    match s.rngErr g with
    | some e => s.failJob id e.1 e.2
    | none => f s

/-- Words of 64 bytes that the randomisation of a Hawk job takes (R393). -/
def Job.blindWords (j : Job) : Nat := j.level

/-- Draws `own` words for the values of a Hawk job, and the words of its randomisation behind them (R391, R393, R394, R396). -/
def State.withHawk (s : State) (j : Job) (own : Nat) (f : List W512 → State → State) : State :=
  s.withWords j.id (List.replicate (own + j.blindWords) genDevice) f

/-- The mask generator of the Quad of a Lath job (R407), where it runs masked. -/
def Job.maskGen (j : Job) : List Nat := if j.level = 0 then [] else [28 + j.engine / 4]

/-- The parts that the running part of a job draws from, in the order of its draws (R303, R321, R407). -/
def Job.draws (j : Job) : List Nat :=
  let op := j.desc.opcode.toNat
  match j.kind with
  | .render => (19 + j.engine / 4) :: (if j.desc.b 57 1 = 1 then [genDevice] else [])
  | .hawk => if op = 0x73 ∨ op = 0x75 ∨ op = 0x78 ∨ op = 0x79 then [] else [genDevice]
  | .lath => (if op = 0x20 ∨ op = 0x28 ∨ op = 0x40 ∨ op = 0x44 ∨ op = 0x48 ∨ op = 0x4C then [genDevice] else []) ++ j.maskGen
  | _ => if op = 0x62 ∨ op = 0x63 ∨ op = 0x64 then [genPool] else []

/-- R420: a job whose draw waits on an UNSEEDED generator reaches GRT_WAIT_MAX. -/
def execRngWaitTimeout (id : JobId) (n : Nat) (s : State) : Host.Outcome State Fault Refusal :=
  match s.findJob id with
  | some j =>
    if (j.st = .running ∨ j.st = .paused) ∧ j.draws.contains n = true ∧ s.rngWaits n = true then .next (s.failJob id stRngNotReady 0)
    else .next s
  | none => .next s

/-- Mask words of an ML-KEM or ML-DSA job at level 1 and 2 (R313). -/
def latticeWords (op : Nat) (set : Nat) : Nat × Nat :=
  let pick := fun (l : List (Nat × Nat)) => l.getD (set - 1) (1, 1)
  if op = 0x20 then pick [(1600, 5100), (2400, 7700), (3200, 10200)]
  else if op = 0x21 then pick [(1400, 3600), (2000, 5600), (2700, 8600)]
  else if op = 0x22 then pick [(2000, 6400), (3000, 9600), (4000, 12800)]
  else if op = 0x28 then pick [(3000, 9000), (4000, 12000), (5000, 15000)]
  else pick [(10000, 30000), (12000, 36000), (15000, 45000)]

/-- Mask words that a Lath job draws: those of R313, with 300 for the combiner and 200 for the KDF (R315). For the jobs of other
chapters the spec states no number, and the one word that the result depends on is counted (DESIGN CHOICE, log entry 114). -/
def Job.maskWords (j : Job) : Nat :=
  let d := j.desc
  let at_ := fun (w : Nat × Nat) => if j.level = 2 then w.2 else w.1
  if d.op = 0x20 ∨ d.op = 0x28 ∨ d.op = 0x29 then at_ (latticeWords d.op d.set)
  else if 0x21 ≤ d.op ∧ d.op ≤ 0x25 then
    at_ (latticeWords (if d.isEncaps then 0x21 else 0x22) d.set) + (if d.isHybrid then 300 else 0) +
      (if d.op = 0x25 then 200 else 0)
  else 1

/-- Draws the words of a Lath job: one from each part of `pre`, and its mask words, each a tenure of the Quad's generator
(R237, R417). -/
def State.withMasks (s : State) (j : Job) (pre : List Nat) (f : List W512 → State → State) : State :=
  s.withWords j.id (pre ++ j.maskGen) (fun ws x =>
    f ws (if j.level = 0 then x
      else (x.drawMany (28 + j.engine / 4) (j.maskWords - 1)).tenures (j.engine / 4) (j.engine % 4) 7 j.maskWords))

/-- The shares in which a pool job runs (R353, R372): two or three for the keyed opcodes, by level, and one for the others. -/
def Job.shares (j : Job) : Nat :=
  if 0x62 ≤ j.desc.op ∧ j.desc.op ≤ 0x64 then (if j.level = 2 then 3 else 2) else 1

/-- Handle bytes of the result slots, eight each. -/
def State.handles (s : State) (ks : List Nat) : List Byte := ks.flatMap (fun k => leBytes 8 (s.handleOf k).toNat)

/-- Ends a job with ST_OK: its result keys are allocated all or none (R217, R308, R439), their handles stand first in
RESULT, `rest` follows. -/
def State.finish (s : State) (j : Job) (out : List Byte) (keys : List KeySpec) (rest : List Byte) : State :=
  match s.allocKeys keys with
  | none =>
    ({ s with bnd := { s.bnd with fullCnt := satInc s.bnd.fullCnt } }).failJob j.id stBondFull 0
  | some (ks, s1) => s1.endJob j.id { status := stOk, out := out, result := s1.handles ks ++ rest }

/-- A result key of a job. -/
def Job.key (j : Job) (u : Usage) (alg : Nat) (o : Origin) (data : List Byte) : KeySpec :=
  { usage := u, alg := BitVec.ofNat 16 alg, level := j.level, fn := j.fn, origin := o, data := data }

/-- A self-check of a job has failed (R298, R395): the cause is reported for its engine and the job is rerun; where it
was a rerun already, it ends with ST_SIG_FAULT. -/
def State.selfFail (s : State) (j : Job) (cause : Nat) : State :=
  let s1 := if 1 ≤ j.faults then s.failJob j.id stSigFault 0 else s
  s1.report cause j.engine

def causeLathSelf : Nat := 334
def causeHawkSelf : Nat := 388

/-! ## Lookaside AEAD -/

/-- The AES key of a key with or without a salt (R436). -/
def aesKey (raw : List Byte) : List Byte := if raw.length = 16 ∨ raw.length = 20 then raw.take 16 else raw.take 32

def Job.key0 (j : Job) : List Byte := j.keys.headD []

/-- The IV of the body, or the random one of IV_MODE 1. -/
def Desc.iv (d : Desc) (ws : List W512) : List Byte :=
  if d.b 57 1 = 1 then leBytes 12 (ws.getD 1 0).toNat else leBytes 12 (d.b 40 12)

/-- Runs an AEAD job: `f` gives its output, or none on a tag mismatch (R197). Its blocks take the refresh words of R407. -/
def State.aead (s : State) (id : JobId) (op : Nat) (inp : JobIn)
    (f : List Byte → List Byte → Desc → List Byte → Option (List Byte)) : State :=
  s.runJob id op inp (fun j b x =>
    x.withWords id ((19 + j.engine / 4) :: (if j.desc.b 57 1 = 1 then [genDevice] else [])) (fun ws y0 =>
      let y := y0.drawMany (19 + j.engine / 4) (renderWords (y0.rnd j.engine).fstep b.length - 1)
      let iv := j.desc.iv ws
      match f (aesKey j.key0) iv j.desc b with
      | some out => y.endJob id { out := out, result := if j.desc.b 57 1 = 1 then iv else [] }
      | none => y.failJob id stAuthFail 0))

def execAeadSeal (id : JobId) (inp : JobIn) (s : State) : Host.Outcome State Fault Refusal :=
  .next (s.aead id 0x10 inp (fun key iv d b =>
    let aad := d.b 52 4
    let (ct, tag) := Config.gcmSeal key iv (b.take aad) (b.drop aad)
    some (fit (b.length - aad) ct ++ fit (d.b 56 1) tag)))

def execAeadOpen (id : JobId) (inp : JobIn) (s : State) : Host.Outcome State Fault Refusal :=
  .next (s.aead id 0x11 inp (fun key iv d b =>
    let aad := d.b 52 4
    let n := b.length - d.b 56 1
    (Config.gcmOpen key iv (b.take aad) ((b.take n).drop aad) (b.drop n)).map (fun pt => fit (n - aad) pt)))

def execGmacTag (id : JobId) (inp : JobIn) (s : State) : Host.Outcome State Fault Refusal :=
  .next (s.aead id 0x12 inp (fun key iv d b => some (fit (d.b 56 1) (Config.gcmSeal key iv b []).2)))

def execGmacCheck (id : JobId) (inp : JobIn) (s : State) : Host.Outcome State Fault Refusal :=
  .next (s.aead id 0x13 inp (fun key iv d b =>
    let n := b.length - d.b 56 1
    (Config.gcmOpen key iv (b.take n) [] (b.drop n)).map (fun _ => [])))

end Sys2Proof.Machine
end

