-- ==== Sys2Proof/Machine/Lattice.lean ====
section
/-!
DEFINITION. The lattice jobs (R283-R311): ML-KEM, the hybrid combiner, rekey jobs, and ML-DSA. The algorithms of
FIPS 203, FIPS 204 and RFC 7748 are opaque functions (log entry 3); what the chapter itself defines is written out.
-/
namespace Sys2Proof.Machine

/-! ## The hybrid parts (R304, R305) -/

/-- Bytes of the KEM input before the X25519 value. -/
def Desc.kemIn (d : Desc) : Nat := if d.isEncaps then (kemSizes d.set).1 else (kemSizes d.set).2

/-- The own X25519 key of a hybrid job: KEY2, or none where the key is ephemeral (R303). -/
def Job.ownX (j : Job) : Option (List Byte) :=
  if j.desc.isEncaps then j.keys.head? else (j.keys.drop 1).head?

/-- Writes 64 bytes into a transient slot. -/
def State.putTransient (s : State) (k : Nat) (data : List Byte) : State :=
  let (r, s1) := s.draw
  s1.updSlot k (fun b => { b with s0 := packSlot data ^^^ r, s1 := r })

/-- R304: the Hawk part of a hybrid job ends with its X25519 secret in the transient slot, and the Lath part joins the
Lath wait list. `ok` tells whether the self-check of R395 passed. -/
def execHybridLathPart (id : JobId) (inp : JobIn) (ok : Bool) (s : State) : Host.Outcome State Fault Refusal :=
  match s.findJob id with
  | none => .next s
  | some j =>
    if j.desc.isHybrid = false ∨ j.part ≠ 0 ∨ j.st ≠ .running ∨ (j.abort = none ∧ (s.fn j.fn).bme = false) then .next s
    else
      match j.abort, inp with
      | some (st, det), _ => .next (s.endJob id { status := st, detail := det })
      | none, .fail e => .next ((s.wakeLink.dmaFailed e).failJob id stDmaError e.code)
      | none, .got b0 =>
        let b := fit j.desc.inLen.toNat b0
        let eph : Bool := j.ownX.isNone
        .next (s.wakeLink.withHawk j (if eph then 1 else 0) (fun ws x =>
          let scalar := j.ownX.getD (leBytes 32 (ws.getD 0 0).toNat)
          let ss := fit 32 (Config.x25519 scalar (slice b j.desc.kemIn 32))
          if ss.all (fun c => c == 0) then x.failJob id stPointInvalid 0
          else if !ok then x.selfFail j causeHawkSelf
          else
            let x1 := match j.transient with
              | some k => x.putTransient k (ss ++ fit 32 (Config.x25519Pub scalar))
              | none => x
            (((x1.updJob id (fun y =>
              { y with part := 1, kind := .lath, st := .waiting, blocked := 3, grant := lathGrant y.desc.op y.level })).leaveEngine j)).checkClasses.assign))

/-- The combined secret K_H of R305. -/
def hybridSecret (set : Nat) (ssX ssM ct xE xS : List Byte) : List Byte :=
  w256Bytes (Config.sha3 ([0, 0, 0, 1] ++ ssX ++ ssM ++ ascii "FQHYB-01" ++ [BitVec.ofNat 8 set] ++
    w256Bytes (Config.sha3 ct) ++ xE ++ xS))

/-- The shared or combined secret of a job, from the ML-KEM secret, the ciphertext and the input. -/
def State.kemSecret (s : State) (j : Job) (b ssM ct : List Byte) : List Byte :=
  if j.desc.isHybrid then
    let t := match j.transient with
      | some k => s.keyBytes k
      | none => []
    let peer := slice b j.desc.kemIn 32
    let own := slice t 32 32
    if j.desc.isEncaps then hybridSecret j.desc.set (t.take 32) ssM ct own peer
    else hybridSecret j.desc.set (t.take 32) ssM ct peer own
  else ssM

/-- The own X25519 public key that an encapsulating hybrid job returns. -/
def State.ownPub (s : State) (j : Job) : List Byte :=
  if j.desc.isHybrid then
    match j.transient with
    | some k => slice (s.keyBytes k) 32 32
    | none => []
  else []

/-- Runs a KEM job up to its secret: `f` gets the secret and the output. Encapsulation checks ek (R291) and draws m;
decapsulation rejects implicitly (R292). -/
def State.kem (s : State) (id : JobId) (op : Nat) (inp : JobIn) (f : Job → List Byte → List Byte → List Byte → State → State) :
    State :=
  s.runJob id op inp (fun j b x =>
    let set := j.desc.set
    x.withMasks j [] (fun ws y =>
      let kin := b.take j.desc.kemIn
      if j.desc.isEncaps then
        if Config.pubValid 0x20 set kin then
          let (ct0, ss) := Config.encaps 0x20 set kin (ws.getD 0 0)
          let ct := fit (kemSizes set).2 ct0
          f j b (y.kemSecret j b (fit 32 ss) ct) (ct ++ y.ownPub j) y
        else y.failJob id stRange 0
      else f j b (y.kemSecret j b (fit 32 (Config.decaps 0x20 set j.key0 kin)) kin) [] y))

/-- The slot that a shared or combined secret enters. -/
def State.agree (s : State) (j : Job) (secret out : List Byte) : State :=
  s.finish j out [j.key .derive 0x0400 .agreed secret] []

/-- R289, R293: `kem.keygen`. `ok` tells whether the pairwise check passed. -/
def execKemKeygen (id : JobId) (inp : JobIn) (ok : Bool) (s : State) : Host.Outcome State Fault Refusal :=
  .next (s.runJob id 0x20 inp (fun j _ x =>
    x.withMasks j [genDevice] (fun ws y =>
      let seed := leBytes 64 (ws.getD 0 0).toNat
      if ok then
        y.finish j (fit (kemSizes j.desc.set).1 (Config.pubOf 0x20 j.desc.set seed))
          [j.key .dec (0x1000 + j.desc.set) .generated seed] []
      else y.selfFail j causeLathSelf)))

def execKemEncaps (id : JobId) (inp : JobIn) (s : State) : Host.Outcome State Fault Refusal :=
  .next (s.kem id 0x21 inp (fun j _ ss out x => x.agree j ss out))

def execKemDecaps (id : JobId) (inp : JobIn) (s : State) : Host.Outcome State Fault Refusal :=
  .next (s.kem id 0x22 inp (fun j _ ss out x => x.agree j ss out))

def execHybEncaps (id : JobId) (inp : JobIn) (s : State) : Host.Outcome State Fault Refusal :=
  .next (s.kem id 0x23 inp (fun j _ ss out x => x.agree j ss out))

def execHybDecaps (id : JobId) (inp : JobIn) (s : State) : Host.Outcome State Fault Refusal :=
  .next (s.kem id 0x24 inp (fun j _ ss out x => x.agree j ss out))

/-! ## Derived keys (R306) -/

/-- Derived bytes of an OUTMODE. -/
def outBytesOf (aead om : Nat) : Nat :=
  match om with
  | 0 => aeadLen aead
  | 1 => 2 * aeadLen aead
  | 2 => 2 * aeadLen aead
  | 3 => 32
  | _ => 64

/-- The result keys of an OUTMODE, from the derived bytes. -/
def Job.outKeys (j : Job) (aead om : Nat) (der : List Byte) : List KeySpec :=
  let kl := aeadLen aead
  let alg := (aeadAlg aead).toNat
  match om with
  | 0 => [j.key .enc alg .derived der, j.key .dec alg .derived der]
  | 1 => [j.key .enc alg .derived (der.take kl), j.key .dec alg .derived (der.drop kl)]
  | 2 => [j.key .dec alg .derived (der.take kl), j.key .enc alg .derived (der.drop kl)]
  | _ => [j.key .derive 0x0400 .derived der]

/-- R307: `kem.rekey`: the KMAC256 KDF over the secret. -/
def execKemRekey (id : JobId) (inp : JobIn) (s : State) : Host.Outcome State Fault Refusal :=
  .next (s.kem id 0x25 inp (fun j b ss out x =>
    let d := j.desc
    let tail := b.drop (d.kemIn + if d.hyb then 32 else 0)
    let n := outBytesOf (d.b 48 1) (d.b 49 1)
    let der := fit n (Config.kmac256 ss (tail.drop (d.b 52 2)) (8 * n) (tail.take (d.b 52 2)))
    x.finish j out (j.outKeys (d.b 48 1) (d.b 49 1) der) []))

/-! ## Signatures (R294-R298) -/

/-- The message that a signature binds: MODE, PH, the context and the message part. -/
def Desc.signed (d : Desc) (b : List Byte) : List Byte :=
  [BitVec.ofNat 8 (d.b 40 1), BitVec.ofNat 8 (d.b 41 1)] ++ leBytes 2 (d.b 44 2) ++ b

/-- A verification of pk, signature and message (R297): family opcode `fam`. -/
def State.verifyJob (s : State) (j : Job) (fam : Byte) (pkLen sigLen : Nat) (b : List Byte) : State :=
  if Config.verify fam j.desc.set (b.take pkLen) (j.desc.signed (b.drop (pkLen + sigLen))) (slice b pkLen sigLen) then
    s.endJob j.id {}
  else s.failJob j.id stVerifyFail 0

def execDsaKeygen (id : JobId) (inp : JobIn) (ok : Bool) (s : State) : Host.Outcome State Fault Refusal :=
  .next (s.runJob id 0x28 inp (fun j _ x =>
    x.withMasks j [genDevice] (fun ws y =>
      let seed := leBytes 32 (ws.getD 0 0).toNat
      if ok then
        y.finish j (fit (dsaSizes j.desc.set).1 (Config.pubOf 0x28 j.desc.set seed))
          [j.key .enc (0x1010 + j.desc.set) .generated seed] []
      else y.selfFail j causeLathSelf)))

/-- R296: `dsa.sign`, at most 814 iterations; RESULT holds their number. -/
def execDsaSign (id : JobId) (inp : JobIn) (ok : Bool) (s : State) : Host.Outcome State Fault Refusal :=
  .next (s.runJob id 0x29 inp (fun j b x =>
    x.withMasks j [] (fun ws y =>
      let d := j.desc
      let rnd : W512 := if d.b 42 1 = 1 then 0 else ws.getD 0 0
      let k := Config.signIters d.set j.key0 (d.signed b) rnd
      if 814 < k then y.failJob id stAborted 5
      else if ok then
        y.endJob id { out := fit (dsaSizes d.set).2 (Config.sign 0x28 d.set j.key0 (d.signed b) rnd), result := leBytes 4 k }
      else y.selfFail j causeLathSelf)))

def execDsaVerify (id : JobId) (inp : JobIn) (s : State) : Host.Outcome State Fault Refusal :=
  .next (s.runJob id 0x2A inp (fun j b x =>
    x.verifyJob j 0x28 (dsaSizes j.desc.set).1 (dsaSizes j.desc.set).2 b))

end Sys2Proof.Machine
end

