-- ==== Sys2Proof/Machine/HashCode.lean ====
section
/-!
DEFINITION. The hash-based and code-based jobs (R318-R351): SLH-DSA, LMS and HSS with their index reservation and tree
state, HQC, and Classic McEliece with its key cache and Quad memory regions.
-/
namespace Sys2Proof.Machine

/-! ## SLH-DSA (R324-R327) -/

/-- n of a SET (R325). -/
def slhN (set : Nat) : Nat := (slhSizes set).1 / 2

/-- SK.seed, SK.prf and PK.seed of a slot's seed (R326). -/
def slhExpand (set : Nat) (seed : List Byte) : List Byte :=
  fit (3 * slhN set) (Config.digest 0x16 [] [] (ascii "FQSLH-01" ++ [BitVec.ofNat 8 set] ++ seed) (3 * slhN set))

def slhPkSeed (set : Nat) (seed : List Byte) : List Byte := (slhExpand set seed).drop (2 * slhN set)

def execSlhKeygen (id : JobId) (inp : JobIn) (ok : Bool) (s : State) : Host.Outcome State Fault Refusal :=
  .next (s.runJob id 0x40 inp (fun j _ x =>
    x.withMasks j [genDevice] (fun ws y =>
      let seed := leBytes 32 (ws.getD 0 0).toNat
      if ok then
        y.finish j (slhPkSeed j.desc.set seed ++ fit (slhN j.desc.set) (Config.pubOf 0x40 j.desc.set (slhExpand j.desc.set seed)))
          [j.key .enc (0x1020 + j.desc.set) .generated seed] []
      else y.selfFail j causeLathSelf)))

/-- `slh.sign`; opt_rand is PK.seed where it is deterministic, and n bytes of a mask word otherwise (R324). -/
def execSlhSign (id : JobId) (inp : JobIn) (ok : Bool) (s : State) : Host.Outcome State Fault Refusal :=
  .next (s.runJob id 0x41 inp (fun j b x =>
    x.withMasks j [] (fun ws y =>
      let d := j.desc
      let rnd : W512 :=
        if d.b 42 1 = 1 then BitVec.ofNat 512 (ofLe (slhPkSeed d.set j.key0)) else (ws.getD 0 0) % BitVec.ofNat 512 (256 ^ slhN d.set)
      if ok then
        y.endJob id { out := fit (slhSizes d.set).2 (Config.sign 0x40 d.set (slhExpand d.set j.key0) (d.signed b) rnd) }
      else y.selfFail j causeLathSelf)))

def execSlhVerify (id : JobId) (inp : JobIn) (s : State) : Host.Outcome State Fault Refusal :=
  .next (s.runJob id 0x42 inp (fun j b x =>
    x.verifyJob j 0x40 (slhSizes j.desc.set).1 (slhSizes j.desc.set).2 b))

/-! ## LMS and HSS (R329-R340) -/

/-- n of a SET (R329). -/
def lmsN (set : Nat) : Nat := if set = 1 then 32 else 24

/-- LMS/HSS keys that the device holds (R330). -/
def State.lmsCount (s : State) : Nat :=
  (s.bnd.slots.filter (fun kb => kb.2.st == .allocated && (kb.2.alg == 0x1031 || kb.2.alg == 0x1032))).length

/-- The lowest free slot of the persistent LMS/HSS region that no requested commit takes (R427). -/
def State.lmsSlot (s : State) : Option Nat :=
  ((List.range 512).map (fun i => 7680 + i)).find? (fun k =>
    (s.slot k).st == .free && (Tbl.get ({} : DirEnt) s.image.dir k).kind == 0 &&
      s.commits.all (fun c => c.puts.all (fun p => p.slot != k)))

/-- R330, R331: `lms.keygen`: the key is committed to the journal and the job ends when the commit passes. -/
def execLmsKeygen (id : JobId) (inp : JobIn) (ok : Bool) (s : State) : Host.Outcome State Fault Refusal :=
  if s.commits.any (fun c => c.job == some id) then .next s
  else
    .next (s.runJob id 0x44 inp (fun j _ x =>
      x.withMasks j [genDevice] (fun ws y =>
        let d := j.desc
        let n := lmsN d.set
        let data := leBytes (16 + n) (ws.getD 0 0).toNat ++ leBytes 9 (d.b 40 9)
        if !ok then y.selfFail j causeLathSelf
        else
          match y.lmsSlot with
          | none => y.failJob id stBondFull 0
          | some k =>
            if 512 ≤ y.lmsCount then y.failJob id stBondFull 0
            else
              let pk := beBytes 4 (d.b 40 1) ++ beBytes 4 (d.b 41 1) ++ beBytes 4 (d.b 45 1) ++ data.take 16 ++
                fit n (Config.pubOf 0x44 d.set data)
              (y.updJob id (fun z => { z with res := { out := pk, result := leBytes 8 (lmsOf data).total } })).requestCommit
                { puts := [{ slot := k, kind := 3, usage := .enc, alg := BitVec.ofNat 16 (0x1030 + d.set), level := 1,
                             klen := data.length, data := data }], job := some id })))

/-- R331-R333: `lms.sign` with the index taken at dispatch. No signature with an index at or above the reserved limit is
released before its record is verified. -/
def execLmsSign (id : JobId) (inp : JobIn) (ok : Bool) (s : State) : Host.Outcome State Fault Refusal :=
  .next (s.runJob id 0x45 inp (fun j b x =>
    let k := j.refs.headD 0
    let h := x.hss k
    let q := j.hold.getD 0
    if h.limit.toNat ≤ q then x
    else
      x.withMasks j [] (fun ws y =>
        let p := lmsOf j.key0
        if ok then
          y.endJob id { out := fit p.sigLen (Config.sign 0x44 j.desc.set j.key0 (leBytes 8 q ++ b) (ws.getD 0 0)),
                        result := leBytes 8 q ++ leBytes 8 (p.total - max h.limit.toNat h.next.toNat) }
        else y.selfFail j causeLathSelf)))

/-- A typecode of R329, as a u32 big-endian at the front of some bytes. -/
def lmsCode (set : Nat) (b : List Byte) : Bool := decide (4 ≤ b.length) && lmsTypeOk set 1 0 (ofBe (b.take 4))
def otsCode (set : Nat) (b : List Byte) : Bool := decide (4 ≤ b.length) && otsTypeOk set 1 0 (ofBe (b.take 4))

/-- An LMS public key within the options: LMS type, LM-OTS type, I, and a root of n bytes. -/
def lmsPubOk (set : Nat) (b : List Byte) : Bool :=
  lmsCode set b && otsCode set (b.drop 4) && b.length == 24 + lmsN set

/-- Takes one LMS signature from the front: q, LM-OTS type, C and the chains, LMS type, and the path. None where a typecode or
the length is outside the options. -/
def takeLmsSig (set : Nat) (b : List Byte) : Option (List Byte) :=
  let n := lmsN set
  if otsCode set (b.drop 4) = false then none
  else
    let o := b.drop (8 + n + n * otsP n (otsW (ofBe (slice b 4 4))))
    if lmsCode set o = false then none
    else
      let e := 4 + n * lmsHeight (ofBe (o.take 4))
      if o.length < e then none else some (o.drop e)

/-- The rest of an HSS signature with `k` signed public keys left. -/
def hssSigOk (set : Nat) : Nat → List Byte → Bool
  | 0, b =>
    match takeLmsSig set b with
    | some r => r.isEmpty
    | none => false
  | k + 1, b =>
    match takeLmsSig set b with
    | some r => lmsPubOk set (r.take (24 + lmsN set)) && hssSigOk set k (r.drop (24 + lmsN set))
    | none => false

/-- A public key and a signature within the options of R329: L levels, at most four, with typecodes of the SET. -/
def hssOptions (set : Nat) (pk sig : List Byte) : Bool :=
  let l := ofBe (pk.take 4)
  decide (1 ≤ l ∧ l ≤ 4) && lmsPubOk set (pk.drop 4) && decide (4 ≤ sig.length) && ofBe (sig.take 4) + 1 == l &&
    hssSigOk set (l - 1) (sig.drop 4)

/-- `lms.verify`: a public key or signature outside the options of R329 does not verify. -/
def execLmsVerify (id : JobId) (inp : JobIn) (s : State) : Host.Outcome State Fault Refusal :=
  .next (s.runJob id 0x46 inp (fun j b x =>
    let pk := j.desc.b 40 2
    let sg := j.desc.b 44 4
    if hssOptions j.desc.set (b.take pk) (slice b pk sg) = false then x.failJob id stVerifyFail 0
    else if Config.verify 0x44 j.desc.set (b.take pk) (b.drop (pk + sg)) (slice b pk sg) then x.endJob id {}
    else x.failJob id stVerifyFail 0))

/-- Jobs that wait for a reservation of key `k` at or above `limit` end with ST_MRAM_FAIL (R334). -/
def failAbove (k limit : Nat) : List Job → State → State
  | [], s => s
  | j :: t, s =>
    failAbove k limit t
      (if j.desc.opcode = 0x45 ∧ j.refs.head? = some k ∧ j.st ≠ .ended ∧ limit ≤ j.hold.getD 0 then
        s.failJob j.id stMramFail 0 else s)

/-- The limit that the next reservation of a key raises, where an index at or above the present one has been taken. -/
def Hss.nextWrite (h : Hss) (total : Nat) : Option W64 :=
  if h.limit.toNat < h.next.toNat then
    some (BitVec.ofNat 64 (h.limit.toNat + min 4096 (total - h.limit.toNat))) else none

/-! ### The ring (R334-R337) -/

/-- Writes an entry with the next SEQ at the head of the ring. -/
def Mram.putRes (m : Mram) (slot : Nat) (stamp : W32) (limit : W64) : Mram :=
  { m with res := Tbl.set {} m.res m.resHead { ok := true, slot := slot, stamp := stamp, limit := limit, seq := m.resSeq + 1 },
           resHead := (m.resHead + 1) % 1024, resSeq := m.resSeq + 1 }

/-- An entry whose write fails: its CRC is not valid. -/
def Mram.tearRes (m : Mram) : Mram := { m with res := Tbl.set {} m.res m.resHead {}, resHead := (m.resHead + 1) % 1024 }

/-- Entry `i` is the newest valid one of a live key. A freed key's entries are dead (R337). -/
def State.resLive (s : State) (i : Nat) : Bool :=
  let r := Tbl.get {} s.mram.res (i % 1024)
  r.ok && (s.slot r.slot).st == .allocated && (s.slot r.slot).stamp == r.stamp &&
    s.mram.res.all (fun e => !(e.2.ok && e.2.slot == r.slot && e.2.stamp == r.stamp) || decide (e.2.seq.toNat ≤ r.seq.toNat))

/-- Writes the record of entry `i` again at the head of the ring. -/
def State.copyRes (s : State) (i : Nat) : State :=
  let r := Tbl.get {} s.mram.res (i % 1024)
  { s with mram := s.mram.putRes r.slot r.stamp r.limit }

/-- R336: the newest entry of a live key is written again before it is overwritten. The copies go ahead, so that the entry at
the head, and the one that a retry takes, are always dead (DEDUCED, log entry 115). -/
def clearAhead : Nat → State → State
  | 0, s => s
  | fuel + 1, s =>
    let h := s.mram.resHead
    if s.resLive (h + 1) then clearAhead fuel (s.copyRes (h + 1))
    else if s.resLive (h + 2) then clearAhead fuel (s.copyRes (h + 2))
    else s

/-- R332, R334: a reservation record of key `k` is written and verified, at once or in the next entry, or both attempts fail.
A record that has not started while VIN was below its warning threshold is not written yet (R547). -/
def execReservationWriteDone (k : Nat) (how : ResWrite) (s0 : State) : Host.Outcome State Fault Refusal :=
  let h := s0.hss k
  match h.writing with
  | none => .next s0
  | some r =>
    if h.started = false ∨ (how ≠ .fail ∧ s0.seamDown = true) then .next s0
    else
      let s := clearAhead 1024 s0
      let stamp := (s.slot k).stamp
      if how = .fail then
        let s1 := failAbove k h.limit.toNat s.que.jobs { s with mram := s.mram.tearRes.tearRes }
        .next ((s1.updHss k (fun x => { x with writing := none, started := false })).report 130 0)
      else
        let total := (lmsOf (s.keyBytes k)).total
        let h1 := { h with limit := r, writing := none }
        let w := h1.nextWrite total
        .next { s with
          lth := { s.lth with hss := Tbl.set {} s.lth.hss k { h1 with writing := w, started := w.isSome && !s.pwr.vinWarn } }
          mram := (if how = .retry then s.mram.tearRes else s.mram).putRes k stamp r }

/-- R338, R339: the rebuild of a key's state in its home Quad, or the next tree that a job waits for, is complete, and its jobs
can start. -/
def execLmsRebuildDone (k : Nat) (s : State) : Host.Outcome State Fault Refusal :=
  if (s.hss k).rebuilding ∨ (s.hss k).waitFrom.isSome then
    .next (s.updHss k (fun h => { h with rebuilding := false, waitFrom := none })).assign
  else .next s

/-! ## HQC (R342, R343) -/

def execHqcKeygen (id : JobId) (inp : JobIn) (ok : Bool) (s : State) : Host.Outcome State Fault Refusal :=
  .next (s.runJob id 0x48 inp (fun j _ x =>
    x.withMasks j [genDevice] (fun ws y =>
      let seed := leBytes 64 (ws.getD 0 0).toNat
      if ok then
        y.finish j (fit (hqcSizes j.desc.set).1 (Config.pubOf 0x48 j.desc.set seed))
          [j.key .dec (0x1040 + j.desc.set) .generated seed] []
      else y.selfFail j causeLathSelf)))

def execHqcEncaps (id : JobId) (inp : JobIn) (s : State) : Host.Outcome State Fault Refusal :=
  .next (s.runJob id 0x49 inp (fun j b x =>
    x.withMasks j [] (fun ws y =>
      if Config.pubValid 0x48 j.desc.set b then
        let (ct, ss) := Config.encaps 0x48 j.desc.set b (ws.getD 0 0)
        y.agree j (fit 64 ss) (fit (hqcSizes j.desc.set).2 ct)
      else y.failJob id stRange 0)))

def execHqcDecaps (id : JobId) (inp : JobIn) (s : State) : Host.Outcome State Fault Refusal :=
  .next (s.runJob id 0x4A inp (fun j b x =>
    x.withMasks j [] (fun _ y => y.agree j (fit 64 (Config.decaps 0x48 j.desc.set j.key0 b)) [])))

/-! ## Classic McEliece (R345-R350) -/

/-- Attempts of key generation: the number of the first that succeeds and the word of its seed, within `fuel` attempts. -/
def mceTry : Nat → Nat → State → Option (Nat × W512) × State
  | 0, _, s => (none, s)
  | fuel + 1, n, s =>
    let (w, s1) := s.drawFrom genDevice
    if Config.mceAttemptOk n w then (some (n, w), s1) else mceTry fuel (n + 1) s1

/-- R349: `mce.keygen`, at most 64 attempts; RESULT bytes 36-39 hold their number. -/
def execMceKeygen (id : JobId) (inp : JobIn) (ok : Bool) (s : State) : Host.Outcome State Fault Refusal :=
  .next (s.runJob id 0x4C inp (fun j _ x =>
    x.withMasks j [genDevice] (fun _ y =>
      match mceTry 64 1 y with
      | (none, z) => z.failJob id stAborted 5
      | (some (n, w), z) =>
        let seed := leBytes 32 w.toNat
        if ok then
          z.finish j (fit (mceSizes j.desc.set).1 (Config.pubOf 0x4C j.desc.set seed))
            [j.key .dec (0x1050 + j.desc.set) .generated seed] (leBytes 4 n)
        else z.selfFail j causeLathSelf)))

/-- R346: `mce.encaps`, under a cached key or the supplied one that MCE_KEY_LOADED has placed in its region. -/
def execMceEncaps (id : JobId) (inp : JobIn) (s : State) : Host.Outcome State Fault Refusal :=
  .next (s.runJob id 0x4D inp (fun j _ x =>
    let pk := match j.hold with
      | some e => (x.mceEntry e).pk
      | none => j.key0
    x.withMasks j [] (fun ws y =>
      let (ct, ss) := Config.encaps 0x4C j.desc.set pk (ws.getD 0 0)
      y.agree j (fit 32 ss) (fit (mceSizes j.desc.set).2 ct))))

def execMceDecaps (id : JobId) (inp : JobIn) (s : State) : Host.Outcome State Fault Refusal :=
  .next (s.runJob id 0x4E inp (fun j b x =>
    x.withMasks j [] (fun _ y => y.agree j (fit 32 (Config.decaps 0x4C j.desc.set j.key0 b)) [])))

/-- A dispatched encapsulation that was checked against one of the entries has not ended (R347 step 2). -/
def State.cacheInUse (s : State) (set e : Nat) : Bool :=
  s.que.jobs.any (fun j => j.desc.opcode == 0x4D && j.st != .ended &&
    (match j.hold with
     | some n => n == e || (set == 2)
     | none => false))

/-- R347: `mce.cache`: the key is in every Quad and its tag is valid from now on. -/
def execMceCache (id : JobId) (inp : JobIn) (s : State) : Host.Outcome State Fault Refusal :=
  .next (s.runJob id 0x4F inp (fun j b x =>
    let e := j.hold.getD 0
    let m := x.mceEntry e
    if x.cacheInUse j.desc.set e then x
    else
      ({ x with lth := { x.lth with cache := Tbl.set {} x.lth.cache e { m with loading := false, valid := true, pk := b } } }).endJob
        id { result := leBytes 4 m.tag.toNat }))

/-! ## Quad memory regions (R341, R348, R349) -/

/-- Bytes of the region that a job needs in banks 0-3. -/
def Job.regionSize (j : Job) : Nat :=
  if j.desc.opcode = 0x4C then (if j.desc.set = 1 then 334848 else 1391104) else (mceSizes j.desc.set).1

/-- No region of Quad `q` meets the bytes from `base` on. -/
def State.regionFree (s : State) (q base size : Nat) : Bool :=
  decide (base + size ≤ 2097152) &&
    s.lth.regions.all (fun r => r.quad != q || decide (r.base + r.size ≤ base ∨ base + size ≤ r.base))

/-- The lowest place for a region: byte 0 or the end of a region (log entry 35). -/
def State.regionAt (s : State) (q size : Nat) : Option Nat :=
  ((0 :: (s.lth.regions.filter (fun r => r.quad == q)).map (fun r => r.base + r.size)).filter
    (fun b => s.regionFree q b size)).foldl (fun m b =>
      match m with
      | none => some b
      | some x => some (min x b)) none

/-- The places that R348 and R349 limit: four key generations and one per Quad, four loads. -/
def State.regionRoom (s : State) (j : Job) (q : Nat) : Bool :=
  let gens := s.lth.regions.filter (fun r =>
    match s.findJob r.job with
    | some x => x.desc.opcode == 0x4C
    | none => false)
  if j.desc.opcode = 0x4C then decide (gens.length < 4) && gens.all (fun r => r.quad != q)
  else decide ((s.que.jobs.filter (fun x => x.blocked == 2)).length < 4)

/-- R341: a region of Quad `q` becomes available to a job that waits for it; for `lms.sign` a home Quad (R338). A
supplied key then starts to load (R348). -/
def execRegionAlloc (id : JobId) (q : Nat) (s : State) : Host.Outcome State Fault Refusal :=
  match s.findJob id with
  | none => .next s
  | some j =>
    if j.blocked ≠ 1 ∨ j.st ≠ .waiting then .next s
    else if j.desc.opcode = 0x45 then
      let s1 := s.giveHome (j.refs.headD 0)
      match (s1.hss (j.refs.headD 0)).home with
      | none => .next s
      | some h => .next ((s1.updJob id (fun x => { x with quad := some h, blocked := 0 })).assign)
    else if (List.range 4).all (fun i => !s.serves j.cls .lath (4 * q + i)) ∨ s.regionRoom j q = false then .next s
    else
      match s.regionAt q j.regionSize with
      | none => .next s
      | some b =>
        let s1 := { s with lth := { s.lth with
          regions := s.lth.regions ++ [({ quad := q, base := b, size := j.regionSize, job := id } : Region)] } }
        .next ((s1.updJob id (fun x =>
          { x with quad := some q, blocked := if j.desc.opcode = 0x4D then 2 else 0 })).assign)

/-- R348: the load of a supplied key ends and its job joins the Lath wait list. -/
def execMceKeyLoaded (id : JobId) (inp : JobIn) (s : State) : Host.Outcome State Fault Refusal :=
  match s.findJob id with
  | none => .next s
  | some j =>
    if j.blocked ≠ 2 ∨ j.st ≠ .waiting ∨ (s.fn j.fn).bme = false then .next s
    else
      match inp with
      | .fail e => .next ((s.wakeLink.dmaFailed e).failJob id stDmaError e.code)
      | .got b => .next ((s.wakeLink.updJob id (fun x => { x with blocked := 0, keys := [fit j.desc.inLen.toNat b] })).assign)

end Sys2Proof.Machine
end

