-- ==== Sys2Proof/Machine/Sponge.lean ====
section
/-!
DEFINITION. Sponge jobs (R352-R378): plain digests, HMAC, KMAC and key derivation as the chapter composes them, contexts,
their export and import, and the yield and resume of a pool job. The hash functions are opaque (log entry 3).
-/
namespace Sys2Proof.Machine

/-! ## Compositions (R370, R371, R373) -/

/-- The plain digest of a byte string. -/
def plainHash (alg : Nat) (msg : List Byte) : List Byte :=
  fit (algDigest alg) (Config.digest (BitVec.ofNat 8 alg) [] [] msg (algDigest alg))

def xorBytes (l : List Byte) (c : Byte) : List Byte := l.map (fun x => x ^^^ c)

/-- The key of an HMAC as one block. -/
def hmacBlock (alg : Nat) (key : List Byte) : List Byte :=
  fit (algBlock alg) (if algBlock alg < key.length then plainHash alg key else key)

/-- HMAC of FIPS 198-1 (R370), its full digest. -/
def hmacOf (alg : Nat) (key msg : List Byte) : List Byte :=
  let k0 := hmacBlock alg key
  plainHash alg (xorBytes k0 0x5C ++ plainHash alg (xorBytes k0 0x36 ++ msg))

/-- `n` blocks of `f`, numbered from 1. -/
def counted (f : Nat → List Byte) (n : Nat) : List Byte := (List.range n).flatMap (fun i => f (i + 1))

def ceilDiv (a b : Nat) : Nat := (a + b - 1) / b

/-- SP 800-108 counter mode with HMAC (R373). -/
def counterMode (alg : Nat) (key label ctx : List Byte) (n : Nat) : List Byte :=
  (counted (fun i => hmacOf alg key (beBytes 4 i ++ label ++ [0] ++ ctx ++ beBytes 4 (8 * n)))
    (ceilDiv n (algDigest alg))).take n

/-- SP 800-56C one-step with the auxiliary function `h` of output length `d`. -/
def oneStep (h : List Byte → List Byte) (d : Nat) (z info : List Byte) (n : Nat) : List Byte :=
  (counted (fun i => h (beBytes 4 i ++ z ++ info)) (ceilDiv n d)).take n

/-- The salt, or B zero bytes where it is empty. -/
def saltOf (alg : Nat) (salt : List Byte) : List Byte := if salt.isEmpty then List.replicate (algBlock alg) 0 else salt

/-- The `n` derived bytes of a KDF code (R373). -/
def kdfBytes (kdf : Nat) (z salt label ctx : List Byte) (n : Nat) : List Byte :=
  let alg := kdfAlg kdf
  if kdf ≤ 0x03 then counterMode alg z label ctx n
  else if kdf = 0x04 then fit n (Config.kmac 0x21 z ctx n label)
  else if kdf = 0x05 then fit n (Config.kmac256 z ctx (8 * n) label)
  else if kdf ≤ 0x15 then oneStep (plainHash alg) (algDigest alg) z (label ++ ctx) n
  else if kdf ≤ 0x17 then oneStep (hmacOf alg (saltOf alg salt)) (algDigest alg) z (label ++ ctx) n
  else counterMode alg (hmacOf alg (saltOf alg salt) z) label ctx n

/-! ## Units of work (R352), for SPG_CORE_UNITS -/

/-- Blocks that the absorption of bytes `t0` to `t1` of a stream completes. -/
def midUnits (alg t0 t1 : Nat) : Nat := t1 / algBlock alg - t0 / algBlock alg

/-- Blocks from byte `t0` of a stream to its end at `t1`, padding and further output blocks among them. -/
def endUnits (alg t0 t1 out : Nat) : Nat :=
  let b := algBlock alg
  if alg < 0x10 then ceilDiv (t1 + 1 + (if b = 64 then 8 else 16)) b - t0 / b else t1 / b + 1 - t0 / b + (out - 1) / b

/-- Bytes of encode_string of `n` bytes. -/
def encStr (n : Nat) : Nat := (if n < 32 then 2 else 3) + n

def hashUnits (alg n : Nat) : Nat := endUnits alg 0 n 1

def hmacUnits (alg key n : Nat) : Nat :=
  (if algBlock alg < key then hashUnits alg key else 0) + hashUnits alg (algBlock alg + n) +
    hashUnits alg (algBlock alg + algDigest alg)

def kmacUnits (alg s n out : Nat) : Nat :=
  ceilDiv (2 + encStr 4 + encStr s) (algBlock alg) + 1 + endUnits alg 0 (n + 3) out

def kdfUnits (kdf z salt info label ctx n : Nat) : Nat :=
  let alg := kdfAlg kdf
  let sl := if salt = 0 then algBlock alg else salt
  let k := ceilDiv n (algDigest alg)
  if kdf ≤ 0x03 then k * hmacUnits alg z (4 + label + 1 + ctx + 4)
  else if kdf ≤ 0x05 then kmacUnits alg label ctx n
  else if kdf ≤ 0x15 then k * hashUnits alg (4 + z + info)
  else if kdf ≤ 0x17 then k * hmacUnits alg sl (4 + z + info)
  else hmacUnits alg sl z + k * hmacUnits alg (algDigest alg) (4 + label + 1 + ctx + 4)

/-- Units of the phases of a message: `t0` bytes were absorbed before, `t1` after. `pre` counts the blocks of prefix and
key at the start, `tail` those behind the message at the end. -/
def phaseUnits (d : Desc) (alg off t0 t1 out pre tail : Nat) : Nat :=
  (if d.isFirst then pre else 0) +
    (if d.isLast then endUnits alg (off + t0) (off + t1) out + tail else midUnits alg (off + t0) (off + t1))

/-- Mask words of one unit of work (R352). -/
def Job.unitWords (j : Job) : Nat := if j.shares = 3 then 6 else if j.shares = 2 then 2 else 0

/-- Counts units on the core of a pool job, saturating, and draws their mask words from the pool generator (R352, R353). -/
def State.coreUnits (s0 : State) (j : Job) (n : Nat) : State :=
  let c := if j.kind = .sha2 then 8 + j.engine else j.engine
  let s := if j.shares = 1 then s0 else s0.drawMany genPool (n * j.unitWords)
  s.updCore c (fun x => { x with units := BitVec.ofNat 64 (min (2 ^ 64 - 1) (x.units.toNat + n)) })

/-! ## Phases -/

/-- The context that a job works on: the one it names, or a new one from its prefix fields and key. -/
def State.startCtx (s : State) (j : Job) (b : List Byte) : Ctx :=
  let d := j.desc
  if d.isFirst then
    let n := d.b 44 2
    let m := d.b 46 2
    let pre := b.take (n + m)
    { alloc := true, fn := j.fn, gen := j.gen, q := j.id.q, opcode := d.opcode, alg := BitVec.ofNat 8 d.alg,
      verify := d.ver, keyed := d.op != 0x60, shares := if d.op = 0x60 then 1 else j.shares,
      pre := if d.op = 0x60 ∧ 0 < n + m then leBytes 2 n ++ pre else pre, key := j.key0 }
  else s.ctx (d.b 40 2)

/-- The message part of a job's input. -/
def Desc.part (d : Desc) (b : List Byte) : List Byte :=
  let m := if d.isFirst then b.drop (d.b 44 2 + d.b 46 2) else b
  if d.ver && d.isLast then m.take (m.length - d.b 42 2) else m

/-- RESULT of a successful phase: the new context's number for a START, and the bytes absorbed so far (R359). -/
def phaseResult (d : Desc) (hold : Option Nat) (total : Nat) : List Byte :=
  leBytes 4 (if d.phase = 1 then hold.getD 0 else 0) ++ leBytes 8 total

/-- Ends a phase: START and UPDATE write the context back, ONESHOT and FINISH give `fin c` of the complete message as
output or compare it with the tag (R360); a FINISH frees its context, which stays busy until its record is written. -/
def State.phase (s : State) (j : Job) (b : List Byte) (fin : Ctx → List Byte) (pre tail off : Nat) : State :=
  let d := j.desc
  let c0 := s.startCtx j b
  if d.isFirst = false ∧ (s.ctxOk j.fn j.id.q d = false ∨ c0.verify ≠ d.ver) then s.failJob j.id stBadDesc 40
  else
    let m := d.part b
    let total := c0.count.toNat + m.length
    let c : Ctx := { c0 with count := BitVec.ofNat 64 total, absorbed := c0.absorbed ++ m }
    let out := fin c
    let t0 := c0.absorbed.length
    let s1 := s.coreUnits j (phaseUnits d d.alg off t0 (t0 + m.length) out.length pre tail)
    let res := phaseResult d j.hold total
    if d.isLast then
      let close := fun (x : State) =>
        match d.phase, j.hold with
        | 3, some n => x.updCtx n (fun y => { alloc := true, fn := y.fn, gen := y.gen, q := y.q })
        | _, _ => x
      if d.ver then
        (if out = b.drop (b.length - d.b 42 2) then (close s1).endJob j.id { result := res } else s1.failJob j.id stAuthFail 0)
      else (close s1).endJob j.id { out := out, result := res }
    else
      match j.hold with
      | some n => (s1.updCtx n (fun _ => { c with live := true })).endJob j.id { result := res }
      | none => s1.endJob j.id { result := res }

/-- `hash.digest` (R358, R359). -/
def execHashDigest (id : JobId) (inp : JobIn) (s : State) : Host.Outcome State Fault Refusal :=
  .next (s.runJob id 0x60 inp (fun j b x =>
    let d := j.desc
    let n := if algIsXof d.alg then d.b 48 4 else algDigest d.alg
    let cs := d.b 44 2 + d.b 46 2
    let pre := if algIsCshake d.alg ∧ 0 < cs then ceilDiv (2 + encStr (d.b 44 2) + encStr (d.b 46 2)) (algBlock d.alg) else 0
    x.phase j b (fun c => fit n (Config.digest c.alg c.base c.pre c.absorbed n)) pre 0 0))

/-- `mac.hmac` (R370). -/
def execMacHmac (id : JobId) (inp : JobIn) (s : State) : Host.Outcome State Fault Refusal :=
  .next (s.runJob id 0x62 inp (fun j b x =>
    x.whenSeeded id genPool (fun y =>
      let a := j.desc.alg
      y.phase j b (fun c => (hmacOf a c.key c.absorbed).take (j.desc.b 42 2)) 1
        (hashUnits a (algBlock a + algDigest a)) (algBlock a))))

/-- `mac.kmac` (R371). -/
def execMacKmac (id : JobId) (inp : JobIn) (s : State) : Host.Outcome State Fault Refusal :=
  .next (s.runJob id 0x63 inp (fun j b x =>
    x.whenSeeded id genPool (fun y =>
      let n := j.desc.b 42 2
      y.phase j b (fun c => fit n (Config.kmac c.alg c.key c.absorbed n c.pre))
        (ceilDiv (2 + encStr 4 + encStr (j.desc.b 46 2)) (algBlock j.desc.alg) + 1) 0 0)))

/-- `kdf.derive` (R373-R375): the derived bytes go into Bond slots only. -/
def execKdfDerive (id : JobId) (inp : JobIn) (s : State) : Host.Outcome State Fault Refusal :=
  .next (s.runJob id 0x64 inp (fun j b x =>
    x.whenSeeded id genPool (fun y =>
      let d := j.desc
      let sl := d.b 50 2
      let ll := d.b 52 2
      let cl := d.b 54 2
      let n := outBytesOf (d.b 48 1) (d.b 49 1)
      let z := j.keys.flatten
      let der := kdfBytes d.alg z (b.take sl) (slice b sl ll) (slice b (sl + ll) cl) n
      (y.coreUnits j (kdfUnits d.alg z.length sl (ll + cl) ll cl n)).finish j [] (j.outKeys (d.b 48 1) (d.b 49 1) der) [])))

/-! ## Export and import (R367, R368) -/

/-- The context record of R367. -/
def Ctx.exportRec (c : Ctx) : List Byte :=
  let blk := algBlock c.alg.toNat
  let n := c.absorbed.length / blk * blk
  let st := if n = 0 ∧ c.base ≠ [] then c.base.take 200
    else fit 200 (Config.spongeState c.alg c.base c.pre (c.absorbed.take n))
  let buf := c.absorbed.drop n
  let body := leBytes 4 0x58485346 ++ [c.alg, 1] ++ leBytes 2 buf.length ++ leBytes 8 c.count.toNat ++ leBytes 8 0 ++
    st ++ fit 168 buf ++ leBytes 4 0
  body ++ leBytes 4 (Config.crc32c body).toNat

/-- The lowest offset at which a record is wrong (R368). -/
def importFault (b : List Byte) : Option Nat :=
  let alg := fieldLe b 4 1
  let len := fieldLe b 6 2
  let zeroFrom := fun (lo hi : Nat) =>
    ((List.range (hi - lo)).map (fun i => lo + i)).find? (fun i => b.getD i 0 != 0)
  if fieldLe b 0 4 ≠ 0x58485346 then some 0
  else if (isHmacAlg alg || algIsXof alg) = false then some 4
  else if fieldLe b 5 1 ≠ 1 then some 5
  else if algBlock alg ≤ len then some 6
  else
    (zeroFrom 16 24) <|>
      (if alg ≤ 0x02 then zeroFrom 56 224 else if alg < 0x10 then zeroFrom 88 224 else none) <|>
      (zeroFrom (224 + len) 396) <|>
      (if fieldLe b 396 4 = (Config.crc32c (b.take 396)).toNat then none else some 396)

/-- `hash.import` (R368). -/
def execHashImport (id : JobId) (inp : JobIn) (s : State) : Host.Outcome State Fault Refusal :=
  .next (s.runJob id 0x61 inp (fun j b x =>
    match importFault b, j.hold with
    | some o, _ => x.failJob id stBadDesc (65536 + o)
    | none, none => x.failJob id stCtxFull 0
    | none, some n =>
      (x.updCtx n (fun c =>
        { c with live := true, opcode := 0x60, alg := b.getD 4 0, count := BitVec.ofNat 64 (fieldLe b 8 8),
                 base := slice b 24 200 ++ slice b 8 8, absorbed := slice b 224 (fieldLe b 6 2) })).endJob id
        { result := leBytes 2 n }))

/-- A dispatched job names the context (R363). -/
def State.ctxBusy (s : State) (n : Nat) : Bool := s.que.jobs.any (fun j => j.ctxNo == some n)

/-- Context `n` exists for function `f` and is idle. -/
def State.ctxIdle (s : State) (f n : Nat) : Bool :=
  let c := s.ctx n
  c.live && c.fn == f && c.gen == (s.fn f).gen && !s.ctxBusy n

/-- `hash.export` (R367). -/
def execHashExport (h : Hdr) (n : Nat) (out : Buf) (s : State) : Host.Outcome State Fault Refusal :=
  .next (s.run h { vf := true, expertOnly := true, len := 24, lenX := 24, buf := true, bufX := true } (fun x =>
    let f := h.iss.fn
    if f ≠ 0 ∧ (x.fn f).perm.getLsbD 1 = false then .err (stNotPermitted, 0)
    else if out.mbz ≠ 0 then .err (stBadArg, 36)
    else if x.ctxIdle f n = false ∨ out.len.toNat < 400 then .err (stBadArg, 16)
    else if (x.ctx n).keyed then .err (stNotPermitted, 0)
    else
      match x.writeBuf f out (x.ctx n).exportRec with
      | .error e => .err e
      | .ok x1 => .ok x1 (leBytes 4 400)))

/-- `ctx.free` (R364). -/
def execCtxFree (h : Hdr) (n : Nat) (s : State) : Host.Outcome State Fault Refusal :=
  .next (s.run h { vf := true, len := 2, lenX := 2 } (fun x =>
    if x.ctxIdle h.iss.fn n then .ok (x.updCtx n (fun _ => {})) [] else .err (stBadArg, 16)))

/-! ## Preemption (R366) -/

/-- A job of another queue of the same class waits for a core of the same kind. -/
def State.rivalWaits (s : State) (j : Job) : Bool :=
  s.que.jobs.any (fun x => x.cls == j.cls && x.kind == j.kind && x.id.q != j.id.q && x.st == .waiting)

/-- A core of the job's kind in its class mask is idle. -/
def State.poolIdle (s : State) (j : Job) : Bool :=
  (List.range 8).any (fun n => s.serves j.cls j.kind n && s.engineFree j.kind n)

def EKind.isPool : EKind → Bool
  | .keccak => true
  | .sha2 => true
  | _ => false

/-- R366: a running pool job reaches the block boundary at which its class quantum is used. It yields where another
queue's job waits and no core is idle, and where its core is being drained (R611); without a save slot it keeps its core,
and NOSAVE latches outside a drain. -/
def execPoolYield (id : JobId) (s : State) : Host.Outcome State Fault Refusal :=
  match s.findJob id with
  | none => .next s
  | some j =>
    let drains : Bool := (s.unit (j.kind.unit j.engine)).st == .draining
    if j.st ≠ .running ∨ j.kind.isPool = false ∨ j.desc.op = 0x61 ∨ j.desc.op = 0x64 ∨
        (drains = false ∧ (s.rivalWaits j = false ∨ s.poolIdle j = true)) then .next s
    else if 64 ≤ s.spg.saved.length then .next (if drains then s else { s with spg := { s.spg with noSave := true } })
    else
      let s1 := (s.updJob id (fun x => { x with st := .suspended })).leaveEngine j
      let mine := s1.que.jobs.filter (fun x => x.id == id)
      let rest := s1.que.jobs.filter (fun x => x.id != id)
      .next ({ s1 with
        que := { s1.que with jobs := rest ++ mine }
        spg := { s1.spg with saved := s1.spg.saved ++ [id], yieldCnt := satInc s1.spg.yieldCnt } }).assign

/-- R366: a job that has yielded is the next one of a free core of its kind and goes on there; its save slot is wiped. -/
def execPoolResume (id : JobId) (s : State) : Host.Outcome State Fault Refusal :=
  match s.findJob id with
  | none => .next s
  | some j =>
    if j.st ≠ .suspended ∨ j.kind.isPool = false ∨ s.held = true then .next s
    else
      match (List.range 8).find? (fun n => (match s.nextJob j.kind n with
          | some (x, _) => x.id == id
          | none => false)) with
      | none => .next s
      | some n =>
        match s.nextJob j.kind n with
        | none => .next s
        | some (x, r) =>
          let s1 := s.takeNext j.kind n x r
          .next { s1 with spg := { s1.spg with saved := s1.spg.saved.filter (fun i => i != id) } }

end Sys2Proof.Machine
end

