-- ==== Sys2Proof/Machine/HawkOps.lean ====
section
/-!
DEFINITION. Hawk jobs (R379-R404): elliptic-curve, RSA and big-number operations. The curve and padding algorithms are
opaque (log entry 3); the order and the outcome of the input checks (R397), the ranges and the modular arithmetic of
public integers are written out.
-/
namespace Sys2Proof.Machine

/-! ## Integers -/

/-- The 8 bits of a byte, most significant first. -/
def bitsOf (b : Byte) : List Bool := (List.range 8).map (fun i => b.getLsbD (7 - i))

/-- Square-and-multiply over the bits of an exponent. -/
def powBits (b m : Nat) : Nat → List Bool → Nat
  | acc, [] => acc
  | acc, true :: t => powBits b m (acc * acc % m * b % m) t
  | acc, false :: t => powBits b m (acc * acc % m) t

/-- base^e mod m for a big-endian exponent; 0^0 is 1. -/
def powMod (b m : Nat) (e : List Byte) : Nat := powBits b m (1 % m) (e.flatMap bitsOf)

/-- The orders of P-256 and P-384 (SP 800-186). -/
def curveOrder : Nat → Nat
  | 3 => 0xFFFFFFFF00000000FFFFFFFFFFFFFFFFBCE6FAADA7179E84F3B9CAC2FC632551
  | _ => 0xFFFFFFFFFFFFFFFFFFFFFFFFFFFFFFFFFFFFFFFFFFFFFFFFC7634D81F4372DDF581A0DB248B0A77AECEC196ACCC52973

/-- Bytes of a private scalar. -/
def scalarLen (c : Nat) : Nat := if c = 4 then 48 else 32

/-- The private value of R391 from a random word: 32 random bytes, or (c mod (n - 1)) + 1 of 64 bits more than the order. -/
def privOf (c : Nat) (w : W512) : List Byte :=
  if c ≤ 2 then leBytes 32 w.toNat
  else beBytes (scalarLen c) ((w.toNat % 2 ^ (8 * scalarLen c + 64)) % (curveOrder c - 1) + 1)

/-! ## Outcomes -/

/-- A job ends by an early rejection, which its engine counts (R397, HWK_STATS). -/
def State.early (s : State) (j : Job) (st : W16) : State :=
  (s.failJob j.id st 0).updHawk j.engine (fun e => { e with early := satInc e.early })

/-- The options and lengths of a signature job, as its message binds them. -/
def Desc.sigOpts (d : Desc) : List Byte := leBytes 2 (d.b 40 2) ++ leBytes 4 (d.b 42 4) ++ leBytes 2 (d.b 46 2)

/-! ## Elliptic curves -/

/-- `ec.keygen` (R391). `ok` tells whether the check of the key pair passed. -/
def execEcKeygen (id : JobId) (inp : JobIn) (ok : Bool) (s : State) : Host.Outcome State Fault Refusal :=
  .next (s.runJob id 0x70 inp (fun j _ x =>
    x.withHawk j 1 (fun ws y =>
      let c := j.desc.set
      let priv := privOf c (ws.getD 0 0)
      let use : Usage := if c = 1 then .dec else if c = 2 then .enc else if j.desc.b 40 1 = 0 then .dec else .enc
      let pub := if c = 1 then Config.x25519Pub priv else Config.pubOf 0x70 c priv
      if ok then y.finish j (fit (curvePk c) pub) [j.key use (0x2000 + c) .generated priv] []
      else y.selfFail j causeHawkSelf)))

/-- `ec.dh` (R387, R397): an invalid point and an all-zero X25519 result end with ST_POINT_INVALID. -/
def execEcDh (id : JobId) (inp : JobIn) (ok : Bool) (s : State) : Host.Outcome State Fault Refusal :=
  .next (s.runJob id 0x71 inp (fun j b x =>
    x.withHawk j 0 (fun _ y =>
      let c := j.desc.set
      let ss := if c = 1 then fit 32 (Config.x25519 j.key0 b) else fit (scalarLen c) (Config.decaps 0x71 c j.key0 b)
      if (if c = 1 then ss.all (fun z => z == 0) else !Config.pubValid 0x71 c b) then y.failJob id stPointInvalid 0
      else if ok then y.finish j [] [j.key .derive 0x0400 .agreed ss] []
      else y.selfFail j causeHawkSelf)))

/-- `ec.sign`: ECDSA draws its nonce, Ed25519 derives it (R396). -/
def execEcSign (id : JobId) (inp : JobIn) (ok : Bool) (s : State) : Host.Outcome State Fault Refusal :=
  .next (s.runJob id 0x72 inp (fun j b x =>
    let c := j.desc.set
    x.withHawk j (if c = 2 then 0 else 1) (fun ws y =>
      if ok then
        y.endJob id { out := fit (curveSig c) (Config.sign 0x72 c j.key0 (j.desc.sigOpts ++ b) (if c = 2 then 0 else ws.getD 0 0)) }
      else y.selfFail j causeHawkSelf)))

/-- r and s of an ECDSA signature lie in 1 to n - 1. -/
def ecdsaRange (c : Nat) (sig : List Byte) : Bool :=
  let r := ofBe (sig.take (scalarLen c))
  let v := ofBe (sig.drop (scalarLen c))
  r != 0 && v != 0 && decide (r < curveOrder c) && decide (v < curveOrder c)

/-- `ec.verify`: the public key, then the form of the signature, then the equation (R397). -/
def execEcVerify (id : JobId) (inp : JobIn) (s : State) : Host.Outcome State Fault Refusal :=
  .next (s.runJob id 0x73 inp (fun j b x =>
    let d := j.desc
    let c := d.set
    let pk := b.take (curvePk c)
    let sig := slice b (curvePk c) (curveSig c)
    if Config.pubValid 0x73 c pk = false then x.early j stPointInvalid
    else if (if c = 2 then Config.inRange 0x73 c sig else ecdsaRange c sig) = false then x.early j stVerifyFail
    else if Config.verify 0x72 c pk (d.sigOpts ++ b.drop (curvePk c + curveSig c)) sig then x.endJob id {}
    else x.failJob id stVerifyFail 0))

/-! ## RSA -/

/-- The modulus of a private key in CRT form: p times q (R389). -/
def rsaMod (bits : Nat) (key : List Byte) : Nat := ofBe (key.take (bits / 16)) * ofBe (slice key (bits / 16) (bits / 16))

/-- `rsa.sign`: PSS draws its salt (R396). -/
def execRsaSign (id : JobId) (inp : JobIn) (ok : Bool) (s : State) : Host.Outcome State Fault Refusal :=
  .next (s.runJob id 0x74 inp (fun j b x =>
    let pss : Bool := j.desc.b 40 1 == 0
    x.withHawk j (if pss then 1 else 0) (fun ws y =>
      let n := j.desc.modBits
      if ok then y.endJob id { out := fit (n / 8) (Config.sign 0x74 n j.key0 (j.desc.sigOpts ++ b) (if pss then ws.getD 0 0 else 0)) }
      else y.selfFail j causeHawkSelf)))

/-- n has its top bit set and is odd; e is odd, 3 or more and below n (R397). -/
def rsaPubOk (bits n e : Nat) : Bool :=
  decide (2 ^ (bits - 1) ≤ n) && n % 2 == 1 && e % 2 == 1 && decide (3 ≤ e ∧ e < n)

/-- `rsa.verify`: the ranges, then the encoding of s^e mod n. -/
def execRsaVerify (id : JobId) (inp : JobIn) (s : State) : Host.Outcome State Fault Refusal :=
  .next (s.runJob id 0x75 inp (fun j b x =>
    let d := j.desc
    let k := d.modBits / 8
    let el := d.b 48 2
    let n := ofBe (b.take k)
    let sig := slice b (k + el) k
    if rsaPubOk d.modBits n (ofBe (slice b k el)) = false ∨ n ≤ ofBe sig then x.early j stRange
    else
      let em := beBytes k (powMod (ofBe sig) n (slice b k el))
      if Config.verify 0x74 d.modBits em (d.sigOpts ++ b.drop (2 * k + el)) [] then x.endJob id {}
      else x.failJob id stVerifyFail 0))

/-- `rsa.encrypt`: OAEP with a random seed; the integer is raised to e. -/
def execRsaEncrypt (id : JobId) (inp : JobIn) (s : State) : Host.Outcome State Fault Refusal :=
  .next (s.runJob id 0x76 inp (fun j b x =>
    let d := j.desc
    let k := d.modBits / 8
    let el := d.b 48 2
    let n := ofBe (b.take k)
    let e := slice b k el
    x.withHawk j 1 (fun ws y =>
      if rsaPubOk d.modBits n (ofBe e) = false then y.early j stRange
      else
        let em := fit k ((0 : Byte) :: Config.bignum 0x76 d.modBits (d.sigOpts ++ b.drop (k + el)) [] (ws.getD 0 0))
        y.endJob id { out := beBytes k (powMod (ofBe em) n e) })))

/-- `rsa.decrypt`: a ciphertext of n or above, then the decoding, whose failures all look alike (R397). -/
def execRsaDecrypt (id : JobId) (inp : JobIn) (ok : Bool) (s : State) : Host.Outcome State Fault Refusal :=
  .next (s.runJob id 0x77 inp (fun j b x =>
    x.withHawk j 0 (fun _ y =>
      let d := j.desc
      let bits := d.modBits
      let label := b.take (d.b 42 2)
      let ct := b.drop (d.b 42 2)
      let opts := d.sigOpts ++ label
      if rsaMod bits j.key0 ≤ ofBe ct then y.failJob id stRange 0
      else if !ok then y.selfFail j causeHawkSelf
      else
        let msg := (Config.bignum 0x77 bits j.key0 (opts ++ ct) 0).take (bits / 8 - 2 * hashLen (d.b 41 1) - 2)
        let good := Config.inRange 0x77 bits (j.key0 ++ opts ++ ct)
        if d.b 50 1 = 1 then
          (if good ∧ msg.length = d.b 51 1 then y.finish j [] [j.key .derive 0x0400 .agreed msg] []
           else y.failJob id stAuthFail 0)
        else if good then y.endJob id { out := msg }
        else y.failJob id stAuthFail 0)))

/-! ## Big numbers (R397) -/

/-- `bn.modexp`. -/
def execBnModexp (id : JobId) (inp : JobIn) (s : State) : Host.Outcome State Fault Refusal :=
  .next (s.runJob id 0x78 inp (fun j b x =>
    let k := j.desc.modBits / 8
    let m := ofBe (b.take k)
    let a := ofBe (slice b k k)
    if m % 2 = 0 ∨ m < 3 ∨ m ≤ a then x.early j stRange
    else x.endJob id { out := beBytes k (powMod a m (b.drop (2 * k))) }))

/-- `bn.modmul`. -/
def execBnModmul (id : JobId) (inp : JobIn) (s : State) : Host.Outcome State Fault Refusal :=
  .next (s.runJob id 0x79 inp (fun j b x =>
    let k := j.desc.modBits / 8
    let m := ofBe (b.take k)
    let a := ofBe (slice b k k)
    let c := ofBe (b.drop (2 * k))
    if m % 2 = 0 ∨ m < 3 ∨ m ≤ a ∨ m ≤ c then x.early j stRange
    else x.endJob id { out := beBytes k (a * c % m) }))

end Sys2Proof.Machine
end

