-- ==== Sys2Proof/Machine/Frames.lean ====
section
/-!
DEFINITION. The inline path at work (R153-R193): frames received, classified, protected and verified (R156-R168), packet
numbers and replay (R182-R185), the egress stage (R26), flow control, epoch timers, the link states of a sub-port, and
the takeover by a spare Render engine.
-/
namespace Sys2Proof.Machine

/-! ## Fields of a frame, as on the wire -/

def be16 (l : List Byte) (off : Nat) : Nat := ofBe (slice l off 2)

def isVlanType (t : Nat) : Bool := t == 0x8100 || t == 0x88A8

/-- Offset of the EtherType behind at most `n` VLAN tags, from offset 12. -/
def etherOff : Nat → Nat → List Byte → Nat
  | 0, off, _ => off
  | n + 1, off, l => if isVlanType (be16 l off) then etherOff n (off + 4) l else off

/-- The outer VLAN tag of a frame, where it has one. -/
def outerTag (l : List Byte) : Option Nat := if isVlanType (be16 l 12) then some (be16 l 14) else none

/-- The priority of a frame (R157). -/
def prioOf (l : List Byte) : Nat := ((outerTag l).getD 0) / 8192

/-! ## The uncontrolled set (R163) -/

/-- Offset of the UDP header of an IPv6 packet whose next header is `nh` at `off`, past extension headers. -/
def udp6 : Nat → Nat → Nat → List Byte → Option Nat
  | 0, _, _, _ => none
  | k + 1, nh, off, l =>
    if nh = 17 then some off
    else if nh = 0 ∨ nh = 43 ∨ nh = 60 then
      udp6 k (fieldLe l off 1) (off + 8 * (fieldLe l (off + 1) 1 + 1)) l
    else none

/-- Offset of the UDP header of an IP packet at `off`. -/
def udpOff (l : List Byte) (ty off : Nat) : Option Nat :=
  if ty = 0x0800 then
    (if fieldLe l (off + 9) 1 = 17 ∧ be16 l (off + 6) % 8192 = 0 then some (off + 4 * (fieldLe l off 1 % 16)) else none)
  else if ty = 0x86DD then udp6 9 (fieldLe l (off + 6) 1) (off + 40) l
  else none

/-- IKE: UDP to port 500, or to port 4500 with the non-ESP marker. -/
def isIke (l : List Byte) : Bool :=
  let e := etherOff 2 12 l
  match udpOff l (be16 l e) (e + 2) with
  | none => false
  | some u =>
    decide (u + 8 ≤ l.length) && (be16 l (u + 2) == 500 ||
      (be16 l (u + 2) == 4500 && decide (u + 12 ≤ l.length) && allZero l (u + 8) 4))

def Pair.esp (p : Pair) (sub : Nat) : Bool := p.proto.getLsbD sub

def Pair.uncontrolled (p : Pair) (sub : Nat) (l : List Byte) : Bool :=
  (p.unctrl.getLsbD 0 && be16 l (etherOff 2 12 l) == 0x888E) || (p.unctrl.getLsbD 1 && p.esp sub && isIke l)

/-! ## Keys of an epoch -/

def Sa.keyOf (a : Sa) (i : Nat) : List Byte :=
  let e := a.ep i
  (leBytes 32 (e.key0 ^^^ e.key1).toNat).take (suiteKey a.suite)

/-- A verified or protected frame counts with its FCS. -/
def octets (l : List Byte) : Nat := l.length + 4

/-! ## MACsec (R164, R165) -/

/-- The IV: SCI and PN, or the salt with SSCI and PN under XPN. -/
def macsecIv (a : Sa) (i : Nat) (sci : List Byte) (pn : W64) : List Byte :=
  if isXpn a.suite then
    List.zipWith (fun x y => x ^^^ y) (leBytes 12 (a.ep i).salt.toNat)
      (beBytes 4 (a.ep i).ssci.toNat ++ beBytes 8 pn.toNat)
  else sci ++ beBytes 4 pn.toNat

/-- The implicit SCI of a frame (802.1AE): the source address with port 00-01, or 00-00 with SCB. -/
def implicitSci (l : List Byte) (scb : Bool) : List Byte := slice l 6 6 ++ [0, if scb then 0 else 1]

/-- Confidentiality offset of an SA's flags. -/
def Sa.offset (a : Sa) : Nat :=
  match a.flags.toNat / 16 % 4 with
  | 1 => 30
  | 2 => 50
  | _ => 0

/-- The protected form of a frame. -/
def macsecSeal (a : Sa) (i : Nat) (pn : W64) (l : List Byte) : List Byte :=
  let sc := a.flags.getLsbD 0
  let es := a.flags.getLsbD 1
  let scb := a.flags.getLsbD 2
  let conf := a.flags.getLsbD 3
  let sci := if es then implicitSci l scb else beBytes 8 a.sci.toNat
  let sec := l.drop 12
  let tci := (if es then 64 else 0) + (if sc then 32 else 0) + (if scb then 16 else 0) + (if conf then 12 else 0) +
    (a.ep i).an.toNat
  let sl := if sec.length < 48 then sec.length else 0
  let hdr := l.take 12 ++ [0x88, 0xE5, BitVec.ofNat 8 tci, BitVec.ofNat 8 sl] ++ beBytes 4 pn.toNat ++
    (if sc then beBytes 8 a.sci.toNat else [])
  let clear := if conf then min a.offset sec.length else sec.length
  let (ct, tag) := Config.gcmSeal (a.keyOf i) (macsecIv a i sci pn) (hdr ++ sec.take clear) (sec.drop clear)
  hdr ++ sec.take clear ++ ct ++ tag

/-- The SecTAG of a received frame. -/
structure SecTag where
  tci : Byte := 0
  sl : Nat := 0
  pn : W32 := 0
  sci : List Byte := []
  len : Nat := 8
deriving DecidableEq, Repr

def secTagOf (l : List Byte) : SecTag :=
  let tci := l.getD 14 0
  let sc := tci.getLsbD 5
  { tci := tci, sl := fieldLe l 15 1, pn := BitVec.ofNat 32 (ofBe (slice l 16 4)), len := if sc then 16 else 8,
    sci := if sc then slice l 20 8 else implicitSci l (tci.getLsbD 4) }

/-- The checks of R165 that need no SA. -/
def badTag (l : List Byte) (t : SecTag) : Bool :=
  let sec := l.length - 12 - t.len - 16
  let b := fun i => t.tci.getLsbD i
  decide (l.length < 12 + t.len + 16) || b 7 || (b 6 && b 5) || (b 5 && b 4) || (b 2 && !b 3) ||
    (if 48 ≤ sec then t.sl != 0 else t.sl != sec)

/-- The 64-bit PN that a 32-bit PN stands for, from the lowest acceptable PN (802.1AE). -/
def recoverPn (lowest : W64) (pn : W32) : W64 :=
  let hi := lowest.toNat / 2 ^ 32
  let up := lowest.getLsbD 31 && !pn.getLsbD 31
  BitVec.ofNat 64 ((if up then hi + 1 else hi) * 2 ^ 32 + pn.toNat)

/-- Verifies a received frame; whether it was encrypted. -/
def macsecOpen (a : Sa) (i : Nat) (pn : W64) (l : List Byte) (t : SecTag) : FrmRes × Bool :=
  let hdr := l.take (12 + t.len)
  let n := l.length - 12 - t.len - 16
  let sec := slice l (12 + t.len) n
  let crypt := t.tci.getLsbD 3
  let clear := if crypt then min a.offset n else n
  match Config.gcmOpen (a.keyOf i) (macsecIv a i t.sci pn) (hdr ++ sec.take clear) (sec.drop clear)
      (l.drop (12 + t.len + n)) with
  | some pt => (.pass (l.take 12 ++ sec.take clear ++ pt), crypt)
  | none => (.icvFail, crypt)

/-! ## ESP (R166-R168) -/

/-- The one's-complement sum of the 16-bit words of an IPv4 header. -/
def sum16 : List Byte → Nat
  | a :: b :: t => 256 * a.toNat + b.toNat + sum16 t
  | [a] => 256 * a.toNat
  | [] => 0

def foldSum (n : Nat) : Nat := let m := n % 65536 + n / 65536; m % 65536 + m / 65536

/-- An IPv4 header with its checksum computed. -/
def withChecksum (h : List Byte) : List Byte :=
  let z := h.take 10 ++ [0, 0] ++ h.drop 12
  h.take 10 ++ beBytes 2 (65535 - foldSum (sum16 z)) ++ h.drop 12

/-- An IP packet found in a frame: offset of its header, whether IPv4, header bytes, and packet bytes by its length field. -/
structure Ip where
  off : Nat := 14
  v4 : Bool := true
  hlen : Nat := 20
  len : Nat := 0
  next : Nat := 0
  frag : Bool := false
deriving DecidableEq, Repr

/-- The headers of an IP packet from next header `nh` at `off` on: whether a Fragment header is among them, and whether they
lead to ESP, behind extension and authentication headers. -/
def hdrWalk : Nat → Nat → Nat → List Byte → Bool × Bool
  | 0, _, _, _ => (false, false)
  | k + 1, nh, off, l =>
    let next := fieldLe l off 1
    if nh = 50 then (false, true)
    else if nh = 44 then (true, (hdrWalk k next (off + 8) l).2)
    else if nh = 51 then hdrWalk k next (off + 4 * (fieldLe l (off + 1) 1 + 2)) l
    else if nh = 0 ∨ nh = 43 ∨ nh = 60 then hdrWalk k next (off + 8 * (fieldLe l (off + 1) 1 + 1)) l
    else (false, false)

def ipOf (l : List Byte) : Option Ip :=
  let e := etherOff 2 12 l
  let o := e + 2
  if be16 l e = 0x0800 then
    some { off := o, v4 := true, hlen := 4 * (fieldLe l o 1 % 16), len := be16 l (o + 2), next := fieldLe l (o + 9) 1,
           frag := be16 l (o + 6) % 16384 != 0 }
  else if be16 l e = 0x86DD then
    some { off := o, v4 := false, hlen := 40, len := 40 + be16 l (o + 4), next := fieldLe l (o + 6) 1,
           frag := (hdrWalk 9 (fieldLe l (o + 6) 1) (o + 40) l).1 }
  else none

/-- The header is whole and its length lies within the frame. -/
def Ip.fits (p : Ip) (l : List Byte) : Bool := decide (20 ≤ p.hlen ∧ p.hlen ≤ p.len ∧ p.off + p.len ≤ l.length)

/-- Sets the length and the next header of an IP header. -/
def Ip.relen (p : Ip) (h : List Byte) (payload next : Nat) : List Byte :=
  if p.v4 then
    withChecksum (h.take 2 ++ beBytes 2 (p.hlen + payload) ++ slice h 4 5 ++ [BitVec.ofNat 8 next] ++ h.drop 10)
  else h.take 4 ++ beBytes 2 payload ++ [BitVec.ofNat 8 next] ++ h.drop 7

/-- The traffic class byte (DSCP and ECN) of an IP header. -/
def tosOf (v4 : Bool) (h : List Byte) : Nat :=
  if v4 then fieldLe h 1 1 else (be16 h 0 / 16) % 256

def setTos (v4 : Bool) (h : List Byte) (t : Nat) : List Byte :=
  if v4 then withChecksum (h.take 1 ++ [BitVec.ofNat 8 t] ++ h.drop 2)
  else beBytes 2 (be16 h 0 / 4096 * 4096 + t * 16 + be16 h 0 % 16) ++ h.drop 2

/-- The outer header of tunnel mode, from the template (R167). -/
def outerHdr (tmpl : List Byte) (id : W16) (tos payload : Nat) : List Byte :=
  if tmpl.length = 20 then
    withChecksum (tmpl.take 1 ++ [BitVec.ofNat 8 tos] ++ beBytes 2 (20 + payload) ++ beBytes 2 id.toNat ++ tmpl.drop 6)
  else setTos false (tmpl.take 4 ++ beBytes 2 payload ++ tmpl.drop 6) tos

def Sa.tunnel (a : Sa) : Bool := a.flags.getLsbD 7
def Sa.esn (a : Sa) : Bool := a.flags.getLsbD 0

def espNonce (a : Sa) (i : Nat) (iv : List Byte) : List Byte := (leBytes 12 (a.ep i).salt.toNat).take 4 ++ iv

def espAad (a : Sa) (i : Nat) (seq : W64) : List Byte :=
  beBytes 4 (a.ep i).spi.toNat ++ (if a.esn then beBytes 8 seq.toNat else beBytes 4 seq.toNat)

/-- The ESP part of a packet: header, IV, ciphertext and ICV of `body` with next header `nh`. -/
def espSeal (a : Sa) (i : Nat) (seq : W64) (body : List Byte) (nh : Nat) : List Byte :=
  let pad := (4 - (body.length + 2) % 4) % 4
  let iv := beBytes 8 seq.toNat
  let pt := body ++ (List.range pad).map (fun k => BitVec.ofNat 8 (k + 1)) ++ [BitVec.ofNat 8 pad, BitVec.ofNat 8 nh]
  let (ct, tag) := Config.gcmSeal (a.keyOf i) (espNonce a i iv) (espAad a i seq) pt
  beBytes 4 (a.ep i).spi.toNat ++ beBytes 4 seq.toNat ++ iv ++ ct ++ tag

/-- The protected form of a frame that carries the IP packet `p`. -/
def espProtect (a : Sa) (i : Nat) (seq : W64) (l : List Byte) (p : Ip) : List Byte :=
  let pkt := slice l p.off p.len
  if a.tunnel then
    let e := espSeal a i seq pkt (if p.v4 then 4 else 41)
    l.take (p.off - 2) ++ (if a.tmplLen = 20 then [0x08, 0x00] else [0x86, 0xDD]) ++
      outerHdr a.tmpl a.ipId (tosOf p.v4 pkt) e.length ++ e
  else
    let e := espSeal a i seq (pkt.drop p.hlen) p.next
    l.take p.off ++ p.relen (pkt.take p.hlen) e.length 50 ++ e

/-- The sequence number of a received packet: its 32 bits, or with ESN the 64 bits that the window implies (RFC 4303). -/
def espSeq (a : Sa) (top : W64) (low : W32) : W64 :=
  if a.esn then
    let w := max 1 a.window.toNat
    let tl := top.toNat % 2 ^ 32
    let th := top.toNat / 2 ^ 32
    let x := low.toNat
    let hi :=
      if w ≤ tl + 1 then (if tl + 1 ≤ x + w then th else th + 1)
      else if 2 ^ 32 + tl + 1 ≤ x + w then th - 1 else th
    BitVec.ofNat 64 (hi * 2 ^ 32 + x)
  else low.setWidth 64

/-- The pad bytes 1, 2, 3 ... behind a payload. -/
def padOk (pt : List Byte) : Bool :=
  let n := pt.length
  let k := fieldLe pt (n - 2) 1
  decide (2 + k ≤ n) && (List.range k).all (fun i => pt.getD (n - 2 - k + i) 0 == BitVec.ofNat 8 (i + 1))

/-- Sets CE in an inner header that is ECT, where the outer header carries CE (R167). -/
def copyCe (outer : Nat) (v4 : Bool) (inner : List Byte) : List Byte :=
  let h := inner.take (if v4 then 4 * (fieldLe inner 0 1 % 16) else 40)
  let t := tosOf v4 inner
  if outer % 4 = 3 ∧ t % 4 ≠ 0 then setTos v4 h (t / 4 * 4 + 3) ++ inner.drop h.length else inner

/-- Verifies and unwraps a received ESP packet. -/
def espOpen (a : Sa) (i : Nat) (seq : W64) (l : List Byte) (p : Ip) : FrmRes :=
  let pkt := slice l p.off p.len
  let e := pkt.drop p.hlen
  let n := e.length - 32
  match Config.gcmOpen (a.keyOf i) (espNonce a i (slice e 8 8)) (espAad a i seq) (slice e 16 n) (e.drop (16 + n)) with
  | none => .icvFail
  | some pt =>
    let nh := fieldLe pt (pt.length - 1) 1
    let body := pt.take (pt.length - 2 - fieldLe pt (pt.length - 2) 1)
    if padOk pt = false then .padErr
    else if nh = 59 then .dummy
    else if a.tunnel then
      if nh = 4 ∨ nh = 41 then
        .pass (l.take (p.off - 2) ++ (if nh = 4 then [0x08, 0x00] else [0x86, 0xDD]) ++
          copyCe (tosOf p.v4 pkt) (nh == 4) body)
      else .padErr
    else .pass (l.take p.off ++ p.relen (pkt.take p.hlen) body.length nh ++ body)

/-! ## The egress stage (R26, R183-R185) -/

/-- Sends a frame, filled to the least length of a frame. -/
def State.sendFrame (s : State) (port sub : Nat) (l : List Byte) : State :=
  let x := if l.length < 60 then fit 60 l else l
  ((s.emit (.frame port sub x)).count port sub cFramesOut 1).count port sub cOctetsOut (octets x)

/-- The replay check: the PN is acceptable now. -/
def Sa.fresh (a : Sa) (i : Nat) (pn : W64) : Bool :=
  let e := a.ep i
  if a.isEsp then
    let d := e.nextPn.toNat - pn.toNat
    a.window == 0 || decide (e.nextPn.toNat < pn.toNat) || (decide (d < a.window.toNat) && !e.replay.getLsbD d)
  else decide (e.nextPn.toNat ≤ pn.toNat)

/-- The replay state after a verified PN. -/
def Sa.seenPn (a : Sa) (e : Epoch) (pn : W64) : Epoch :=
  if a.isEsp then
    if e.nextPn.toNat < pn.toNat then
      { e with nextPn := pn, replay := setBit (e.replay <<< (pn.toNat - e.nextPn.toNat)) 0 }
    else { e with replay := setBit e.replay (e.nextPn.toNat - pn.toNat) }
  else { e with nextPn := BitVec.ofNat 64 (min (2 ^ 64 - 1) (max e.nextPn.toNat (pn.toNat + 1 - a.window.toNat))) }

/-- Context `a` is still that of the SA a frame was classified to, deleted or not. -/
def Sa.isOf (x : Sa) (f : Frm) : Bool := x.order == f.sa

/-- Its slot `i` still holds the frame's epoch, or what is left of it when it has ended. -/
def Sa.holds (x : Sa) (i : Nat) (f : Frm) : Bool := x.isOf f && (x.ep i).serial == f.ep

/-- A change of receive SA `a` where the frame is its own; a frame dropped after another SA took the context is one without
an SA (log entry 107). -/
def State.rxCount (s : State) (n : Nat) (f : Frm) (a : Nat) (drop : Bool) (g : Sa → Sa) : State :=
  if (s.sa 1 a).isOf f then s.updSa 1 a g else if drop then s.count (8 + n) f.sub cNoSa 1 else s

/-- A received frame at the egress stage of host port `n`: replay, ICV, replay update and counters; then it leaves, or is
dropped. A frame admitted before its SA was deleted or its epoch ended finishes normally (R180); one whose slot another epoch
has taken counts nothing under that epoch (R203), and its ICV failure counts under NOT_USING_SA (DEDUCED, log entry 107). -/
def State.egressRx (s : State) (n : Nat) (f : Frm) (a i : Nat) (pn : W64) (crypt : Bool) : State :=
  let x := s.sa 1 a
  let own := x.holds i f
  if own && !x.fresh i pn then s.updSa 1 a (fun y => { y with late := y.late + 1 })
  else
    match f.res with
    | .icvFail =>
      s.rxCount n f a true (fun y =>
        if own then y.updEp i (fun e => { e with invalid := e.invalid + 1 }) else { y with notUsing := y.notUsing + 1 })
    | r =>
      let first : Bool := own && (x.ep i).st == .staged && !(x.ep i).seen
      let s1 := if own then
          s.updSa 1 a (fun y => y.updEp i (fun e =>
            { y.seenPn e pn with frames := e.frames + 1, seen := e.seen || e.st != .empty }))
        else s
      let s2 := if first then s1.saEvent evFirstRx 1 i (x.evAn i) a else s1
      match r with
      | .pass l =>
        (s2.rxCount n f a false (fun y =>
          if crypt then { y with octDecrypted := y.octDecrypted + octets l }
          else { y with octValidated := y.octValidated + octets l })).sendFrame n f.sub l
      | .dummy => s2.rxCount n f a true (fun y => { y with dummy := y.dummy + 1 })
      | _ => s2.rxCount n f a true (fun y => { y with padErr := y.padErr + 1 })

/-- A frame leaves its place in the order: it is sent on the paired port, or dropped. -/
def State.egressFrm (s : State) (n d : Nat) (f : Frm) : State :=
  let inp := 8 * d + n
  let out := 8 * (1 - d) + n
  if s.forwards n f.sub = false then s.count inp f.sub cHoldDrop 1
  else
    match f.use with
    | .uncontrolled => (s.count inp f.sub cUncontrolled 1).sendFrame out f.sub f.bytes
    | .protect a i _ =>
      match f.res with
      | .pass l =>
        let s1 := if (s.sa 0 a).isOf f then s.updSa 0 a (fun y =>
            ({ y with protFrames := y.protFrames + 1, protOctets := y.protOctets + octets f.bytes }).updEp i
              (fun e => if e.serial = f.ep then { e with frames := e.frames + 1 } else e)) else s
        s1.sendFrame out f.sub l
      | _ => s
    | .verify a i pn crypt => s.egressRx out f a i pn crypt

/-- The first frame of a flow that may leave: it is processed, and every frame before it is held in the buffer, none of them
of its own receive SA (`l`; R185). An uncontrolled frame, which no engine takes, is held there too (R159). -/
def State.nextOut (s : State) (n d : Nat) : List Nat → List Frm → Option Frm
  | _, [] => none
  | l, f :: t =>
    match f.todo with
    | .processed (some _) => if f.behind l then s.nextOut n d l t else some f
    | .processed none => if s.frmHeld n d f then s.nextOut n d l t else some f
    | .waitEngine => if s.frmHeld n d f || f.behind l then s.nextOut n d (f.rxSa.toList ++ l) t else none
    | .inEngine _ => none

/-- Removes the first frame equal to `f`. -/
def removeFrm (f : Frm) : List Frm → List Frm
  | [] => []
  | x :: t => if x = f then t else x :: removeFrm f t

def egressLoop (n d : Nat) : Nat → State → State
  | 0, s => s
  | fuel + 1, s =>
    match s.nextOut n d [] (s.flow n d) with
    | none => s
    | some f => egressLoop n d fuel ((s.setFlow n d (removeFrm f (s.flow n d))).egressFrm n d f)

/-- What follows a change of a pair-direction: frames leave in order, engines take waiting frames, and the host is
paused or released. -/
def State.runFlow (s : State) (n d : Nat) : State :=
  ((egressLoop n d ((s.flow n d).length + 1) s).dispatchFrames n d).flowAll

/-! ## Reception (R156-R163) -/

/-- Admits a classified frame into its pair-direction. -/
def State.admitFrame (s : State) (n d : Nat) (f : Frm) : State :=
  let f1 : Frm := { f with todo := if f.use = .uncontrolled then .processed none else .waitEngine }
  (s.setFlow n d (s.flow n d ++ [f1])).runFlow n d

/-- The transmit SA of a frame (R161), with the frame without its Bead header. -/
def State.steer (s : State) (n sub : Nat) (l : List Byte) : Option (Nat × List Byte) :=
  let p := s.pair n
  let mine := s.rdr.sas.filter (fun ka => decide (ka.1 < 16384) && ka.2.present && ka.2.pair == n && ka.2.sub == sub)
  let deflt := (mine.find? (fun ka => ka.2.deflt)).map (fun ka => (ka.1, l))
  match p.steer with
  | 0 => deflt
  | 1 =>
    match outerTag l with
    | none => deflt
    | some t => (mine.find? (fun ka => ka.2.vid.toNat == t % 4096)).map (fun ka => (ka.1, l))
  | _ =>
    if be16 l 12 = p.beadEtype.toNat ∧ allZero l 16 4 = true ∧ 20 ≤ l.length then
      (mine.find? (fun ka => ka.1 == be16 l 14)).map (fun ka => (ka.1, l.take 12 ++ l.drop 20))
    else none

/-- Takes the next PN of a transmit epoch and posts PN_WARN (R182). -/
def State.takePn (s : State) (a i : Nat) : State :=
  let x := s.sa 0 a
  let s1 := s.updSa 0 a (fun y =>
    ({ y with ipId := if y.tunnel && y.isEsp then y.ipId + 1 else y.ipId }).updEp i (fun e => { e with nextPn := e.nextPn + 1 }))
  let e := (s1.sa 0 a).ep i
  if e.warned = false ∧ x.pnWarn.toNat ≤ e.nextPn.toNat then
    (s1.updSa 0 a (fun y => y.updEp i (fun z => { z with warned := true }))).saEvent evPnWarn 0 i (x.evAn i) a
  else s1

/-- A frame for which the PN would pass the suite's limit (R182). -/
def State.pnOut (s : State) (a i : Nat) : State :=
  let x := s.sa 0 a
  let s1 := s.updSa 0 a (fun y =>
    ({ y with pnExhausted := y.pnExhausted + 1 }).updEp i (fun e => { e with exhausted := true }))
  if (x.ep i).exhausted then s1 else s1.saEvent evPnExhausted 0 i (x.evAn i) a

/-- Classification from the host to the line (R161): a frame without an SA is counted as NO_SA, and so is a frame on an
ESP sub-port that carries no IP packet. -/
def State.classifyTx (s : State) (n sub : Nat) (l : List Byte) : State :=
  match s.steer n sub l with
  | none => s.count n sub cNoSa 1
  | some (a, m) =>
    let x := s.sa 0 a
    match x.current with
    | none => s.count n sub cNoSa 1
    | some i =>
      let pn := (x.ep i).nextPn
      let ip := (ipOf m).bind (fun p => if p.fits m then some p else none)
      if x.isEsp ∧ ip = none then s.count n sub cNoSa 1
      else if pn = 0 ∨ pnLimit x.suite x.flags < pn.toNat then s.pnOut a i
      else
        let out := match ip with
          | some p => if x.isEsp then espProtect x i pn m p else macsecSeal x i pn m
          | none => macsecSeal x i pn m
        if (s.pair n).maxFrame + (if x.isEsp then 77 else 32) < octets out then s.count n sub cOversize 1
        else
          (s.takePn a i).admitFrame n 0
            { sub := sub, prio := prioOf m, use := .protect a i pn, sa := x.order, ep := (x.ep i).serial, bytes := m, res := .pass out }

def EpSt.accepts (e : EpSt) : Bool := e == .staged || e == .current || e == .drainAccept

/-- Receive SAs of a sub-port. -/
def State.rxSas (s : State) (n sub : Nat) : List (Nat × Sa) :=
  (s.rdr.sas.filter (fun ka => decide (16384 ≤ ka.1) && ka.2.present && ka.2.pair == n && ka.2.sub == sub)).map
    (fun ka => (ka.1 - 16384, ka.2))

/-- Classification of a MACsec frame from the line (R162, R165). -/
def State.classifySec (s : State) (n sub : Nat) (l : List Byte) : State :=
  let port := 8 + n
  let t := secTagOf l
  if be16 l 12 ≠ 0x88E5 then s.count port sub cUntagged 1
  else if badTag l t then s.count port sub cBadTag 1
  else
    let mine := s.rxSas n sub
    match (mine.find? (fun ka => !ka.2.wild && ka.2.sci.toNat == ofBe t.sci)) <|> (mine.find? (fun ka => ka.2.wild)) with
    | none => s.count port sub cNoSa 1
    | some (a, x) =>
      if (x.current <|> x.staged).isNone then s.count port sub cNoSa 1
      else if isXpn x.suite = false ∧ t.pn = 0 then s.count port sub cBadTag 1
      else
        let an : BitVec 2 := t.tci.setWidth 2
        let ok := fun (e : Epoch) => e.st.accepts && e.an == an
        match (if ok x.ep0 then some 0 else if ok x.ep1 then some 1 else none) with
        | none => s.updSa 1 a (fun y => { y with notUsing := y.notUsing + 1 })
        | some i =>
          let pn := if isXpn x.suite then recoverPn (x.ep i).nextPn t.pn else t.pn.setWidth 64
          let (r, crypt) := macsecOpen x i pn l t
          s.admitFrame n 1
            { sub := sub, prio := prioOf l, use := .verify a i pn crypt, sa := x.order, ep := (x.ep i).serial, bytes := l, res := r }

/-- Classification of a packet from the line on an ESP sub-port, in the order of R168. A frame that carries no ESP names
no SA. -/
def State.classifyEsp (s : State) (n sub : Nat) (l : List Byte) : State :=
  let port := 8 + n
  match ipOf l with
  | none => s.count port sub cNoSa 1
  | some p =>
    let bad := s.count port sub cEspBadLen 1
    if p.hlen < 20 ∨ p.off + p.len ≠ l.length ∨ p.len < p.hlen then bad
    else if p.frag then bad
    else if p.next ≠ 50 then
      (if (p.v4 = false ∨ p.next = 51) ∧ (hdrWalk 9 p.next (p.off + p.hlen) l).2 = true then bad
       else s.count port sub cNoSa 1)
    else if p.len < p.hlen + 32 then bad
    else
      let spi := BitVec.ofNat 32 (ofBe (slice l (p.off + p.hlen) 4))
      let ok := fun (e : Epoch) => e.st.accepts && e.spi == spi
      match (s.rxSas n sub).find? (fun ka => ka.2.isEsp && (ok ka.2.ep0 || ok ka.2.ep1)) with
      | none => s.count port sub cNoSa 1
      | some (a, x) =>
        let i := if ok x.ep0 then 0 else 1
        let seq := espSeq x (x.ep i).nextPn (BitVec.ofNat 32 (ofBe (slice l (p.off + p.hlen + 4) 4)))
        s.admitFrame n 1
          { sub := sub, prio := prioOf l, use := .verify a i seq true, sa := x.order, ep := (x.ep i).serial, bytes := l,
            res := espOpen x i seq l p }

/-- A MAC control frame at a host sub-port (R159): PAUSE, or PFC for the priorities of its enable vector. -/
def State.macControl (s : State) (n sub : Nat) (l : List Byte) : State :=
  let op := be16 l 14
  let en := fieldLe l 17 1
  let p := s.pair n
  let mask : Byte := if p.fc = 2 then p.pfcMask else 0xFF
  let new := fun (i : Nat) (was : Bool) =>
    if op = 0x0001 then decide (be16 l 16 ≠ 0)
    else if op = 0x0101 ∧ (en / 2 ^ i) % 2 = 1 then decide (be16 l (18 + 2 * i) ≠ 0) && mask.getLsbD i
    else was
  (s.updSub n sub (fun x => { x with paused := byteOf (fun i => new i (x.paused.getLsbD i)) })).runFlow n 1

/-- What every received frame passes before it is classified, in the order of log entry 26. `corr` and `unc` are the
FEC codewords corrected and not correctable since the last frame. -/
def State.rxFrame (s : State) (n d sub corr unc : Nat) (f : Frame) (classify : State → State) : State :=
  let p := s.pair n
  let port := 8 * d + n
  if 8 ≤ n ∨ p.enabled = false ∨ subCount p.mode ≤ sub ∨ s.powered = false then s
  else
    let len := octets f.bytes
    let s1 := (((s.count port sub cFecCorr corr).count port sub cFecUncorr unc).count port sub cFramesIn 1).count port sub
      cOctetsIn len
    let limit := if d = 0 then p.maxFrame else p.maxFrame + (if p.esp sub then 77 else 32)
    if len < 64 then s1.count port sub cUndersize 1
    else if f.fcsOk = false then s1.count port sub cFcsErr 1
    else if be16 f.bytes 12 = 0x8808 then
      let s2 := s1.count port sub cPauseIn 1
      if d = 0 then s2.macControl n sub f.bytes else s2
    else if limit < len then s1.count port sub cOversize 1
    else if s1.forwards n sub = false then s1.count port sub cHoldDrop 1
    else if shareBytes p.mode < bufBytes sub none (s1.flow n d) + len then s1.count port sub cFcDrop 1
    else if p.uncontrolled sub f.bytes then
      s1.admitFrame n d { sub := sub, prio := prioOf f.bytes, use := .uncontrolled, bytes := f.bytes, res := .pass f.bytes }
    else classify s1

/-- R161: a complete frame arrives at sub-port `sub` of host port `n`. -/
def execHostFrameRx (n sub corr unc : Nat) (f : Frame) (s : State) : Host.Outcome State Fault Refusal :=
  .next (s.rxFrame n 0 sub corr unc f (fun x => x.classifyTx n sub f.bytes))

/-- R162: a complete frame arrives at sub-port `sub` of line port `n`. -/
def execLineFrameRx (n sub corr unc : Nat) (f : Frame) (s : State) : Host.Outcome State Fault Refusal :=
  .next (s.rxFrame n 1 sub corr unc f (fun x =>
    if (x.pair n).esp sub then x.classifyEsp n sub f.bytes else x.classifySec n sub f.bytes))

/-- Marks the oldest frame in engine `e` as processed. -/
def markDone (e : Nat) : List Frm → List Frm
  | [] => []
  | f :: t => if f.todo = .inEngine e then { f with todo := .processed (some e) } :: t else f :: markDone e t

/-- The pair-direction index of a frame in engine `e`. -/
def State.flowOf (s : State) (e : Nat) : Option Nat :=
  (List.range 16).find? (fun k => (s.flow (k / 2) (k % 2)).any (fun f => f.todo == .inEngine e))

/-- Bytes of the protected form of the oldest frame in engine `e`. -/
def doneBytes (e : Nat) : List Frm → Nat
  | [] => 0
  | f :: t =>
    if f.todo = .inEngine e then
      match f.use, f.res with
      | .protect _ _ _, .pass l => octets l
      | _, _ => f.len
    else doneBytes e t

/-- R26, R185: engine `e` finishes its oldest frame, whose blocks have taken their refresh words from the Quad's mask
generator (R190, R407). -/
def execRenderFrameDone (e : Nat) (s : State) : Host.Outcome State Fault Refusal :=
  match s.flowOf e with
  | none => .next s
  | some k =>
    let fl := s.flow (k / 2) (k % 2)
    let s1 := s.drawMany (19 + e / 4) (renderWords (s.rnd e).fstep (doneBytes e fl))
    .next ((s1.setFlow (k / 2) (k % 2) (markDone e fl)).runFlow (k / 2) (k % 2))

/-! ## Flow control events (R157, R159) -/

/-- R157: half a quanta duration has passed with the occupancy above XON: the PAUSE is repeated. -/
def execPauseRefresh (n sub : Nat) (s : State) : Host.Outcome State Fault Refusal :=
  let on := (s.subPort n sub).pausing
  if n < 8 ∧ on ≠ 0 ∧ (s.pair n).enabled then .next ((s.emit (.pause n sub on 0xFFFF)).count n sub cPauseOut 1)
  else .next s

/-- R159: the quanta of a received PAUSE or PFC frame run out for the priorities of the mask. -/
def execPauseExpiry (n sub : Nat) (prios : Byte) (s : State) : Host.Outcome State Fault Refusal :=
  if n < 8 ∧ (s.pair n).enabled then
    .next ((s.updSub n sub (fun x => { x with paused := x.paused &&& ~~~prios })).runFlow n 1)
  else .next s

/-! ## Epoch timers (R179) -/

/-- R179: the overlap window of a receive epoch ends. -/
def execOverlapTimer (a i : Nat) (s : State) : Host.Outcome State Fault Refusal :=
  let x := s.sa 1 a
  if a < 16384 ∧ i < 2 ∧ (x.ep i).st = .drainAccept then
    .next ((s.updSa 1 a (fun y => y.updEp i (fun e => { e with st := .draining }))).saEvent evOverlapEnd 1 i (x.evAn i) a)
  else .next s

/-- R179: the drain timer of an epoch expires. A receive epoch whose window ends at the same time leaves it first. -/
def execDrainTimer (dir a i : Nat) (s : State) : Host.Outcome State Fault Refusal :=
  let x := s.sa dir a
  if 1 < dir ∨ 16384 ≤ a ∨ 2 ≤ i then .next s
  else if (x.ep i).st = .draining then .next ((s.emptySlot dir a i).saEvent evRetired dir i (x.evAn i) a)
  else if (x.ep i).st = .drainAccept then
    .next (((s.saEvent evOverlapEnd dir i (x.evAn i) a).emptySlot dir a i).saEvent evRetired dir i (x.evAn i) a)
  else .next s

/-! ## Link states (R153, R155) -/

/-- The sub-port exists on an enabled pair. -/
def State.subLive (s : State) (port sub : Nat) : Bool :=
  let p := s.pair (port % 8)
  decide (port < 16) && p.enabled && decide (sub < subCount p.mode)

/-- What follows a change of a sub-port's state since `old`: Local Fault ordered sets (R155), frames and flow control. -/
def State.portChange (s old : State) (port : Nat) : State :=
  (((s.faultsSince old (port % 8)).runFlow (port % 8) 0).runFlow (port % 8) 1)

/-- Answers the `port.recal` commands that wait for a sub-port (R620). -/
def answerRecal (port sub : Nat) : List (Nat × W32 × Nat × Nat) → State → State
  | [], s => s
  | (k, seq, p, u) :: t, s =>
    answerRecal port sub t
      (if p = port ∧ u = sub then
        ({ s with mbx := { s.mbx with waitRecal := s.mbx.waitRecal.filter (fun w => w.1 != k) } }).answerPf k
          { status := stOk, gen := (s.fn 0).gen, seq := seq }
      else s)

/-- R153: a sub-port locks its PCS and reports UP. -/
def execPortUp (port sub : Nat) (s : State) : Host.Outcome State Fault Refusal :=
  if s.subLive port sub = false ∨ (s.subPort port sub).st = .up ∨ s.pwr.sdLock.getLsbD (port / 4) = false then .next s
  else
    let s1 := s.updSub port sub (fun x => { x with st := .up, lanes := lanesPer (s.pair (port % 8)).mode })
    .next ((serveBad 300 (answerRecal port sub s1.mbx.waitRecal s1)).portChange s port)

/-- R153: a sub-port loses PCS lock, or its FEC reports the link degraded. -/
def execPortLockLoss (port sub : Nat) (fec : Bool) (s : State) : Host.Outcome State Fault Refusal :=
  let st := (s.subPort port sub).st
  if s.subLive port sub = false ∨ ¬ (st = .up ∨ st = .remoteFault) then .next s
  else
    let s1 := s.updSub port sub (fun x => { x with st := .localFault, lanes := if fec then x.lanes else 0 })
    let s2 := if fec then s1.report 289 port else s1
    .next ((s2.report 288 port).portChange s port)

/-- R153: the link partner sends Remote Fault. -/
def execRemoteFault (port sub : Nat) (s : State) : Host.Outcome State Fault Refusal :=
  if s.subLive port sub = false ∨ (s.subPort port sub).st ≠ .up then .next s
  else
    .next (((s.updSub port sub (fun x => { x with st := .remoteFault })).report 288 port).portChange s port)

/-! ## Takeover (R193) -/

/-- Closes the RETIRE record of a Render engine when its takeover has ended (R520). -/
def State.endTakeover (s : State) (u : Nat) : State :=
  match s.scr.recs.find? (fun r => r.who == { group := 8, unit := u } && r.rank == 3) with
  | some r => s.closeIfDone r.rid
  | none => s

/-- R193: Float has granted the spare, and it takes over the assignment of retired engine `u`; or of engine `u` that is
drained, where an in-service engine without an inline assignment may take it too (R611). -/
def execRenderTakeover (u : Nat) (s : State) : Host.Outcome State Fault Refusal :=
  match s.rdr.takeover.find? (fun t => t.1 == u) with
  | none => .next (s.endTakeover u)
  | some (_, n, d) =>
    let drains : Bool := (s.unit u).st == .draining
    let look := (List.range 36).find? (fun m => (s.rnd m).st == .lookaside && s.inService .render m)
    if s.standingHeld n = false then .next s
    else
      match if drains then s.spareFor u <|> look else s.spareFor u with
      | none => .next (if drains then s else (s.assignRender.endTakeover u).dispatchAll.flowAll)
      | some v =>
        let spare : Bool := (s.unit v).st == .spare
        let s1 :=
          if drains then
            (if spare then (s.setUnit v .inService).updUnit u (fun x => { x with cover := some v }) else s)
          else s.bringIn u v
        let s2 := { s1 with rdr := { s1.rdr with takeover := s1.rdr.takeover.filter (fun t => t.1 != u) } }
        let s3 := if n < 8 then s2.updRnd v (fun r => { r with st := .inline, pair := n, dir := d }) else s2
        .next ((s3.endTakeover u).dispatchAll.flowAll)

end Sys2Proof.Machine
end

