-- ==== Sys2Proof/Machine/Lath.lean ====
section
/-!
DEFINITION. The life of a Lath engine (R205-R236): the drains that a test, a derate or a Putty load needs (R611, R612),
loading and unloading a patch set (R228, R230), engine causes (R229), the start of a job (R216), its wipe (R233),
preemption and resumption (R235), and HALT (R217, R280).
-/
namespace Sys2Proof.Machine

/-! ## Draining (R611, R612) -/

/-- Classes 0-15 and Horrov's own. -/
def classNos : List Nat := List.range 17

/-- Another in-service unit of the kind serves every class that engine `n` of kind `k` serves. -/
def State.otherServes (s : State) (k : EKind) (n : Nat) : Bool :=
  classNos.all (fun c => !s.serves c k n || (List.range k.count).any (fun m => m != n && s.serves c k m))

/-- The engines of Quad `q` hold no claim on a core of it, and are idle or suspended. -/
def State.quadIdle (s : State) (q : Nat) : Bool :=
  (List.range 4).all (fun p => (s.jobOn .lath (4 * q + p)).isNone && (s.lath (4 * q + p)).claims.isEmpty)

/-- A unit can be spared (R611). -/
def State.canSpare (s : State) (u : Nat) : Bool :=
  match (s.unit u).st with
  | .spare => true
  | .test => true
  | .inService =>
    if u < 36 ∧ (s.rnd u).st = .inline then
      (List.range 36).any (fun m => (s.rnd m).st == .spare || ((s.rnd m).st == .lookaside && s.inService .render m))
    else
      match unitEngine u with
      | some (.lath, n) => s.otherServes .lath n && (s.quad (n / 4)).save.isNone
      | some (k, n) => s.otherServes k n
      | none => s.quadIdle (quadOfCore (u - 97))
  | _ => false

/-- A unit carries no more work: no job, no wipe, no frame, and no assignment that waits to be taken over. -/
def State.noWork (s : State) (u : Nat) : Bool :=
  match unitEngine u with
  | some (k, n) =>
    (s.jobOn k n).isNone &&
      (match k with
       | .lath => (s.lath n).st != .wiping
       | .hawk => (s.hawk n).st != 5
       | .render => s.engLoad n == (0, 0) && !(s.rdr.takeover.any (fun t => t.1 == n))
       | _ => true)
  | none => s.quadIdle (quadOfCore (u - 97))

/-- Starts the drain of a unit. An inline Render engine's assignment waits for the engine that takes it over (R193). -/
def State.startDrain (s : State) (u : Nat) : State :=
  let back := if (s.unit u).st = .test then (s.unit u).back else (s.unit u).st
  let r := s.rnd u
  let s1 := s.updUnit u (fun x => { x with back := back, st := .draining })
  let busy : Bool := !(s.noWork u)
  let s2 := match unitEngine u with
    | some (.lath, n) => if busy then s1.updLath n (fun e => { e with st := .draining }) else s1.showUnit u .draining
    | some (.hawk, n) => if busy then s1.updHawk n (fun e => { e with st := 3 }) else s1.showUnit u .draining
    | some (.render, _) => s1.showUnit u .draining
    | _ => s1
  if u < 36 ∧ r.st = .inline then
    { s2 with rdr := { s2.rdr with takeover := s2.rdr.takeover ++ [(u, r.pair, r.dir)] } }
  else s2

/-- A Render engine is back in service: one that kept its assignment under a RETRY resumes it (R521), and one whose
assignment a spare held takes it back, the spare returning to the spares (log entry 36). -/
def State.backInline (s : State) (u : Nat) : State :=
  if (s.rnd u).kept then s.updRnd u (fun r => { r with st := .inline, kept := false })
  else
    match (s.unit u).cover with
    | none => s
    | some v =>
      let r := s.rnd v
      let s1 := s.updUnit u (fun x => { x with cover := none })
      if r.st = .inline ∧ (s.unit v).st = .inService then
        (s1.updRnd u (fun x => { x with st := .inline, pair := r.pair, dir := r.dir })).setUnit v .spare
      else s1

/-- A unit returns to where it was before its drain. -/
def State.endDrain (s : State) (u : Nat) : State :=
  let x := s.unit u
  let s0 := s.setUnit u x.back
  let s1 := if u < 36 ∧ x.back = .inService then s0.backInline u else s0
  let s2 := if x.retireDue then (s1.updUnit u (fun y => { y with retireDue := false })).retireUnit u 3 else s1
  s2.assign

/-- Serves the test queue in order of arrival, one unit of a kind at a time, passing over units that cannot be spared
yet (R611, R612). -/
def serveTests : List TestEnt → State → State
  | [], s => s
  | t :: ts, s =>
    let taken := s.plb.testq.any (fun x => x.active && (unitKind x.unit).1 == (unitKind t.unit).1)
    serveTests ts
      (if !t.active && !taken && s.canSpare t.unit then
        let s1 := s.startDrain t.unit
        { s1 with plb := { s1.plb with testq := s1.plb.testq.map (fun x =>
            if x.unit = t.unit ∧ x.purpose = t.purpose ∧ x.active = false then { x with active := true } else x) } }
      else s)

/-- While the device is held or enters DUSTSHEET the queue waits (R614). -/
def State.serveQueue (s : State) : State := if s.pwr.st = .dustEntry then s else serveTests s.plb.testq s

/-- Takes the active entry of a unit out of the queue. -/
def State.dropActive (s : State) (u : Nat) : State :=
  { s with plb := { s.plb with testq := s.plb.testq.filter (fun t => !(t.unit == u && t.active)) } }

def State.activeEnt (s : State) (u : Nat) : Option TestEnt := s.plb.testq.find? (fun t => t.unit == u && t.active)

/-! ## Loading a patch set (R228, R230) -/

/-- Writes a patch set into one engine. -/
def Putty.into (p : Putty) (e : Lath) : Lath := { e with patchRam := p.words, matches_ := p.matches_, puttyVer := p.ver }

/-- One engine after another: an engine that carries a job is drained first, and its UNIT_DRAINED goes on. The end
answers the `fw.putty` that waits. -/
def loadLoop : Nat → State → State
  | 0, s => s
  | fuel + 1, s =>
    match s.lth.load with
    | none => s
    | some p =>
      let n := s.lth.loadNext
      if s.plb.testq.any (fun t => t.purpose == .putty) then s
      else if 36 ≤ n then
        let s1 := { s with lth := { s.lth with load := none, loadNext := 0, loadWait := none } }
        match s.lth.loadWait with
        | some (slot, seq) => s1.answerPf slot { gen := (s1.fn 0).gen, seq := seq, results := leBytes 4 p.ver.toNat }
        | none => s1
      else
        let s1 := { s with lth := { s.lth with loadNext := n + 1 } }
        if (s.unit (36 + n)).st = .retired then loadLoop fuel (if p.ver = 0 then s1.updLath n p.into else s1)
        else if (s.jobOn .lath n).isNone then loadLoop fuel (s1.updLath n p.into)
        else
          let s2 := { s with plb := { s.plb with testq := s.plb.testq ++
            [({ unit := 36 + n, purpose := .putty, own := true } : TestEnt)] } }
          s2.serveQueue

def State.loadPutty (s : State) (p : Putty) (wait : Option (Nat × W32)) : State :=
  loadLoop 38 { s with lth := { s.lth with load := some p, loadNext := 0, loadWait := wait } }

/-- A fault of a patch word (PATCH_FAULT). Three within an hour unload the patch set from every engine (R230, PATCH_UNLOAD). -/
def State.patchFault (s : State) : State :=
  let recent := s.lth.patchFaults.filter (fun t => s.clk.toNat < t.toNat + secTicks 3600) ++ [s.clk]
  if 3 ≤ recent.length then
    ((((({ s with lth := { s.lth with patchFaults := [] } }).report 641 0).loadPutty {} s.lth.loadWait).report 640 0)).devStatus
  else ({ s with lth := { s.lth with patchFaults := recent } }).report 641 0

/-! ## Engine causes (R229, R230) -/

def bRomParity : Nat := 0
def bPatchEcc : Nat := 1
def bRstack : Nat := 2
def bResvSeq : Nat := 3
def bResvCond : Nat := 4
def bResvSop : Nat := 5
def bWriteConflict : Nat := 6
def bRank : Nat := 7
def bLockOver : Nat := 8
def bSafeMiss : Nat := 9
def bQwin : Nat := 10
def bPatchAddr : Nat := 11
def bPortOp : Nat := 12

/-- Latches cause bit `b` of engine `n` and reports it. At a PATCH-space word it counts against the patch set and not
against the engine (R230, R527). -/
def State.engCause (s : State) (n b : Nat) : State :=
  if (s.lath n).pc.patch ∧ 2 ≤ b then
    (s.reportUncounted (320 + b) n).patchFault
  else s.report (320 + b) n

/-! ## The start of a job (R216) -/

/-- The 64 bytes of a descriptor (R86). -/
def Desc.bytes (d : Desc) : List Byte :=
  [d.opcode, d.flags] ++ leBytes 2 d.param.toNat ++ leBytes 4 d.tag.toNat ++ leBytes 4 d.inLen.toNat ++
    leBytes 4 d.outLen.toNat ++ leBytes 8 d.inPtr.toNat ++ leBytes 8 d.outPtr.toNat ++ leBytes 32 d.body.toNat

/-- Writes bytes into a byte table from index `a` on. -/
def putMem (t : Tbl Byte) (a : Nat) : List Byte → Tbl Byte
  | [] => t
  | b :: l => putMem (Tbl.set 0 t a b) (a + 1) l

/-- Reads `n` bytes of a byte table. -/
def getMem (t : Tbl Byte) (a n : Nat) : List Byte := (List.range n).map (fun i => Tbl.get 0 t (a + i))

/-- The first byte and the bytes of cache entry `c` in Quad memory (R341, R347). -/
def cacheBase (c : Nat) : Nat := 2097152 + 261248 * (c - 1)

/-- The two windows of a job: its working region, and the public key that it reads (R317, R347-R349). -/
def State.windows (s : State) (j : Job) : QWin × QWin :=
  let reg := s.lth.regions.find? (fun r => r.job == j.id)
  let win := fun (base size : Nat) => ({ valid := true, base := base / 64, limit := (base + size - 1) / 64 } : QWin)
  let own : QWin := match reg with
    | some r => win r.base r.size
    | none => {}
  let cached : QWin := win (cacheBase (j.desc.b 40 1)) (if j.desc.set = 1 then 261120 else 1044992)
  if j.desc.opcode = 0x4C then (own, {})
  else if j.desc.opcode = 0x4D then ({}, if own.valid then own else cached)
  else ({}, {})

/-- The Quad core that an SLH-DSA job claims (R328): of its type, the one of the engine's own position, or the next that is not
retired (DEDUCED, log entry 117). -/
def State.slhCore (s : State) (n set : Nat) : Nat :=
  let q := n / 4
  let p := n % 4
  if set ≤ 6 then
    3 + (((List.range 4).map (fun i => (p + i) % 4)).find? (fun i => (s.unit (115 + 4 * q + i)).st != .retired)).getD p
  else
    1 + (((List.range 2).map (fun i => (p / 2 + i) % 2)).find? (fun i => (s.unit (97 + 2 * q + i)).st != .retired)).getD (p / 2)

/-- A Lath job begins on its engine: every register is 0 from the last wipe, scratch word 0 holds the descriptor, and
the sequencer stands at the ROM address of its opcode. A resumed job goes on where it stood. -/
def State.beginLath (s : State) (j : Job) : State :=
  s.updLath j.engine (fun e =>
    if e.resumed then { e with running := true }
    else
      let (w0, w1) := s.windows j
      { e with
        running := true, jobLevel := j.level, jobOpcode := j.desc.opcode, tStart := s.clk, gap := 0
        scratch := putMem e.scratch 0 j.desc.bytes, dirty := Tbl.set false e.dirty 0 true
        qwin0 := w0, qwin1 := w1
        claims := if j.desc.op = 0x40 ∨ j.desc.op = 0x41 ∨ j.desc.op = 0x42 then [s.slhCore j.engine j.desc.set] else []
        pc := e.redirect { addr := j.desc.opcode.setWidth 14 }, stage := {}, spg := none, dma := [], bstage := [] })

/-! ## The wipe (R233) -/

/-- R233, R403: an engine finishes its wipe and its Float grant returns. It then stands where its unit stands. -/
def execEngineWipeDone (hawk : Bool) (n : Nat) (s : State) : Host.Outcome State Fault Refusal :=
  if hawk then
    if 9 ≤ n ∨ (s.hawk n).st ≠ 5 then .next s
    else
      let s1 := ((s.releaseGrant .hawk n).returnWipe (EKind.hawk.holder n)).showUnit (72 + n) (s.unit (72 + n)).st
      .next ((s1.checkEnables).assign)
  else if 36 ≤ n ∨ (s.lath n).st ≠ .wiping then .next s
  else
    let s1 := (((s.wipeLath n).releaseGrant .lath n).returnWipe (EKind.lath.holder n)).showUnit (36 + n) (s.unit (36 + n)).st
    .next ((loadLoop 38 s1.checkEnables).assign)

/-! ## Preemption and resumption (R235, R236) -/

/-- R235: a drained engine's job has not ended within 50 µs, and Horrov requests preemption. Where the Quad's save
area is occupied the drain waits instead. -/
def execPreemptRequest (n : Nat) (s : State) : Host.Outcome State Fault Refusal :=
  if n < 36 ∧ (s.unit (36 + n)).st = .draining ∧ (s.jobOn .lath n).isSome ∧ (s.quad (n / 4)).save.isNone then
    .next (s.updLath n (fun e => { e with preempt := true }))
  else .next s

/-- Beats of bank 7 that hold an engine's registers and dirty scratch words with their map (R235): 533 for the registers and
the map, at most 4 629 in all. -/
def saveBeats (e : Lath) : Nat := 533 + (e.dirty.filter (fun c => c.2)).length

/-- The preemption at a safe point: the job is saved in bank 7 and the engine wipes itself, keeping the job's windows. -/
def State.suspend (s : State) (n : Nat) (j : Job) : State :=
  let e := s.lath n
  let sv : Saved :=
    { job := j.id, regs := e.r, pc := e.pc, vfault := e.vfault, scratch := e.scratch, dirty := e.dirty,
      qdirty := e.qdirty, qwin0 := e.qwin0, qwin1 := e.qwin1, bstage := e.bstage, jobLevel := e.jobLevel,
      jobOpcode := e.jobOpcode, tStart := e.tStart }
  let s0 := s.tenures (n / 4) 5 15 (saveBeats e)
  ((s0.updQuad (n / 4) (fun q => { q with save := some sv })).updJob j.id (fun x =>
      { x with st := .suspended, quad := some (n / 4) })).updLath n (fun x =>
    { x with st := .wiping, job := none, running := false, preempt := false, qdirty := [], wipeFn := j.fn, wipeGen := j.gen })

/-- R235: a suspended job resumes on the first engine of its Quad that is free, ahead of every new dispatch, and asks for its Float grant. -/
def execJobResume (n : Nat) (s : State) : Host.Outcome State Fault Refusal :=
  if 36 ≤ n then .next s
  else
    match s.nextJob .lath n, (s.quad (n / 4)).save with
    | some (j, r), some sv =>
      if j.st = .suspended ∧ j.id = sv.job ∧ s.held = false then
        let s0 := s.tenures (n / 4) 5 15 (533 + (sv.dirty.filter (fun c => c.2)).length)
        let s1 := s0.updQuad (n / 4) (fun q => { q with save := none })
        let s2 := s1.updLath n (fun e => { e with
          r := sv.regs, pc := sv.pc, vfault := sv.vfault, scratch := sv.scratch, dirty := sv.dirty, qdirty := sv.qdirty,
          qwin0 := sv.qwin0, qwin1 := sv.qwin1, bstage := sv.bstage, jobLevel := sv.jobLevel, jobOpcode := sv.jobOpcode,
          resumed := true, gap := 0, stage := {}, spg := none, dma := [] })
        let s3 := s2.takeNext .lath n j r
        .next (s3.updLath n (fun e => { e with tStart := sv.tStart }))
      else .next s
    | _, _ => .next s

/-! ## HALT (R217, R280) -/

/-- The bytes of a staged key: the shares taken together. -/
def BStage.bytes (b : BStage) : List Byte :=
  (b.shares.foldl (fun acc l => List.zipWith (· ^^^ ·) acc l) (List.replicate 256 0)).flatMap
    (fun w => leBytes 4 w.toNat)

/-- The result keys of a job from its staged values, in the order of their numbers: the slots that the operation's
chapter gives it. -/
def Job.haltKeys (j : Job) (st : List BStage) : List KeySpec :=
  let vals := (List.range 4).filterMap (fun a => (st.reverse.find? (fun b => b.arg == a)).map BStage.bytes)
  let d := j.desc
  let one := fun (u : Usage) (alg : Nat) (o : Origin) => vals.map (fun v => j.key u alg o v)
  if vals.isEmpty then []
  else if d.op = 0x20 then one .dec (0x1000 + d.set) .generated
  else if d.op = 0x25 then j.outKeys (d.b 48 1) (d.b 49 1) vals.flatten
  else if d.op = 0x28 then one .enc (0x1010 + d.set) .generated
  else if d.op = 0x40 then one .enc (0x1020 + d.set) .generated
  else if d.op = 0x48 then one .dec (0x1040 + d.set) .generated
  else if d.op = 0x4C then one .dec (0x1050 + d.set) .generated
  else one .derive 0x0400 .agreed

/-- The end of a job at HALT. -/
def State.halt (s : State) (n : Nat) (j : Job) : State :=
  let e := s.lath n
  if e.vfault.valid then
    let s1 := ((s.failJob j.id stAborted 2).resetLath n).assign
    if e.pc.patch then s1.patchFault else s1
  else
    let x := fun (k : Nat) => (Tbl.get 0 e.r.x k).toNat
    let st : W16 := BitVec.ofNat 16 (x 1)
    let res := getMem e.scratch 92 36
    if st = stOk then
      match s.allocKeys (j.haltKeys e.bstage) with
      | none => ({ s with bnd := { s.bnd with fullCnt := satInc s.bnd.fullCnt } }).failJob j.id stBondFull 0
      | some (ks, s1) =>
        s1.endJob j.id { status := stOk, detail := BitVec.ofNat 32 (x 3), out := fit (x 2 % 4294967296) j.res.out,
                         result := s1.handles ks ++ res.drop (8 * ks.length) }
    else s.endJob j.id { status := st, detail := BitVec.ofNat 32 (x 3), result := res }

end Sys2Proof.Machine
end

