-- ==== Sys2Proof/Machine/Operands.lean ====
section
/-!
DEFINITION. The operand forms of a Lath microword: reading the register files as they stood before the microword
(R205, R246), staging what its slots write (R210), the second operand of the vector slot (R251), and the engine's local
memory with its windows (R206-R209, R270).
-/
namespace Sys2Proof.Machine

/-! ## Which microwords issue -/

/-- Part of a microword of engine `n`: `f` gets the engine and its running job. An engine that runs no job, or whose job is
paused, issues nothing. -/
def wordRow (n : Nat) (s : State) (f : Lath → Job → State) : Host.Outcome State Fault Refusal :=
  if 36 ≤ n then .fault .noSuchEngine
  else
    match s.jobOn .lath n with
    | some j => if j.st = .running then .next (f (s.lath n) j) else .next s
    | none => .next s

/-- A slot of a microword: it does nothing where another slot of the microword waits, since all issue together (R210). -/
def slotRow (n : Nat) (s : State) (f : Lath → Job → State) : Host.Outcome State Fault Refusal :=
  wordRow n s (fun e j => if e.stage.stall then s else f e j)

/-- Stages a write of the microword of engine `n`. -/
def State.stage (s : State) (n : Nat) (g : Stage → Stage) : State := s.updLath n (fun e => { e with stage := g e.stage })

/-- A slot waits for a register that is not final, for a busy unit, a mask word or an arbiter grant: the microword does not
issue. A pending abort of the job is taken here (R231). -/
def State.waitSlot (s : State) (n : Nat) (j : Job) : State :=
  match j.abort with
  | some (st, det) => s.endJob j.id { status := st, detail := det }
  | none => s.stage n (fun t => { t with stall := true })

/-- Stages a write of an X register; X0 ignores it (R205). -/
def State.stageX (s : State) (n r : Nat) (v : W64) : State :=
  if r = 0 then s else s.stage n (fun t => { t with x := t.x ++ [(r, v)] })

/-- Stages a write of a V register. -/
def State.stageV (s : State) (n r : Nat) (l : List W32) : State :=
  s.stage n (fun t => { t with v := t.v ++ [(r, l)] })

/-- The engine's Sponge port still works on one of these V registers, so a microword that reads it does not issue
(R219). -/
def Lath.vBusy (e : Lath) (rs : List Nat) : Bool :=
  match e.spg with
  | some p => rs.contains p.vreg
  | none => false

/-! ## Register files -/

def Lath.xr (e : Lath) (r : Nat) : W64 := if r = 0 then 0 else Tbl.get 0 e.r.x r
def Lath.sr (e : Lath) (r : Nat) : W64 := Tbl.get 0 e.r.s r
def Lath.mr (e : Lath) (r : Nat) : W256 := Tbl.get 0 e.r.m r

/-- The 256 elements of a V register. -/
def Lath.vr (e : Lath) (r : Nat) : List W32 := (List.range 256).map (fun i => Tbl.get 0 e.r.v (256 * r + i))

/-- Writes the elements of a V register. -/
def putVec (t : Tbl W32) (r : Nat) (l : List W32) : Tbl W32 :=
  (l.take 256).zipIdx.foldl (fun m p => Tbl.set 0 m (256 * r + p.2) p.1) t

/-- Bit `i` of the mask `k`; mask 0 is no mask. -/
def Lath.maskBit (e : Lath) (k i : Nat) : Bool := k == 0 || (e.mr k).getLsbD i

/-- The elements that an element operation processes (R247). -/
def Lath.active (e : Lath) (k : Nat) : List Nat :=
  (List.range 256).filter (fun i => decide (e.r.vstart ≤ i) && decide (i < e.r.vl) && e.maskBit k i)

/-- Element `i` of a list of elements. -/
def elt (l : List W32) (i : Nat) : W32 := l.getD i 0

/-- Replaces the elements at the positions `p` by `f`. -/
def overwrite (l : List W32) (p : List Nat) (f : Nat → W32) : List W32 :=
  l.mapIdx (fun i x => if p.contains i then f i else x)

/-! ## Slot fields -/

def VSlot.xs (v : VSlot) : Bool := v.fn.getLsbD 4
def VSlot.d (v : VSlot) : Nat := v.vd.toNat
def VSlot.a (v : VSlot) : Nat := v.vs1.toNat
def VSlot.b (v : VSlot) : Nat := v.vs2.toNat
def VSlot.f (v : VSlot) : Nat := v.fn.toNat

/-- FN sets no bit outside `bits`. -/
def VSlot.fnIn (v : VSlot) (bits : Nat) : Bool := v.fn &&& ~~~ (BitVec.ofNat 5 bits) == 0

/-- The long-vector unit with 32-bit elements; `msk` tells whether the operation takes a mask. -/
def VSlot.long (v : VSlot) (msk : Bool) : Bool := v.u == 0 && v.ew == 2 && (msk || v.msk == 0)
/-- Binary mode. -/
def VSlot.binary (v : VSlot) : Bool := v.u == 0 && v.ew == 3 && v.msk == 0
/-- The short-vector unit with packed elements. -/
def VSlot.short (v : VSlot) : Bool := v.u == 1 && v.ew != 3 && v.msk == 0

/-- The second operand (R251): a V register, or X[VS2] at every element. -/
def Lath.opB (e : Lath) (v : VSlot) : List W32 :=
  if v.xs then List.replicate 256 ((e.xr v.b).setWidth 32) else e.vr v.b

/-- The V registers that a two-operand operation reads. -/
def VSlot.reads (v : VSlot) : List Nat := if v.xs then [v.a] else [v.a, v.b]

/-- A vector or memory slot waits while a register it reads is not final (R210), is inert while a fault record is valid
(R277), and latches RESV_SOP where its encoding is reserved (R250); otherwise `f` is its effect, with the job for a wait. -/
def vecRowJ (n : Nat) (reads : List Nat) (ok : Lath → Bool) (s : State) (f : Lath → Job → State) :
    Host.Outcome State Fault Refusal :=
  slotRow n s (fun e j =>
    if e.vBusy reads then s.waitSlot n j
    else if e.vfault.valid then s
    else if ok e = false then s.engCause n bResvSop
    else f e j)

def vecRow (n : Nat) (reads : List Nat) (ok : Lath → Bool) (s : State) (f : Lath → State) :
    Host.Outcome State Fault Refusal :=
  vecRowJ n reads ok s (fun e _ => f e)

/-- An element operation (R247): `g i` is the new element `i` of V register `d`. -/
def State.elemOp (s : State) (n : Nat) (e : Lath) (k d : Nat) (g : Nat → W32) : State :=
  let s1 := s.stage n (fun t => { t with vsElem := true })
  if e.r.vl ≤ e.r.vstart then s1.stage n (fun t => { t with vClaim := t.vClaim ++ [d] })
  else s1.stageV n d (overwrite (e.vr d) (e.active k) g)

/-! ## Local memory -/

/-- Where a local address lies (R206): scratch, or Quad memory. -/
inductive Place where
  | scratch (a : Nat)
  | quad (a : Nat)
deriving DecidableEq, Repr

def placeOf (a : Nat) : Option Place :=
  if a < 262144 then some (.scratch a)
  else if 4194304 ≤ a ∧ a < 8388608 then some (.quad (a - 4194304))
  else none

/-- Beat `b` lies in a window. -/
def QWin.has (w : QWin) (b : Nat) : Bool := w.valid && decide (w.base ≤ b) && decide (b ≤ w.limit)

/-- A claim on any resource above rank `k`, or on rank `k` by a requester that asks anew, refuses a request (R243).
`held` allows the tenures of a claim on `k` itself. -/
def Lath.rankBad (e : Lath) (k : Nat) (held : Bool) : Bool :=
  !(held && e.claims.contains k) && e.claims.any (fun c => decide (k ≤ c))

/-- The checks 1-4 of R270 on an access of `w` bytes at address `a`, in their order: the fault cause of LTH_VFAULT. -/
def Lath.accessBad (e : Lath) (store : Bool) (w : Nat) (a : Nat) : Option Nat :=
  match (if a < 16777216 then placeOf a else none) with
  | none => some 1
  | some pl =>
    if a % w ≠ 0 then some 3
    else
      match pl with
      | .scratch _ => none
      | .quad q =>
        if !(e.qwin0.has (q / 64)) && (store || !(e.qwin1.has (q / 64))) then some 2
        else if e.rankBad (8 + q / 524288) true then some 5
        else none

/-- A byte of Quad memory of Quad `q`: the public-key cache in banks 4-5 and the supplied keys in their regions hold
their keys (R347, R348); the rest is as it was written. -/
def State.quadByte (s : State) (q a : Nat) : Byte :=
  if 2097152 ≤ a ∧ a < 3145728 then
    let e1 : McE := Tbl.get {} s.lth.cache 1
    let o := a - 2097152
    if e1.set = 2 then e1.pk.getD o 0
    else (Tbl.get ({} : McE) s.lth.cache (o / 261248 + 1)).pk.getD (o % 261248) 0
  else
    match s.lth.regions.find? (fun r => r.quad == q && decide (r.base ≤ a) && decide (a < r.base + r.size)) with
    | some r =>
      match s.findJob r.job with
      | some j => if j.desc.opcode = 0x4D then (j.keys.headD []).getD (a - r.base) 0 else Tbl.get 0 (s.quad q).mem a
      | none => Tbl.get 0 (s.quad q).mem a
    | none => Tbl.get 0 (s.quad q).mem a

/-- A byte of the local address space of engine `n`. -/
def State.localByte (s : State) (n a : Nat) : Byte :=
  match placeOf a with
  | some (.scratch x) => Tbl.get 0 (s.lath n).scratch x
  | some (.quad x) => s.quadByte (n / 4) x
  | none => 0

/-- `w` bytes from local address `a`. -/
def State.localRead (s : State) (n a w : Nat) : List Byte := (List.range w).map (fun i => s.localByte n (a + i))

/-- Writes one byte, setting the dirty bit of its scratch word, or of its beat where window 0 holds it. -/
def State.localWrite1 (s : State) (n a : Nat) (b : Byte) : State :=
  match placeOf a with
  | some (.scratch x) =>
    s.updLath n (fun e => { e with scratch := Tbl.set 0 e.scratch x b, dirty := Tbl.set false e.dirty (x / 64) true })
  | some (.quad x) =>
    (s.updQuad (n / 4) (fun q => { q with mem := Tbl.set 0 q.mem x b })).updLath n (fun e =>
      { e with qdirty := Tbl.set false e.qdirty (x / 64) true })
  | none => s

def localWrite (n a : Nat) : List Byte → State → State
  | [], s => s
  | b :: l, s => localWrite n (a + 1) l (s.localWrite1 n a b)

/-! ## Waiting for the arbiter (R238, R240) -/

/-- The lock of resource `k` as a round boundary finds it (R240): it stays with its holder while that holds the lock
and the claim, and otherwise goes to the first engine that locks and claims the resource. -/
def State.arbLock (s : State) (q k : Nat) (a : ArbRes) : Option Nat :=
  let wants := fun (p : Nat) => (s.lath (4 * q + p)).lock && (s.lath (4 * q + p)).claims.contains k
  match a.locked with
  | some h => if h < 4 ∧ wants h = false then (List.range 4).find? wants else some h
  | none => (List.range 4).find? wants

/-- A request of requester `r` for one of the resources `ks` waits: a locked sequence of another requester covers it. -/
def State.lockedOut (s : State) (q r : Nat) (ks : List Nat) : Bool :=
  ks.any (fun k =>
    match s.arbLock q k (Tbl.get {} (s.quad q).res k) with
    | some h => h != r
    | none => false)

/-! ## Mask words (R222, R223, R265) -/

/-- The mask generator of the Quad of engine `n`. -/
def maskGenOf (n : Nat) : Nat := 28 + n / 4

/-- Draws `k` words of 512 bits from a generator. -/
def State.drawWords (s : State) (g : Nat) : Nat → List W512 × State
  | 0 => ([], s)
  | k + 1 =>
    let (w, s1) := s.drawFrom g
    let (ws, s2) := State.drawWords s1 g k
    (w :: ws, s2)

/-- The words of a microword come from the generator's buffer while that holds words; the others wait until the generator
has produced them (R222, LTH_MG_STATUS.STALLS; log entry 113). -/
def Gen.unbuffer (g : Gen) (k : Nat) : Gen :=
  let b := min k g.fill
  { g with fill := g.fill - b, generated := g.generated - BitVec.ofNat 64 b,
           stalls := BitVec.ofNat 16 (min 65535 (g.stalls.toNat + (k - b))) }

/-- The 32-bit words of generator words, the least significant first. -/
def words32 (ws : List W512) : List W32 := ws.flatMap (fun w => (List.range 16).map (fun i => w.extractLsb' (32 * i) 32))

/-- A draw of mask words by engine `n`: refused by the rank rule, waiting for a lock of another requester or a generator that
is not seeded, ending the job at one that has failed, and otherwise `f` gets the words, each a tenure of the generator. -/
def State.maskDraw (s : State) (n : Nat) (e : Lath) (j : Job) (k : Nat) (f : List W32 → State → State) : State :=
  if k = 0 then f [] s
  else if e.rankBad 7 false then s.engCause n bRank
  else
    match s.rngErr (maskGenOf n) with
    | some x => s.failJob j.id x.1 x.2
    | none =>
      if s.rngWaits (maskGenOf n) then (s.updJob j.id (fun y => { y with waitOn := some (maskGenOf n) })).waitSlot n j
      else if s.lockedOut (n / 4) (n % 4) [7] then s.waitSlot n j
      else
        let (ws, s1) := s.drawWords (maskGenOf n) k
        f (words32 ws) ((s1.updGen (maskGenOf n) (fun g => g.unbuffer k)).tenures (n / 4) (n % 4) 7 k)

end Sys2Proof.Machine
end

