-- ==== Sys2Proof/Machine/Flags.lean ====
section
/-!
DEFINITION. The flags Z, N and C of the scalar unit (R211) and the branch conditions (R214).
-/
namespace Sys2Proof.Machine

/-- The flags that a scalar operation gives; none where it leaves one alone. -/
structure FlagSet where
  z : Option Bool := none
  n : Option Bool := none
  c : Option Bool := none
deriving DecidableEq, Repr

/-- Z and N of a result. -/
def flagsZN (r : W64) : FlagSet := { z := some (r == 0), n := some (r.getLsbD 63) }

/-- Z, N and the carry out of a + b. -/
def flagsAdd (a b : W64) : FlagSet :=
  { z := some (a + b == 0), n := some ((a + b).getLsbD 63), c := some (decide (2 ^ 64 ≤ a.toNat + b.toNat)) }

/-- Z, N and C := no borrow of a - b. -/
def flagsSub (a b : W64) : FlagSet :=
  { z := some (a - b == 0), n := some ((a - b).getLsbD 63), c := some (decide (b.toNat ≤ a.toNat)) }

/-- Stages flags. -/
def State.stageF (s : State) (n : Nat) (f : FlagSet) : State :=
  s.stage n (fun t => { t with zf := f.z <|> t.zf, nf := f.n <|> t.nf, cf := f.c <|> t.cf })

/-- A bit of M0 among elements 0 to VL - 1 is set. -/
def Lath.many (e : Lath) : Bool := (List.range e.r.vl).any (fun i => (e.mr 0).getLsbD i)

/-- The condition of BRANCH (R214); none where CSEL is reserved. -/
def State.condition (s : State) (n : Nat) (csel : Nat) : Option Bool :=
  let e := s.lath n
  match csel with
  | 0 => some true
  | 1 => some e.r.z
  | 2 => some (!e.r.z)
  | 3 => some e.r.n
  | 4 => some (!e.r.n)
  | 5 => some e.r.c
  | 6 => some (!e.r.c)
  | 7 => some (e.r.vl == 0)
  | 8 => some e.many
  | 9 => some (!e.many)
  | 10 => some e.spg.isNone
  | 11 => some e.dma.isEmpty
  | 12 => some ((s.gen (maskGenOf n)).st == .ok)
  | 13 => some e.vfault.valid
  | k => if k < 32 then none else some ((e.xr (k - 32)).getLsbD 0)

end Sys2Proof.Machine
end

