-- ==== Sys2Proof/Machine/Scalar.lean ====
section
/-!
DEFINITION. The sequencer and the scalar slot of a Lath microword (R210-R215, R231, R232). The sequencing row ends the
microword: it makes what the slots staged take effect, counts the issue cycle and forms the next micro-address.
-/
namespace Sys2Proof.Machine

/-! ## The end of a microword (R210, R282) -/

/-- A list of register numbers names one twice. -/
def twice : List Nat → Bool
  | [] => false
  | x :: l => l.contains x || twice l

/-- Two slots of the microword write the same register. -/
def Stage.conflict (t : Stage) : Bool :=
  twice (t.x.map Prod.fst ++ t.xClaim) || twice (t.s.map Prod.fst ++ t.sClaim) || twice (t.v.map Prod.fst ++ t.vClaim) ||
    twice (t.m.map Prod.fst ++ t.mClaim) || decide (2 ≤ t.vl.length)

def putAll {α : Type} [DecidableEq α] (d : α) (t : Tbl α) (l : List (Nat × α)) : Tbl α :=
  l.foldl (fun m p => Tbl.set d m p.1 p.2) t

/-- VSTART after the microword (R282). -/
def Stage.vstart (t : Stage) (old : Nat) : Nat :=
  match t.fault with
  | some f => f.element
  | none =>
    match t.vsMts with
    | some v => v
    | none => if t.vsClr || t.vsElem then 0 else old

/-- What the slots staged takes effect. -/
def Lath.commit (e : Lath) : Lath :=
  let t := e.stage
  { e with
    r := { e.r with
      x := putAll 0 e.r.x t.x, s := putAll 0 e.r.s t.s, m := putAll 0 e.r.m t.m
      v := t.v.foldl (fun m p => putVec m p.1 p.2) e.r.v
      z := t.zf.getD e.r.z, n := t.nf.getD e.r.n, c := t.cf.getD e.r.c
      vl := t.vl.headD e.r.vl, vstart := t.vstart e.r.vstart }
    vfault := match t.fault with
      | some f => f
      | none => if t.vfClr then {} else e.vfault
    stage := {} }

/-- One microword issues: the gap since the last safe point grows (R232). -/
def Lath.issue (e : Lath) (safe : Bool) : Lath :=
  let g := if safe then 0 else e.gap + 1
  { e with gap := g, maxGap := min 65535 (max e.maxGap (e.gap + 1)), upc := e.pc }

/-- The end of the microword of engine `n`: `f` forms the next address from the engine as it then stands. Where a slot waits
the microword has not issued: the sequencer stays at it, and what its slots staged is dropped (R210). -/
def seqRow (n : Nat) (safe : Bool) (s : State) (f : Lath → Job → State → State) : Host.Outcome State Fault Refusal :=
  wordRow n s (fun e j =>
    let s0 := s.updLath n (fun x => x.issue safe)
    if e.stage.stall then s.updLath n (fun x => { x with stage := {} })
    else if e.stage.conflict then s0.engCause n bWriteConflict
    else
      let s1 := s0.updLath n Lath.commit
      if 4096 ≤ (s1.lath n).gap then s1.engCause n bSafeMiss
      else f (s1.lath n) j s1)

/-- Moves on to the next micro-address (R215). -/
def State.goto (s : State) (n : Nat) (a : UAddr) : State :=
  let e := s.lath n
  let t := e.redirect a
  if t.patch ∧ 1024 ≤ t.addr.toNat then s.engCause n bPatchAddr else s.updLath n (fun x => { x with pc := t })

/-- NEXT in the current space. -/
def Lath.here (e : Lath) (a : BitVec 14) : UAddr := { patch := e.pc.patch, addr := a }

def execMSeq (n : Nat) (next : BitVec 14) (s : State) : Host.Outcome State Fault Refusal :=
  seqRow n false s (fun e _ x => x.goto n (e.here next))

def execMBranch (n : Nat) (csel : BitVec 6) (next : BitVec 14) (s : State) : Host.Outcome State Fault Refusal :=
  seqRow n false s (fun e _ x =>
    match x.condition n csel.toNat with
    | none => x.engCause n bResvCond
    | some c => x.goto n (e.here (if c then setBit next 0 else clrBit next 0)))

def execMCall (n : Nat) (next : BitVec 14) (s : State) : Host.Outcome State Fault Refusal :=
  seqRow n false s (fun e _ x =>
    if 16 ≤ e.r.stack.length then x.engCause n bRstack
    else
      (x.updLath n (fun y => { y with r := { y.r with stack := e.here (e.pc.addr + 1) :: y.r.stack } })).goto n (e.here next))

def execMReturn (n : Nat) (s : State) : Host.Outcome State Fault Refusal :=
  seqRow n false s (fun e _ x =>
    match e.r.stack with
    | [] => x.engCause n bRstack
    | a :: l => (x.updLath n (fun y => { y with r := { y.r with stack := l } })).goto n a)

/-- R231: the safe point: a pending abort or deferred fault first, then a preemption where no claim and no lock is held and
every instruction issued has delivered its result (R281). -/
def execMSafe (n : Nat) (next : BitVec 14) (s : State) : Host.Outcome State Fault Refusal :=
  seqRow n true s (fun e j x =>
    match j.abort with
    | some (st, det) => x.endJob j.id { status := st, detail := det }
    | none =>
      let y := x.goto n (e.here next)
      if e.preempt ∧ e.claims = [] ∧ e.lock = false ∧ e.dma = [] ∧ e.spg = none ∧ (y.jobOn .lath n).isSome then
        y.suspend n j
      else y)

def execMHalt (n : Nat) (s : State) : Host.Outcome State Fault Refusal :=
  seqRow n true s (fun _ j x => x.halt n j)

def execMDispatch (n : Nat) (reg : BitVec 5) (next : BitVec 14) (s : State) : Host.Outcome State Fault Refusal :=
  seqRow n false s (fun e _ x =>
    x.goto n (e.here ((next &&& 0x3FF0) ||| ((e.xr reg.toNat).setWidth 14 &&& 0xF))))

def execMPjump (n : Nat) (next : BitVec 14) (s : State) : Host.Outcome State Fault Refusal :=
  seqRow n false s (fun _ _ x => x.goto n { patch := true, addr := next })

def execMRjump (n : Nat) (next : BitVec 14) (s : State) : Host.Outcome State Fault Refusal :=
  seqRow n false s (fun _ _ x => x.goto n { patch := false, addr := next })

/-! ## The scalar slot (R211) -/

/-- A scalar operation of two values: the result goes to X[RD] with its flags. -/
def scalarRow (n : Nat) (rd : BitVec 5) (s : State) (f : Lath → W64 × FlagSet) : Host.Outcome State Fault Refusal :=
  slotRow n s (fun e _ => let (v, fl) := f e; (s.stageX n rd.toNat v).stageF n fl)

/-- Register form. -/
def regRow (n : Nat) (rd rs1 rs2 : BitVec 5) (s : State) (f : W64 → W64 → W64 × FlagSet) :
    Host.Outcome State Fault Refusal :=
  scalarRow n rd s (fun e => f (e.xr rs1.toNat) (e.xr rs2.toNat))

/-- Immediate form: the operand is the sign-extended or the zero-extended IMM. -/
def immRow (n : Nat) (rd rs1 : BitVec 5) (imm : W64) (s : State) (f : W64 → W64 → W64 × FlagSet) :
    Host.Outcome State Fault Refusal :=
  scalarRow n rd s (fun e => f (e.xr rs1.toNat) imm)

def withZN (v : W64) : W64 × FlagSet := (v, flagsZN v)

/-- A shift of the three kinds of SHI (0 SLL, 1 SRL, 2 SRA). -/
def shiftX (mode : Nat) (a : W64) (k : Nat) : W64 :=
  match mode with
  | 0 => a <<< k
  | 1 => a >>> k
  | _ => a.sshiftRight k

def sextImm (i : W16) : W64 := i.signExtend 64
def zextImm (i : W16) : W64 := i.zeroExtend 64

def execMAdd (n : Nat) (rd rs1 rs2 : BitVec 5) (s : State) : Host.Outcome State Fault Refusal :=
  regRow n rd rs1 rs2 s (fun a b => (a + b, flagsAdd a b))

def execMSub (n : Nat) (rd rs1 rs2 : BitVec 5) (s : State) : Host.Outcome State Fault Refusal :=
  regRow n rd rs1 rs2 s (fun a b => (a - b, flagsSub a b))

def execMAnd (n : Nat) (rd rs1 rs2 : BitVec 5) (s : State) : Host.Outcome State Fault Refusal :=
  regRow n rd rs1 rs2 s (fun a b => withZN (a &&& b))

def execMOr (n : Nat) (rd rs1 rs2 : BitVec 5) (s : State) : Host.Outcome State Fault Refusal :=
  regRow n rd rs1 rs2 s (fun a b => withZN (a ||| b))

def execMXor (n : Nat) (rd rs1 rs2 : BitVec 5) (s : State) : Host.Outcome State Fault Refusal :=
  regRow n rd rs1 rs2 s (fun a b => withZN (a ^^^ b))

def execMSll (n : Nat) (rd rs1 rs2 : BitVec 5) (s : State) : Host.Outcome State Fault Refusal :=
  regRow n rd rs1 rs2 s (fun a b => withZN (shiftX 0 a (b.toNat % 64)))

def execMSrl (n : Nat) (rd rs1 rs2 : BitVec 5) (s : State) : Host.Outcome State Fault Refusal :=
  regRow n rd rs1 rs2 s (fun a b => withZN (shiftX 1 a (b.toNat % 64)))

def execMSra (n : Nat) (rd rs1 rs2 : BitVec 5) (s : State) : Host.Outcome State Fault Refusal :=
  regRow n rd rs1 rs2 s (fun a b => withZN (shiftX 2 a (b.toNat % 64)))

def execMMul (n : Nat) (rd rs1 rs2 : BitVec 5) (s : State) : Host.Outcome State Fault Refusal :=
  regRow n rd rs1 rs2 s (fun a b => withZN (a * b))

def execMMulhu (n : Nat) (rd rs1 rs2 : BitVec 5) (s : State) : Host.Outcome State Fault Refusal :=
  regRow n rd rs1 rs2 s (fun a b => withZN (BitVec.ofNat 64 (a.toNat * b.toNat / 2 ^ 64)))

def execMAddi (n : Nat) (rd rs1 : BitVec 5) (imm : W16) (s : State) : Host.Outcome State Fault Refusal :=
  immRow n rd rs1 (sextImm imm) s (fun a b => (a + b, flagsAdd a b))

def execMAndi (n : Nat) (rd rs1 : BitVec 5) (imm : W16) (s : State) : Host.Outcome State Fault Refusal :=
  immRow n rd rs1 (zextImm imm) s (fun a b => withZN (a &&& b))

def execMOri (n : Nat) (rd rs1 : BitVec 5) (imm : W16) (s : State) : Host.Outcome State Fault Refusal :=
  immRow n rd rs1 (zextImm imm) s (fun a b => withZN (a ||| b))

def execMXori (n : Nat) (rd rs1 : BitVec 5) (imm : W16) (s : State) : Host.Outcome State Fault Refusal :=
  immRow n rd rs1 (zextImm imm) s (fun a b => withZN (a ^^^ b))

/-- SHI: `mode` is IMM[7:6], `cnt` IMM[5:0]; mode 3 is reserved. -/
def execMShi (n : Nat) (rd rs1 : BitVec 5) (mode : BitVec 2) (cnt : BitVec 6) (s : State) :
    Host.Outcome State Fault Refusal :=
  if mode = 3 then slotRow n s (fun _ _ => s.engCause n bResvSop)
  else scalarRow n rd s (fun e => withZN (shiftX mode.toNat (e.xr rs1.toNat) cnt.toNat))

def execMLui (n : Nat) (rd : BitVec 5) (imm : W16) (s : State) : Host.Outcome State Fault Refusal :=
  scalarRow n rd s (fun _ => (sextImm imm <<< 16, {}))

def execMCmp (n : Nat) (rs1 rs2 : BitVec 5) (s : State) : Host.Outcome State Fault Refusal :=
  scalarRow n 0 s (fun e => (0, flagsSub (e.xr rs1.toNat) (e.xr rs2.toNat)))

def execMCmpi (n : Nat) (rs1 : BitVec 5) (imm : W16) (s : State) : Host.Outcome State Fault Refusal :=
  scalarRow n 0 s (fun e => (0, flagsSub (e.xr rs1.toNat) (sextImm imm)))

/-- A special register of R212; none where the number is reserved. -/
def Lath.special (e : Lath) (n : Nat) : Nat → Option W64
  | 0 => some (BitVec.ofNat 64 e.r.vl)
  | 1 => some (BitVec.ofNat 64 e.r.vstart)
  | 2 => some (BitVec.ofNat 64 e.jobLevel)
  | 3 => some (e.jobOpcode.setWidth 64)
  | 4 => some (BitVec.ofNat 64 n)
  | _ => none

def execMMfs (n : Nat) (rd : BitVec 5) (num : Byte) (s : State) : Host.Outcome State Fault Refusal :=
  slotRow n s (fun e _ =>
    match e.special n num.toNat with
    | some v => s.stageX n rd.toNat v
    | none => s.engCause n bResvSop)

def execMMts (n : Nat) (rs1 : BitVec 5) (num : Byte) (s : State) : Host.Outcome State Fault Refusal :=
  slotRow n s (fun e _ =>
    let v := (e.xr rs1.toNat).toNat
    if num = 0 then s.stage n (fun t => { t with vl := t.vl ++ [min v 256] })
    else if num = 1 then s.stage n (fun t => { t with vsMts := some (min v 255) })
    else s.engCause n bResvSop)

def execMSel (n : Nat) (rd rs1 rs2 : BitVec 5) (s : State) : Host.Outcome State Fault Refusal :=
  scalarRow n rd s (fun e => (if e.r.z then e.xr rs1.toNat else e.xr rs2.toNat, {}))

end Sys2Proof.Machine
end

