-- ==== Sys2Proof/Machine/Vector.lean ====
section
/-!
DEFINITION. The vector slot (R249-R260, R278): integer, modular, rearranging and binary-mode operations of the
long-vector and short-vector units.
-/
namespace Sys2Proof.Machine

/-! ## Integer operations (R254) -/

/-- The element operations of R254, on elements of `w` bits. -/
inductive VOp where
  | add | sub | and | or | xor | sll | srl | sra | mul | mulhu | minu | maxu | mv
deriving DecidableEq, Repr

def VOp.eval {w : Nat} (o : VOp) (a b : BitVec w) : BitVec w :=
  match o with
  | .add => a + b
  | .sub => a - b
  | .and => a &&& b
  | .or => a ||| b
  | .xor => a ^^^ b
  | .sll => a <<< (b.toNat % w)
  | .srl => a >>> (b.toNat % w)
  | .sra => a.sshiftRight (b.toNat % w)
  | .mul => a * b
  | .mulhu => BitVec.ofNat w (a.toNat * b.toNat / 2 ^ w)
  | .minu => if a.toNat ≤ b.toNat then a else b
  | .maxu => if a.toNat ≤ b.toNat then b else a
  | .mv => b

/-- The operation has a binary-mode form. -/
def VOp.hasBinary : VOp → Bool
  | .and | .or | .xor | .mv => true
  | _ => false

/-- Packed elements of `w` bits in a 64-bit register. -/
def packedMap (w : Nat) (f : BitVec w → BitVec w → BitVec w) (a b : W64) : W64 :=
  (List.range (64 / w)).foldl (fun acc i =>
    acc ||| ((f (a.extractLsb' (w * i) w) (b.extractLsb' (w * i) w)).setWidth 64 <<< (w * i))) 0

/-- The value `x` repeated at every element of `w` bits. -/
def packedFill (w : Nat) (x : W64) : W64 :=
  (List.range (64 / w)).foldl (fun acc i => acc ||| (((x.setWidth w).setWidth 64) <<< (w * i))) 0

/-- The element width of the short-vector unit. -/
def VSlot.width (v : VSlot) : Nat := 8 * 2 ^ v.ew.toNat

/-- The short-vector form: full width, no mask. -/
def State.shortOp (s : State) (n : Nat) (e : Lath) (v : VSlot) (o : VOp) : State :=
  let w := v.width
  let b := if v.xs then packedFill w (e.xr v.b) else e.sr v.b
  s.stage n (fun t => { t with s := t.s ++ [(v.d, packedMap w o.eval (e.sr v.a) b)] })

/-- One row of R254: long, binary and short forms. -/
def intRow (o : VOp) (n : Nat) (v : VSlot) (s : State) : Host.Outcome State Fault Refusal :=
  let reads := if v.u = 0 then (if o = .mv then (if v.xs then [] else [v.b]) else v.reads) else []
  vecRow n reads (fun _ =>
    v.fnIn 16 && (o != .mv || v.vs1 == 0) && (v.long true || (o.hasBinary && v.binary) || v.short)) s (fun e =>
    if v.u = 1 then s.shortOp n e v o
    else
      let b := e.opB v
      let a := e.vr v.a
      s.elemOp n e v.msk.toNat v.d (fun i => o.eval (elt a i) (elt b i)))

def execMVadd (n : Nat) (v : VSlot) (s : State) : Host.Outcome State Fault Refusal := intRow .add n v s
def execMVsub (n : Nat) (v : VSlot) (s : State) : Host.Outcome State Fault Refusal := intRow .sub n v s
def execMVand (n : Nat) (v : VSlot) (s : State) : Host.Outcome State Fault Refusal := intRow .and n v s
def execMVor (n : Nat) (v : VSlot) (s : State) : Host.Outcome State Fault Refusal := intRow .or n v s
def execMVxor (n : Nat) (v : VSlot) (s : State) : Host.Outcome State Fault Refusal := intRow .xor n v s
def execMVsll (n : Nat) (v : VSlot) (s : State) : Host.Outcome State Fault Refusal := intRow .sll n v s
def execMVsrl (n : Nat) (v : VSlot) (s : State) : Host.Outcome State Fault Refusal := intRow .srl n v s
def execMVsra (n : Nat) (v : VSlot) (s : State) : Host.Outcome State Fault Refusal := intRow .sra n v s
def execMVmul (n : Nat) (v : VSlot) (s : State) : Host.Outcome State Fault Refusal := intRow .mul n v s
def execMVmulhu (n : Nat) (v : VSlot) (s : State) : Host.Outcome State Fault Refusal := intRow .mulhu n v s
def execMVminu (n : Nat) (v : VSlot) (s : State) : Host.Outcome State Fault Refusal := intRow .minu n v s
def execMVmaxu (n : Nat) (v : VSlot) (s : State) : Host.Outcome State Fault Refusal := intRow .maxu n v s
def execMVmv (n : Nat) (v : VSlot) (s : State) : Host.Outcome State Fault Refusal := intRow .mv n v s

/-- The compare conditions of FN[2:0]. -/
def vcond (c : Nat) (a b : W32) : Bool :=
  match c with
  | 0 => a == b
  | 1 => a != b
  | 2 => a.ult b
  | 3 => !(a.ult b)
  | 4 => a.slt b
  | _ => !(a.slt b)

/-- A mask register from its 256 bits. -/
def maskOf (f : Nat → Bool) : W256 :=
  BitVec.ofNat 256 ((List.range 256).foldl (fun acc i => if f i then acc + 2 ^ i else acc) 0)

def execMVcmp (n : Nat) (v : VSlot) (s : State) : Host.Outcome State Fault Refusal :=
  vecRow n v.reads (fun _ => v.fnIn 23 && decide (v.f % 8 ≤ 5) && decide (v.d < 8) && v.long true) s (fun e =>
    let a := e.vr v.a
    let b := e.opB v
    let old := e.mr v.d
    let act := e.active v.msk.toNat
    let s1 := s.stage n (fun t => { t with vsElem := true })
    if e.r.vl ≤ e.r.vstart then s1.stage n (fun t => { t with mClaim := t.mClaim ++ [v.d] })
    else
      s1.stage n (fun t => { t with m := t.m ++ [(v.d,
        maskOf (fun i => if act.contains i then vcond (v.f % 8) (elt a i) (elt b i) else old.getLsbD i))] }))

/-- The carry-less product of two 32-bit words. -/
def clmul (a b : W32) : W64 :=
  (List.range 32).foldl (fun acc i => if b.getLsbD i then acc ^^^ (a.setWidth 64 <<< i) else acc) 0

def execMVclmul (n : Nat) (v : VSlot) (s : State) : Host.Outcome State Fault Refusal :=
  vecRow n v.reads (fun _ => v.fnIn 17 && v.long true) s (fun e =>
    let a := e.vr v.a
    let b := e.opB v
    s.elemOp n e v.msk.toNat v.d (fun i =>
      (clmul (elt a i) (elt b i)).extractLsb' (if v.fn.getLsbD 0 then 32 else 0) 32))

/-! ## Modular arithmetic (R255-R258) -/

def qKem : Nat := 3329
def qDsa : Nat := 8380417

/-- The modulus that FN[3] selects. -/
def VSlot.q (v : VSlot) : Nat := if v.fn.getLsbD 3 then qDsa else qKem

def w32 (x : Nat) : W32 := BitVec.ofNat 32 x

/-- A two-operand modular operation. -/
def modRow (f : Nat → Nat → Nat → Nat) (n : Nat) (v : VSlot) (s : State) : Host.Outcome State Fault Refusal :=
  vecRow n v.reads (fun _ => v.fnIn 24 && v.long true) s (fun e =>
    let a := e.vr v.a
    let b := e.opB v
    s.elemOp n e v.msk.toNat v.d (fun i => w32 (f v.q ((elt a i).toNat % v.q) ((elt b i).toNat % v.q))))

def execMVaddq (n : Nat) (v : VSlot) (s : State) : Host.Outcome State Fault Refusal :=
  modRow (fun q a b => (a + b) % q) n v s

def execMVsubq (n : Nat) (v : VSlot) (s : State) : Host.Outcome State Fault Refusal :=
  modRow (fun q a b => (a + q - b) % q) n v s

def execMVmulq (n : Nat) (v : VSlot) (s : State) : Host.Outcome State Fault Refusal :=
  modRow (fun q a b => (a * b) % q) n v s

/-- The reduction modes of `vredq`. -/
def redq (q mode : Nat) (x : W32) : W32 :=
  match mode with
  | 0 => w32 (x.toNat % q)
  | 1 => w32 (x.toInt % (q : Int)).toNat
  | _ => if 2 * (x.toNat % q) ≤ q - 1 then w32 (x.toNat % q) else BitVec.ofInt 32 ((x.toNat % q : Nat) - (q : Int))

def execMVredq (n : Nat) (v : VSlot) (s : State) : Host.Outcome State Fault Refusal :=
  vecRow n [v.a] (fun _ => v.fnIn 11 && decide (v.f % 4 ≠ 3) && v.vs2 == 0 && v.long true) s (fun e =>
    let a := e.vr v.a
    s.elemOp n e v.msk.toNat v.d (fun i => redq v.q (v.f % 4) (elt a i)))

/-- `vntt`, `vintt`, `vtwid` and `vbmul` need VL = 256, VSTART = 0 and no mask (R256). -/
def Lath.fullVec (e : Lath) : Bool := e.r.vl == 256 && e.r.vstart == 0

/-- The layer number k of FN[2:0] is allowed for the modulus. -/
def VSlot.layerOk (v : VSlot) : Bool := v.fn.getLsbD 3 || decide (v.f % 8 ≠ 0)

/-- One element of a forward layer (R256): Cooley-Tukey. -/
def nttElt (q k : Nat) (x tw : List W32) (i : Nat) : W32 :=
  let len := 2 ^ k
  let r := i % (2 * len)
  let blk := i / (2 * len)
  let at_ := fun (l : List W32) (j : Nat) => (elt l j).toNat % q
  if r < len then w32 ((at_ x i + at_ tw (blk * len + r) * at_ x (i + len) % q) % q)
  else w32 ((at_ x (i - len) + q - at_ tw (blk * len + (r - len)) * at_ x i % q) % q)

/-- One element of an inverse layer: Gentleman-Sande. -/
def inttElt (q k : Nat) (x tw : List W32) (i : Nat) : W32 :=
  let len := 2 ^ k
  let r := i % (2 * len)
  let blk := i / (2 * len)
  let at_ := fun (l : List W32) (j : Nat) => (elt l j).toNat % q
  if r < len then w32 ((at_ x i + at_ x (i + len)) % q)
  else w32 (at_ tw (blk * len + (r - len)) * ((at_ x i + q - at_ x (i - len)) % q) % q)

/-- A layer over a whole register. -/
def layer (inv : Bool) (q k : Nat) (x tw : List W32) : List W32 :=
  (List.range 256).map (fun i => if inv then inttElt q k x tw i else nttElt q k x tw i)

def nttRow (inv : Bool) (n : Nat) (v : VSlot) (s : State) : Host.Outcome State Fault Refusal :=
  vecRow n [v.a, v.b] (fun e => v.fnIn 15 && v.layerOk && v.long false && e.fullVec) s (fun e =>
    (s.stage n (fun t => { t with vsElem := true })).stageV n v.d (layer inv v.q (v.f % 8) (e.vr v.a) (e.vr v.b)))

def execMVntt (n : Nat) (v : VSlot) (s : State) : Host.Outcome State Fault Refusal := nttRow false n v s
def execMVintt (n : Nat) (v : VSlot) (s : State) : Host.Outcome State Fault Refusal := nttRow true n v s

/-- The bits of `x` below `m`, reversed. -/
def bitRev (m x : Nat) : Nat := (List.range m).foldl (fun acc i => 2 * acc + (x / 2 ^ i) % 2) 0

/-- Twiddle `t` of a layer (R256). -/
def twiddle (q k : Nat) (inv : Bool) (t : Nat) : W32 :=
  let len := 2 ^ k
  let idx := if inv then 256 / len - 1 - t / len else 128 / len + t / len
  let (z, m) := if q = qKem then (17, 7) else (1753, 8)
  w32 (z ^ bitRev m idx % q)

def execMVtwid (n : Nat) (v : VSlot) (s : State) : Host.Outcome State Fault Refusal :=
  vecRow n [] (fun e => v.layerOk && v.vs1 == 0 && v.vs2 == 0 && v.long false && e.fullVec) s (fun _ =>
    (s.stage n (fun t => { t with vsElem := true })).stageV n v.d
      ((List.range 256).map (fun t => if t < 128 then twiddle v.q (v.f % 8) v.xs t else 0)))

/-- The base-case product of R257. -/
def baseMul (x y : List W32) : List W32 :=
  (List.range 256).map (fun j =>
    let i := j / 2
    let a := fun (k : Nat) => (elt x (2 * i + k)).toNat % qKem
    let b := fun (k : Nat) => (elt y (2 * i + k)).toNat % qKem
    if j % 2 = 0 then
      w32 ((a 0 * b 0 + a 1 * b 1 % qKem * (17 ^ (2 * bitRev 7 i + 1) % qKem)) % qKem)
    else w32 ((a 0 * b 1 + a 1 * b 0) % qKem))

def execMVbmul (n : Nat) (v : VSlot) (s : State) : Host.Outcome State Fault Refusal :=
  vecRow n [v.a, v.b] (fun e => v.fn == 0 && v.long false && e.fullVec) s (fun e =>
    (s.stage n (fun t => { t with vsElem := true })).stageV n v.d (baseMul (e.vr v.a) (e.vr v.b)))

/-- Compress_d and Decompress_d (R258). -/
def compress (d x : Nat) : Nat := (2 ^ (d + 1) * (x % qKem) + qKem) / (2 * qKem) % 2 ^ d
def decompress (d y : Nat) : Nat := (2 * qKem * (y % 2 ^ d) + 2 ^ d) / 2 ^ (d + 1)

def VSlot.dOk (v : VSlot) : Bool := decide (1 ≤ v.f % 16 ∧ v.f % 16 ≤ 11)

def execMVcprs (n : Nat) (v : VSlot) (s : State) : Host.Outcome State Fault Refusal :=
  vecRow n [v.a] (fun _ => v.fnIn 15 && v.dOk && v.long true) s (fun e =>
    let a := e.vr v.a
    s.elemOp n e v.msk.toNat v.d (fun i => w32 (compress (v.f % 16) (elt a i).toNat)))

def execMVdcprs (n : Nat) (v : VSlot) (s : State) : Host.Outcome State Fault Refusal :=
  vecRow n [v.a] (fun _ => v.fnIn 15 && v.dOk && v.long true) s (fun e =>
    let a := e.vr v.a
    s.elemOp n e v.msk.toNat v.d (fun i => w32 (decompress (v.f % 16) (elt a i).toNat)))

/-! ## Rearranging, moving and counting (R259) -/

/-- A register as one number: element 0 lowest. -/
def vecNat (l : List W32) : Nat := l.foldr (fun x acc => x.toNat + 4294967296 * acc) 0

/-- The elements of a number, as many as `k`. -/
def natVec (k x : Nat) : List W32 := (List.range k).map (fun i => w32 (x / 2 ^ (32 * i)))

def execMVunpk (n : Nat) (v : VSlot) (s : State) : Host.Outcome State Fault Refusal :=
  vecRow n [v.a] (fun e => v.long false && e.r.vstart == 0 && v.vd != v.vs1 && v.vs2 == 0 &&
      decide ((v.f + 1) * e.r.vl ≤ 8192)) s (fun e =>
    let w := v.f + 1
    let x := vecNat (e.vr v.a)
    s.stageV n v.d (overwrite (e.vr v.d) (List.range e.r.vl) (fun i => w32 (x / 2 ^ (w * i) % 2 ^ w))))

def execMVpack (n : Nat) (v : VSlot) (s : State) : Host.Outcome State Fault Refusal :=
  vecRow n [v.a] (fun e => v.long false && e.r.vstart == 0 && v.vd != v.vs1 && v.vs2 == 0 &&
      decide ((v.f + 1) * e.r.vl ≤ 8192)) s (fun e =>
    let w := v.f + 1
    let a := e.vr v.a
    let x := (List.range e.r.vl).foldl (fun acc i => acc + (elt a i).toNat % 2 ^ w * 2 ^ (w * i)) 0
    let k := (w * e.r.vl + 31) / 32
    let y := natVec k x
    s.stageV n v.d (overwrite (e.vr v.d) (List.range k) (fun i => elt y i)))

def execMVcompress (n : Nat) (v : VSlot) (s : State) : Host.Outcome State Fault Refusal :=
  vecRow n [v.a] (fun e => v.long true && v.msk != 0 && v.fn == 0 && e.r.vstart == 0 && v.vd != v.vs1 && v.vs2 == 0) s
    (fun e =>
      let a := e.vr v.a
      let l := (e.active v.msk.toNat).map (fun i => elt a i)
      s.stageV n v.d (overwrite (e.vr v.d) (List.range l.length) (fun i => elt l i)))

/-- The number of bits of a mask below `k`. -/
def maskCount (m : W256) (k : Nat) : Nat := ((List.range k).filter (fun i => m.getLsbD i)).length

def execMVpopc (n : Nat) (v : VSlot) (s : State) : Host.Outcome State Fault Refusal :=
  vecRow n [] (fun _ => v.long false && v.fn == 0 && decide (v.a < 8) && v.vs2 == 0) s (fun e =>
    s.stageX n v.d (BitVec.ofNat 64 (maskCount (e.mr v.a) e.r.vl)))

/-- R248: `setvl`; it works while a fault record is valid (R277). -/
def execMSetvl (n : Nat) (v : VSlot) (s : State) : Host.Outcome State Fault Refusal :=
  slotRow n s (fun e _ =>
    if v.long false && v.fn == 0 && v.vs2 == 0 then
      let k := min (e.xr v.a).toNat 256
      (s.stage n (fun t => { t with vl := t.vl ++ [k] })).stageX n v.d (BitVec.ofNat 64 k)
    else s.engCause n bResvSop)

/-- The functions of `vmop`. -/
def mop (f : Nat) (a b : W256) : W256 :=
  match f with
  | 0 => a &&& b
  | 1 => a ||| b
  | 2 => a ^^^ b
  | 3 => a &&& ~~~b
  | 4 => ~~~a
  | 5 => a
  | 6 => BitVec.allOnes 256
  | _ => 0

def execMVmop (n : Nat) (v : VSlot) (s : State) : Host.Outcome State Fault Refusal :=
  vecRow n [] (fun _ => v.long false && v.fnIn 7 && decide (v.d < 8 ∧ v.a < 8 ∧ v.b < 8)) s (fun e =>
    s.stage n (fun t => { t with m := t.m ++ [(v.d, mop v.f (e.mr v.a) (e.mr v.b))] }))

def execMVmvxv (n : Nat) (v : VSlot) (s : State) : Host.Outcome State Fault Refusal :=
  vecRow n [v.a] (fun _ => v.long false && v.fn == 0) s (fun e =>
    s.stageX n v.d ((elt (e.vr v.a) ((e.xr v.b).toNat % 256)).setWidth 64))

def execMVmvvx (n : Nat) (v : VSlot) (s : State) : Host.Outcome State Fault Refusal :=
  vecRow n [] (fun _ => v.long false && v.fn == 0) s (fun e =>
    s.stageV n v.d (overwrite (e.vr v.d) [(e.xr v.b).toNat % 256] (fun _ => (e.xr v.a).setWidth 32)))

def VSlot.wholeS (v : VSlot) : Bool := v.u == 1 && v.ew == 3 && v.msk == 0 && v.fn == 0

def execMSmvxs (n : Nat) (v : VSlot) (s : State) : Host.Outcome State Fault Refusal :=
  vecRow n [] (fun _ => v.wholeS) s (fun e => s.stageX n v.d (e.sr v.a))

def execMSmvsx (n : Nat) (v : VSlot) (s : State) : Host.Outcome State Fault Refusal :=
  vecRow n [] (fun _ => v.wholeS) s (fun e =>
    s.stage n (fun t => { t with s := t.s ++ [(v.d, e.xr v.a)] }))

def execMVslidedn (n : Nat) (v : VSlot) (s : State) : Host.Outcome State Fault Refusal :=
  vecRow n [v.a] (fun _ => v.long true && v.fn == 0 && v.vd != v.vs1) s (fun e =>
    let k := (e.xr v.b).toNat
    let a := e.vr v.a
    s.elemOp n e v.msk.toNat v.d (fun i => if i + k ≤ 255 then elt a (i + k) else 0))

def execMVslideup (n : Nat) (v : VSlot) (s : State) : Host.Outcome State Fault Refusal :=
  vecRow n [v.a] (fun _ => v.long true && v.fn == 0 && v.vd != v.vs1) s (fun e =>
    let k := (e.xr v.b).toNat
    let a := e.vr v.a
    let old := e.vr v.d
    s.elemOp n e v.msk.toNat v.d (fun i => if k ≤ i then elt a (i - k) else elt old i))

/-- The reductions of `vred`. -/
def reduce (f : Nat) (l : List W32) : W64 :=
  match f with
  | 0 => l.foldl (fun acc x => acc + x.setWidth 64) 0
  | 1 => l.foldl (fun acc x => acc ||| x.setWidth 64) 0
  | 2 => l.foldl (fun acc x => acc ^^^ x.setWidth 64) 0
  | 3 => BitVec.ofNat 64 (l.foldl (fun acc x => max acc x.toNat) 0)
  | _ => BitVec.ofNat 64 (l.foldl (fun acc x => max acc x.toInt.natAbs) 0)

def execMVred (n : Nat) (v : VSlot) (s : State) : Host.Outcome State Fault Refusal :=
  vecRow n [v.a] (fun e => v.long true && v.fnIn 7 && decide (v.f ≤ 4) && e.r.vstart == 0 && v.vs2 == 0) s (fun e =>
    let a := e.vr v.a
    s.stageX n v.d (reduce v.f ((e.active v.msk.toNat).map (fun i => elt a i))))

def execMVperm (n : Nat) (v : VSlot) (s : State) : Host.Outcome State Fault Refusal :=
  vecRow n [v.a, v.b] (fun _ => v.long true && v.fn == 0 && v.vd != v.vs1 && v.vd != v.vs2) s (fun e =>
    let a := e.vr v.a
    let p := e.vr v.b
    s.elemOp n e v.msk.toNat v.d (fun i => elt a ((elt p i).toNat % 256)))

/-! ## Binary mode (R260) -/

/-- A shift or rotation of the N = 32 VL bits of a register: `f N x s`, the shift amount from X[VS2]. -/
def binRow (f : Nat → Nat → Nat → Nat) (n : Nat) (v : VSlot) (s : State) : Host.Outcome State Fault Refusal :=
  vecRow n [v.a] (fun _ => v.binary && v.fn == 0) s (fun e =>
    let k := e.r.vl
    let x := vecNat ((e.vr v.a).take k)
    let y := natVec k (f (32 * k) x (e.xr v.b).toNat)
    s.stageV n v.d (overwrite (e.vr v.d) (List.range k) (fun i => elt y i)))

def execMVbsll (n : Nat) (v : VSlot) (s : State) : Host.Outcome State Fault Refusal :=
  binRow (fun bits x k => if bits ≤ k then 0 else x * 2 ^ k % 2 ^ bits) n v s

def execMVbsrl (n : Nat) (v : VSlot) (s : State) : Host.Outcome State Fault Refusal :=
  binRow (fun bits x k => if bits ≤ k then 0 else x / 2 ^ k) n v s

def execMVbrot (n : Nat) (v : VSlot) (s : State) : Host.Outcome State Fault Refusal :=
  binRow (fun bits x k => (x * 2 ^ (k % bits) + x / 2 ^ (bits - k % bits)) % 2 ^ bits) n v s

def execMVbpopc (n : Nat) (v : VSlot) (s : State) : Host.Outcome State Fault Refusal :=
  vecRow n [v.a] (fun _ => v.binary && v.fn == 0 && v.vs2 == 0) s (fun e =>
    s.stageX n v.d (BitVec.ofNat 64 (((e.vr v.a).take e.r.vl).foldl (fun acc x => acc + popc (x.setWidth 64)) 0)))

def execMVbtrn (n : Nat) (v : VSlot) (s : State) : Host.Outcome State Fault Refusal :=
  vecRow n [v.a] (fun e => v.binary && v.fn == 0 && v.vs2 == 0 && v.vd != v.vs1 && e.r.vl % 32 == 0) s (fun e =>
    let a := e.vr v.a
    s.stageV n v.d (overwrite (e.vr v.d) (List.range e.r.vl) (fun i =>
      (List.range 32).foldl (fun acc c => if (elt a (32 * (i / 32) + c)).getLsbD (i % 32) then setBit acc c else acc) 0)))

/-- The remainder of a carry-less product modulo a polynomial of degree `m`. -/
def gfReduce (m : Nat) (poly : W64) : Nat → W64 → W64
  | 0, x => x
  | k + 1, x => gfReduce m poly k (if x.getLsbD (m + k) then x ^^^ (poly <<< k) else x)

/-- The product in GF(2^m). -/
def gfMul (m : Nat) (poly : W64) (a b : W32) : W32 :=
  let msk : W32 := BitVec.ofNat 32 (2 ^ m - 1)
  (gfReduce m poly m (clmul (a &&& msk) (b &&& msk))).setWidth 32

def execMVgfmul (n : Nat) (v : VSlot) (s : State) : Host.Outcome State Fault Refusal :=
  vecRow n v.reads (fun _ => v.fnIn 17 && v.long true) s (fun e =>
    let a := e.vr v.a
    let b := e.opB v
    s.elemOp n e v.msk.toNat v.d (fun i =>
      if v.fn.getLsbD 0 then gfMul 13 0x201B (elt a i) (elt b i) else gfMul 12 0x1009 (elt a i) (elt b i)))

/-! ## The fault record (R277, R278) -/

/-- LTH_VFAULT as a 64-bit value. -/
def VFault.word (f : VFault) : W64 :=
  BitVec.ofNat 64 ((if f.valid then 2 ^ 63 else 0) + f.cause * 2 ^ 56 + f.element * 2 ^ 48 + f.address.toNat)

def execMVfclr (n : Nat) (v : VSlot) (s : State) : Host.Outcome State Fault Refusal :=
  slotRow n s (fun _ _ =>
    if v.long false && v.fnIn 1 && v.vs1 == 0 && v.vs2 == 0 && v.vd == 0 then
      s.stage n (fun t => { t with vfClr := true, vsClr := t.vsClr || v.fn.getLsbD 0 })
    else s.engCause n bResvSop)

def execMVfrd (n : Nat) (v : VSlot) (s : State) : Host.Outcome State Fault Refusal :=
  slotRow n s (fun e _ =>
    if v.long false && v.fn == 0 && v.vs1 == 0 && v.vs2 == 0 then s.stageX n v.d e.vfault.word
    else s.engCause n bResvSop)

end Sys2Proof.Machine
end

