-- ==== Sys2Proof/Machine/Share.lean ====
section
/-!
DEFINITION. Share mode (R261-R267): operations on values held as G shares in consecutive V registers. Where an
operation draws fresh randomness, its result shares are a sharing of the value that R264 gives: every share but the
first is a function of the drawn words, and the first completes the value.
-/
namespace Sys2Proof.Machine

/-! ## Groups and their checks (R262, R263) -/

/-- The share count that FN[4] selects. -/
def VSlot.g (v : VSlot) : Nat := if v.fn.getLsbD 4 then 3 else 2

def VSlot.pub (v : VSlot) : Bool := v.fn.getLsbD 2
def VSlot.pubX (v : VSlot) : Bool := v.fn.getLsbD 1

/-- Registers of the group that starts at `r`. -/
def groupOf (g r : Nat) : List Nat := (List.range g).map (fun k => r + k)

/-- A destination group meets a source group only where it is that group. -/
def overlapOk (g d a : Nat) : Bool := d == a || decide (d + g ≤ a) || decide (a + g ≤ d)

/-- The checks of R262: `dst` and `srcs` are the groups named. -/
def VSlot.groupsOk (v : VSlot) (e : Lath) (dst : Option Nat) (srcs : List Nat) : Bool :=
  (v.g == 3) == (e.jobLevel == 2) && v.long false && e.r.vstart == 0 &&
    (dst.toList ++ srcs).all (fun r => decide (r + v.g ≤ 32)) &&
    (match dst with
     | some d => srcs.all (fun a => overlapOk v.g d a)
     | none => true)

/-- The shares of a group, as lists of elements. -/
def Lath.shares (e : Lath) (g r : Nat) : List (List W32) := (groupOf g r).map (fun k => e.vr k)

/-- Stages the registers of a group: elements 0 to VL - 1 of each share. -/
def State.stageG (s : State) (n : Nat) (e : Lath) (r : Nat) (l : List (Nat → W32)) : State :=
  l.zipIdx.foldl (fun x p => x.stageV n (r + p.2) (overwrite (e.vr (r + p.2)) (List.range e.r.vl) p.1)) s

/-! ## Values and sharings (R261) -/

/-- The value that element `i` of a sharing holds: a sum modulo `q`, or an exclusive OR where `q` is 0. -/
def valueAt (q : Nat) (sh : List (List W32)) (i : Nat) : Nat :=
  if q = 0 then (sh.foldl (fun acc l => acc ^^^ elt l i) (0 : W32)).toNat
  else (sh.foldl (fun acc l => acc + (elt l i).toNat) 0) % q

/-- A sharing of `x` whose shares after the first come from the words `ws`, element `i` taking words from `i g` on. -/
def freshShare (q g : Nat) (ws : List W32) (x : Nat → Nat) : List (Nat → W32) :=
  let r := fun (k i : Nat) => let w := elt ws ((g - 1) * i + k); if q = 0 then w else w32 (w.toNat % q)
  let first := fun (i : Nat) =>
    if q = 0 then (List.range (g - 1)).foldl (fun acc k => acc ^^^ r k i) (w32 (x i))
    else w32 ((x i % q + (g - 1) * q - (List.range (g - 1)).foldl (fun acc k => acc + (r k i).toNat) 0) % q)
  first :: (List.range (g - 1)).map (fun k => r k)

/-! ## Running a share-mode operation (R265, R266) -/

/-- The shuffle state takes one generator word at the first share-mode instruction of a job or after a resume, and
after every 64, at levels 1 and 2. `w` fresh words per element are drawn besides. -/
def State.shareDraw (s : State) (n : Nat) (e : Lath) (j : Job) (w : Nat) (f : List W32 → State → State) : State :=
  let shuf : Bool := decide (e.jobLevel ≠ 0 ∧ e.shufLeft = 0)
  let k := (w * e.r.vl + 15) / 16
  s.maskDraw n e j (k + if shuf then 1 else 0) (fun ws x =>
    let x1 := x.updLath n (fun y =>
      { y with shufLeft := if shuf then 63 else y.shufLeft - 1
               shuffle := if shuf then BitVec.ofNat 128 (vecNat (ws.take 4)) else y.shuffle })
    f (if shuf then ws.drop 16 else ws) x1)

/-- One share-mode row: encoding checks, the draw of `w` words per element, and the staged result. -/
def shareRow (n : Nat) (v : VSlot) (fnBits : Nat) (dst : Option Nat) (srcs plain : List Nat) (extra : Lath → Bool)
    (w : Nat) (s : State) (f : Lath → List W32 → State → State) : Host.Outcome State Fault Refusal :=
  slotRow n s (fun e j =>
    if e.vBusy (srcs.flatMap (groupOf v.g) ++ plain) then s.waitSlot n j
    else if e.vfault.valid then s
    else if (v.fnIn fnBits && v.groupsOk e dst srcs && extra e) = false then s.engCause n bResvSop
    else s.shareDraw n e j w (fun ws x => f e ws (x.stage n (fun t => { t with vsElem := true }))))

/-- The public operand of R263. -/
def Lath.pubOp (e : Lath) (v : VSlot) : List W32 :=
  if v.pubX then List.replicate 256 ((e.xr v.b).setWidth 32) else e.vr v.b

/-- The source groups and single registers of an operation whose second operand may be public. -/
def VSlot.srcGroups (v : VSlot) : List Nat := if v.pub then [v.a] else [v.a, v.b]
def VSlot.srcPlain (v : VSlot) : List Nat := if v.pub && !v.pubX then [v.b] else []

/-- XS needs P. -/
def VSlot.pubOk (v : VSlot) : Bool := v.pub || !v.pubX

/-- A share-wise operation: `f k` combines share `k` with its second operand; a public operand enters share 0 only
where `pub0` is set, and every share otherwise. -/
def shareWise (fnBits : Nat) (pub0 needPub : Bool) (f : Nat → W32 → W32 → W32) (keep : W32 → W32) (n : Nat)
    (v : VSlot) (s : State) : Host.Outcome State Fault Refusal :=
  shareRow n v fnBits (some v.d) v.srcGroups v.srcPlain (fun _ => v.pubOk && (!needPub || v.pub)) 0 s (fun e _ x =>
    let a := e.shares v.g v.a
    let b := e.shares v.g v.b
    let p := e.pubOp v
    x.stageG n e v.d ((List.range v.g).map (fun k => fun i =>
      let xa := elt (a.getD k []) i
      if v.pub then (if pub0 && k != 0 then keep xa else f k xa (elt p i)) else f k xa (elt (b.getD k []) i))))

def execMVaddqS (n : Nat) (v : VSlot) (s : State) : Host.Outcome State Fault Refusal :=
  shareWise 30 true false (fun _ a b => w32 ((a.toNat + b.toNat) % v.q)) (fun a => w32 (a.toNat % v.q)) n v s

def execMVsubqS (n : Nat) (v : VSlot) (s : State) : Host.Outcome State Fault Refusal :=
  shareWise 30 true false (fun _ a b => w32 ((a.toNat % v.q + v.q - b.toNat % v.q) % v.q)) (fun a => w32 (a.toNat % v.q)) n v s

def execMVmulqS (n : Nat) (v : VSlot) (s : State) : Host.Outcome State Fault Refusal :=
  shareWise 30 false true (fun _ a b => w32 ((a.toNat % v.q) * (b.toNat % v.q) % v.q)) id n v s

def execMVxorS (n : Nat) (v : VSlot) (s : State) : Host.Outcome State Fault Refusal :=
  shareWise 22 true false (fun _ a b => a ^^^ b) id n v s

/-- A layer of the transform on each share, with a public twiddle register. -/
def nttShare (inv : Bool) (n : Nat) (v : VSlot) (s : State) : Host.Outcome State Fault Refusal :=
  shareRow n v 31 (some v.d) [v.a] [v.b] (fun e => v.layerOk && e.fullVec) 0 s (fun e _ x =>
    x.stageG n e v.d ((e.shares v.g v.a).map (fun l =>
      let y := layer inv v.q (v.f % 8) l (e.vr v.b)
      fun i => elt y i)))

def execMVnttS (n : Nat) (v : VSlot) (s : State) : Host.Outcome State Fault Refusal := nttShare false n v s
def execMVinttS (n : Nat) (v : VSlot) (s : State) : Host.Outcome State Fault Refusal := nttShare true n v s

def execMVbmulS (n : Nat) (v : VSlot) (s : State) : Host.Outcome State Fault Refusal :=
  shareRow n v 16 (some v.d) [v.a] [v.b] (fun e => e.fullVec) 0 s (fun e _ x =>
    x.stageG n e v.d ((e.shares v.g v.a).map (fun l =>
      let y := baseMul l (e.vr v.b)
      fun i => elt y i)))

/-- `vand.s`: with a public operand share by share, otherwise the masked AND of two Boolean sharings. -/
def execMVandS (n : Nat) (v : VSlot) (s : State) : Host.Outcome State Fault Refusal :=
  if v.pub then shareWise 22 false true (fun _ a b => a &&& b) id n v s
  else
    shareRow n v 22 (some v.d) [v.a, v.b] [] (fun _ => v.pubOk) (if v.g = 2 then 1 else 3) s (fun e ws x =>
      x.stageG n e v.d (freshShare 0 v.g ws (fun i =>
        (w32 (valueAt 0 (e.shares v.g v.a) i) &&& w32 (valueAt 0 (e.shares v.g v.b) i)).toNat)))

def execMVshS (n : Nat) (v : VSlot) (s : State) : Host.Outcome State Fault Refusal :=
  shareRow n v 17 (some v.d) [v.a] [] (fun _ => true) 0 s (fun e _ x =>
    let k := (e.xr v.b).toNat
    x.stageG n e v.d ((e.shares v.g v.a).map (fun l => fun i =>
      if 32 ≤ k then 0 else if v.fn.getLsbD 0 then elt l i >>> k else elt l i <<< k)))

/-- The modulus of a sharing of kind FN[0]: 0 for a Boolean one. -/
def VSlot.kindQ (v : VSlot) : Nat := if v.fn.getLsbD 0 then 0 else v.q

def execMVrefS (n : Nat) (v : VSlot) (s : State) : Host.Outcome State Fault Refusal :=
  shareRow n v 25 (some v.d) [v.a] [] (fun _ => v.vs2 == 0) (if v.g = 2 then 1 else 3) s (fun e ws x =>
    x.stageG n e v.d (freshShare v.kindQ v.g ws (fun i => valueAt v.kindQ (e.shares v.g v.a) i)))

def execMVa2bS (n : Nat) (v : VSlot) (s : State) : Host.Outcome State Fault Refusal :=
  shareRow n v 24 (some v.d) [v.a] [] (fun _ => true) (if v.g = 2 then 12 else 36) s (fun e ws x =>
    x.stageG n e v.d (freshShare 0 v.g ws (fun i => valueAt v.q (e.shares v.g v.a) i)))

def execMVb2aS (n : Nat) (v : VSlot) (s : State) : Host.Outcome State Fault Refusal :=
  shareRow n v 24 (some v.d) [v.a] [] (fun _ => true) (if v.g = 2 then 2 else 6) s (fun e ws x =>
    x.stageG n e v.d (freshShare v.q v.g ws (fun i => valueAt 0 (e.shares v.g v.a) i % 16777216)))

def execMVcprsS (n : Nat) (v : VSlot) (s : State) : Host.Outcome State Fault Refusal :=
  shareRow n v 31 (some v.d) [v.a] [] (fun _ => v.dOk) (if v.g = 2 then 14 else 42) s (fun e ws x =>
    x.stageG n e v.d (freshShare 0 v.g ws (fun i => compress (v.f % 16) (valueAt qKem (e.shares v.g v.a) i))))

/-- `vmeqz.s`: whether every element 0 to VL - 1 of a Boolean sharing is 0, in shares. -/
def execMVmeqzS (n : Nat) (v : VSlot) (s : State) : Host.Outcome State Fault Refusal :=
  shareRow n v 16 (some v.d) [v.a] [] (fun _ => true) (if v.g = 2 then 2 else 6) s (fun e ws x =>
    let zero := (List.range e.r.vl).all (fun i => valueAt 0 (e.shares v.g v.a) i == 0)
    x.stageG n e v.d (freshShare 0 v.g ws (fun _ => if zero then 4294967295 else 0)))

/-- `vrecomb`: the value of a sharing in a single register. -/
def execMVrecomb (n : Nat) (v : VSlot) (s : State) : Host.Outcome State Fault Refusal :=
  shareRow n v 25 none [v.a] [] (fun _ => true) 0 s (fun e _ x =>
    x.stageG n e v.d [fun i => w32 (valueAt v.kindQ (e.shares v.g v.a) i)])

/-- `vsplit`: a fresh sharing of a single register. -/
def execMVsplit (n : Nat) (v : VSlot) (s : State) : Host.Outcome State Fault Refusal :=
  shareRow n v 25 (some v.d) [] [v.a] (fun _ => true) (if v.g = 2 then 1 else 2) s (fun e ws x =>
    let a := e.vr v.a
    x.stageG n e v.d (freshShare v.kindQ v.g ws (fun i => valueAt v.kindQ [a] i)))

end Sys2Proof.Machine
end

