-- ==== Sys2Proof/Machine/LathMem.lean ====
section
/-!
DEFINITION. The memory slot (R269-R277, R279): element-precise loads and stores of the vector, short-vector and scalar
registers. Stores take effect at once, loads with the rest of the microword.
-/
namespace Sys2Proof.Machine

/-! ## Faults (R271, R279) -/

/-- A fault at element `i`, address `a`: QWIN and RANK also latch their engine causes and ECC is reported to Scrim, so
that the job is discarded; UNMAPPED and ALIGN reach the routine. -/
def State.memFault (s : State) (n cause i a : Nat) : State :=
  let s1 := s.stage n (fun t =>
    { t with fault := some { valid := true, cause := cause, element := i, address := BitVec.ofNat 24 a } })
  match cause with
  | 2 => (s1.updLath n Lath.commit).engCause n bQwin
  | 5 => (s1.updLath n Lath.commit).engCause n bRank
  | 4 => (s1.updLath n Lath.commit).report 333 n
  | _ => s1

/-- The first of an element's addresses that fails a check of R270, with its cause; `ecc` is the field, counted on from the
first address, whose access meets an uncorrectable error. -/
def Lath.firstBad (e : Lath) (store : Bool) (ecc : Option Nat) (w : Nat) : List Nat → Option (Nat × Nat)
  | [] => none
  | a :: l =>
    match e.accessBad store w a with
    | some c => some (c, a)
    | none => if ecc = some 0 then some (4, a) else e.firstBad store (ecc.map (fun k => k - 1)) w l

/-! ## V form -/

/-- The addresses of element `i` of a memory operation with `f` fields (R270, R272). -/
abbrev Addrs := Nat → List Nat

/-- How far an operation gets: the elements before the first that faults, and the fault. -/
def Lath.walk (e : Lath) (store : Bool) (ecc : Option (Nat × Nat)) (ad : Addrs) : List Nat → List Nat × Option (Nat × Nat × Nat)
  | [] => ([], none)
  | i :: l =>
    match e.firstBad store (match ecc with | some (x, k) => if x = i then some k else none | none => none) 4 (ad i) with
    | some (c, a) => ([], some (c, i, a))
    | none => let (done, fl) := e.walk store ecc ad l; (i :: done, fl)

/-- The beat of Quad memory of a local address. -/
def beatOf (a : Nat) : Option Nat :=
  match placeOf a with
  | some (.quad x) => some (x / 64)
  | _ => none

/-- The distinct beats of Quad memory of some addresses. -/
def beatsOf (l : List Nat) : List Nat := (l.filterMap beatOf).eraseDups

/-- The requests of a memory operation (R274): one for each distinct beat of each group of 16 active elements. -/
def beatRequests (ad : Addrs) : Nat → List Nat → List Nat
  | 0, _ => []
  | fuel + 1, l =>
    if l.isEmpty then [] else beatsOf ((l.take 16).flatMap ad) ++ beatRequests ad fuel (l.drop 16)

/-- A memory operation waits while a bank it requests is locked by another requester (R238); otherwise its beats are tenures of
their banks, and `f` is the rest of its effect. -/
def State.withBeats (s : State) (n : Nat) (j : Job) (bs : List Nat) (f : State → State) : State :=
  if s.lockedOut (n / 4) (n % 4) (bs.map (fun b => 8 + b / 8192)) then s.waitSlot n j
  else f (s.beatTenures (n / 4) (n % 4) bs)

/-- Loads: field `k` of element `i` enters element `i` of V[VR + k]. -/
def State.vecLoad (s : State) (n : Nat) (e : Lath) (j : Job) (m : MemV) (f : Nat) (ad : Addrs) : State :=
  let (done, fl) := e.walk false m.ecc ad (e.active m.msk.toNat)
  s.withBeats n j (beatRequests ad 16 done) (fun s =>
  let word := fun (a : Nat) => BitVec.ofNat 32 (ofLe (s.localRead n a 4))
  let s1 := if done.isEmpty then
      s.stage n (fun t => { t with vClaim := t.vClaim ++ (List.range f).map (fun k => m.vr.toNat + k) })
    else
    (List.range f).foldl (fun x k => x.stageV n (m.vr.toNat + k)
      (overwrite (e.vr (m.vr.toNat + k)) done (fun i => word ((ad i).getD k 0)))) s
  match fl with
  | some (c, i, a) => s1.memFault n c i a
  | none => s1.stage n (fun t => { t with vsElem := true }))

/-- Stores, in ascending order of the elements. -/
def State.vecStore (s : State) (n : Nat) (e : Lath) (j : Job) (m : MemV) (f : Nat) (ad : Addrs) : State :=
  let (done, fl) := e.walk true m.ecc ad (e.active m.msk.toNat)
  s.withBeats n j (beatRequests ad 16 done) (fun s =>
  let regs := (List.range f).map (fun k => e.vr (m.vr.toNat + k))
  let s1 := done.foldl (fun x i =>
    (List.range f).foldl (fun y k =>
      localWrite n ((ad i).getD k 0) (leBytes 4 (elt (regs.getD k []) i).toNat) y) x) s
  match fl with
  | some (c, i, a) => s1.memFault n c i a
  | none => s1.stage n (fun t => { t with vsElem := true }))

/-- An address formed in 64 bits. -/
def addr64 (x : Nat) : Nat := x % 2 ^ 64

def unitAddr (e : Lath) (m : MemV) : Addrs := fun i => [addr64 ((e.xr m.xa.toNat).toNat + 4 * i)]
def strideAddr (e : Lath) (m : MemV) : Addrs := fun i => [addr64 ((e.xr m.xa.toNat).toNat + i * (e.xr m.xb.toNat).toNat)]
def indexAddr (e : Lath) (m : MemV) : Addrs :=
  let off := e.vr m.xb.toNat
  fun i => [addr64 ((e.xr m.xa.toNat).toNat + (elt off i).toNat)]
def segAddr (e : Lath) (m : MemV) : Addrs :=
  let f := m.nf.toNat + 1
  fun i => (List.range f).map (fun k => addr64 ((e.xr m.xa.toNat).toNat + 4 * f * i + 4 * k))

/-- A memory row in V form. VSTART at or past VL processes no element. A load's VR is no source. -/
def memRow (n : Nat) (reads : List Nat) (ok : Bool) (s : State) (f : Lath → Job → State) : Host.Outcome State Fault Refusal :=
  vecRowJ n reads (fun _ => ok) s f

def execMVle (n : Nat) (m : MemV) (s : State) : Host.Outcome State Fault Refusal :=
  memRow n [] (m.nf == 0 && m.xb == 0) s (fun e j => s.vecLoad n e j m 1 (unitAddr e m))

def execMVse (n : Nat) (m : MemV) (s : State) : Host.Outcome State Fault Refusal :=
  memRow n [m.vr.toNat] (m.nf == 0 && m.xb == 0) s (fun e j => s.vecStore n e j m 1 (unitAddr e m))

def execMVlse (n : Nat) (m : MemV) (s : State) : Host.Outcome State Fault Refusal :=
  memRow n [] (m.nf == 0) s (fun e j => s.vecLoad n e j m 1 (strideAddr e m))

def execMVsse (n : Nat) (m : MemV) (s : State) : Host.Outcome State Fault Refusal :=
  memRow n [m.vr.toNat] (m.nf == 0) s (fun e j => s.vecStore n e j m 1 (strideAddr e m))

def execMVlux (n : Nat) (m : MemV) (s : State) : Host.Outcome State Fault Refusal :=
  memRow n [m.xb.toNat] (m.nf == 0 && m.vr != m.xb) s (fun e j => s.vecLoad n e j m 1 (indexAddr e m))

def execMVsux (n : Nat) (m : MemV) (s : State) : Host.Outcome State Fault Refusal :=
  memRow n [m.vr.toNat, m.xb.toNat] (m.nf == 0) s (fun e j => s.vecStore n e j m 1 (indexAddr e m))

def MemV.segOk (m : MemV) : Bool := m.nf != 0 && m.xb == 0 && decide (m.vr.toNat + m.nf.toNat ≤ 31)

def execMVlseg (n : Nat) (m : MemV) (s : State) : Host.Outcome State Fault Refusal :=
  memRow n [] m.segOk s (fun e j => s.vecLoad n e j m (m.nf.toNat + 1) (segAddr e m))

def execMVsseg (n : Nat) (m : MemV) (s : State) : Host.Outcome State Fault Refusal :=
  memRow n (groupOf (m.nf.toNat + 1) m.vr.toNat) m.segOk s (fun e j => s.vecStore n e j m (m.nf.toNat + 1) (segAddr e m))

/-! ## X form: element 0, VSTART 0, 64 bits -/

def MemX.addr (m : MemX) (e : Lath) : Nat := addr64 ((e.xr m.xa.toNat).toNat + 8 * m.off.toNat)

/-- One 64-bit access: `f` is its effect where no check fails. -/
def xRow (n : Nat) (m : MemX) (store : Bool) (claim : State → State) (s : State) (f : Lath → State → State) :
    Host.Outcome State Fault Refusal :=
  vecRowJ n [] (fun e => e.r.vstart == 0) s (fun e j =>
    match e.firstBad store (if m.ecc then some 0 else none) 8 [m.addr e] with
    | some (c, a) => (claim s).memFault n c 0 a
    | none => s.withBeats n j (beatsOf [m.addr e]) (f e))

/-- The claim of a load on its destination where it faults (R282). -/
def claimX (n : Nat) (r : BitVec 5) (s : State) : State :=
  if r = 0 then s else s.stage n (fun t => { t with xClaim := t.xClaim ++ [r.toNat] })
def claimS (n : Nat) (r : BitVec 5) (s : State) : State := s.stage n (fun t => { t with sClaim := t.sClaim ++ [r.toNat] })

def execMSld (n : Nat) (m : MemX) (s : State) : Host.Outcome State Fault Refusal :=
  xRow n m false (claimS n m.rg) s (fun e x => x.stage n (fun t =>
    { t with s := t.s ++ [(m.rg.toNat, BitVec.ofNat 64 (ofLe (s.localRead n (m.addr e) 8)))] }))

def execMSst (n : Nat) (m : MemX) (s : State) : Host.Outcome State Fault Refusal :=
  xRow n m true id s (fun e x => localWrite n (m.addr e) (leBytes 8 (e.sr m.rg.toNat).toNat) x)

def execMXld (n : Nat) (m : MemX) (s : State) : Host.Outcome State Fault Refusal :=
  xRow n m false (claimX n m.rg) s (fun e x => x.stageX n m.rg.toNat (BitVec.ofNat 64 (ofLe (s.localRead n (m.addr e) 8))))

def execMXst (n : Nat) (m : MemX) (s : State) : Host.Outcome State Fault Refusal :=
  xRow n m true id s (fun e x => localWrite n (m.addr e) (leBytes 8 (e.xr m.rg.toNat).toNat) x)

end Sys2Proof.Machine
end

