-- ==== Sys2Proof/Machine/LathPort.lean ====
section
/-!
DEFINITION. The Sponge and port slot (R218-R223), the ends of Sponge operations and DMA, and the Quad arbiter
(R237-R244).
-/
namespace Sys2Proof.Machine

/-! ## Claims and locks (R237, R240, R243) -/

/-- A resource that ACQ can claim. -/
def claimable (k : Nat) : Bool := decide (1 ≤ k ∧ k ≤ 15 ∧ k ≠ 7)

/-- Index of the state that core resource `k` keeps for engine `n`. -/
def coreIdx (k n : Nat) : Nat := 4 * k + n % 4

def execMAcq (n : Nat) (p : PSlot) (s : State) : Host.Outcome State Fault Refusal :=
  slotRow n s (fun e _ =>
    let k := p.res.toNat
    if p.arg ≠ 0 ∨ p.vreg ≠ 0 ∨ claimable k = false then s.engCause n bPortOp
    else if e.rankBad k false then s.engCause n bRank
    else s.updLath n (fun x => { x with claims := x.claims ++ [k] }))

/-- Closing a claim drops the state that a Sponge core keeps for it. -/
def execMRel (n : Nat) (p : PSlot) (s : State) : Host.Outcome State Fault Refusal :=
  slotRow n s (fun _ _ =>
    let k := p.res.toNat
    if p.arg ≠ 0 ∨ p.vreg ≠ 0 ∨ claimable k = false then s.engCause n bPortOp
    else
      (s.updLath n (fun x => { x with claims := x.claims.filter (fun c => c ≠ k) })).updQuad (n / 4) (fun q =>
        { q with cores := Tbl.erase q.cores (coreIdx k n) }))

def execMLock (n : Nat) (p : PSlot) (s : State) : Host.Outcome State Fault Refusal :=
  slotRow n s (fun e _ =>
    if p ≠ {} then s.engCause n bPortOp
    else if e.lock then s
    else s.updLath n (fun x => { x with lock := true }))

def execMUnlock (n : Nat) (p : PSlot) (s : State) : Host.Outcome State Fault Refusal :=
  slotRow n s (fun _ _ =>
    if p ≠ {} then s.engCause n bPortOp
    else s.updLath n (fun x => { x with lock := false }))

/-! ## Quad Sponge cores (R218, R219) -/

/-- The digest bytes of a SHA-2 mode. -/
def sha2Bytes (mode : Nat) : Nat := if mode = 0 then 32 else if mode = 1 then 48 else 64

/-- A core of the Quad that the engine claims. -/
def Lath.claimsCore (e : Lath) (k : Nat) : Bool := decide (1 ≤ k ∧ k ≤ 6) && e.claims.contains k

def State.coreState (s : State) (n k : Nat) : QClaim := Tbl.get {} (s.quad (n / 4)).cores (coreIdx k n)

def State.setCoreState (s : State) (n k : Nat) (c : QClaim) : State :=
  s.updQuad (n / 4) (fun q => { q with cores := Tbl.set {} q.cores (coreIdx k n) c })

/-- The rate of a Keccak mode in bytes, and the block of a SHA-2 mode. -/
def keccakRate (mode : Nat) : Nat := match mode with | 0 => 136 | 1 => 72 | 2 => 168 | _ => 136
def sha2Block (mode : Nat) : Nat := if mode = 0 then 64 else 128

/-- Blocks, each one tenure of core `k` (R219, R237), of an operation on claim state `c`: an SABS of `len` bytes, with padding
where `last`, or an SSQZ of `len` bytes. A Keccak block that an output needs is processed when it is squeezed, as the worked
sampling loop counts it (DEDUCED, log entry 112). -/
def QClaim.blocks (c : QClaim) (k len : Nat) (squeeze last : Bool) : Nat :=
  let a := c.absorbed.length
  if k ≤ 2 then
    let r := keccakRate c.mode
    if squeeze then (c.squeezed + len + r - 1) / r - (c.squeezed + r - 1) / r else (a + len) / r - a / r
  else
    let b := sha2Block c.mode
    if squeeze then 0
    else if last then (a + len + b / 8 + b) / b - a / b
    else (a + len) / b - a / b

/-- While the Sponge port has an operation in progress, the slot waits. -/
def execMSinit (n : Nat) (p : PSlot) (s : State) : Host.Outcome State Fault Refusal :=
  slotRow n s (fun e j =>
    let k := p.res.toNat
    if e.spg.isSome then s.waitSlot n j
    else if p.vreg ≠ 0 ∨ e.claimsCore k = false ∨ (if k ≤ 2 then 4 else 3) ≤ p.arg.toNat then s.engCause n bPortOp
    else s.setCoreState n k { mode := p.arg.toNat })

def execMSabs (n : Nat) (p : PSlot) (s : State) : Host.Outcome State Fault Refusal :=
  slotRow n s (fun e j =>
    let k := p.res.toNat
    if e.spg.isSome then s.waitSlot n j
    else if e.claimsCore k = false ∨ 2 ≤ p.arg.toNat then s.engCause n bPortOp
    else
      let o : LSpg :=
        { core := k, vreg := p.vreg.toNat, last := p.arg.getLsbD 0,
          need := (s.coreState n k).blocks k (4 * min 256 e.r.vl) false (p.arg.getLsbD 0)
          bytes := ((e.vr p.vreg.toNat).take e.r.vl).flatMap (fun w => leBytes 4 w.toNat) }
      s.updLath n (fun x => { x with spg := some o }))

def execMSsqz (n : Nat) (p : PSlot) (s : State) : Host.Outcome State Fault Refusal :=
  slotRow n s (fun e j =>
    let k := p.res.toNat
    if e.spg.isSome then s.waitSlot n j
    else if e.claimsCore k = false ∨ p.arg ≠ 0 ∨ (3 ≤ k ∧ sha2Bytes (s.coreState n k).mode < 4 * e.r.vl) then
      s.engCause n bPortOp
    else
      let o : LSpg :=
        { core := k, squeeze := true, vreg := p.vreg.toNat, len := e.r.vl,
          need := (s.coreState n k).blocks k (4 * e.r.vl) true false }
      (s.stage n (fun t => { t with vClaim := t.vClaim ++ [p.vreg.toNat] })).updLath n (fun x => { x with spg := some o }))

/-- Mask words of a Sponge operation of a job above level 0: two for each Keccak permutation, and for each SHA-2 block of the
hash-based jobs (R302, R322). -/
def LSpg.masks (o : LSpg) (e : Lath) : Nat :=
  if e.jobLevel = 0 ∨ (3 ≤ o.core ∧ e.jobOpcode.toNat < 0x40) then 0 else 2 * o.need

/-- Tenures of the core: a masked Keccak permutation of the jobs of R322 takes two. -/
def LSpg.tenures (o : LSpg) (e : Lath) : Nat :=
  if e.jobLevel ≠ 0 ∧ o.core ≤ 2 ∧ 0x40 ≤ e.jobOpcode.toNat then 2 * o.need else o.need

/-- The end of a Sponge operation: the claim's state, or V[VREG], takes its result. -/
def State.spongeEnd (s : State) (n : Nat) (o : LSpg) : State :=
  let c := s.coreState n o.core
  let s1 := s.updLath n (fun x => { x with spg := none })
  let put := fun (d : QClaim) => if (s.lath n).claimsCore o.core then s1.setCoreState n o.core d else s1
  if o.squeeze then
    let out := Config.quadSponge o.core c.mode c.absorbed c.padded c.squeezed (4 * o.len)
    let fill := fun (x : Lath) =>
      overwrite (x.vr o.vreg) (List.range o.len) (fun i => BitVec.ofNat 32 (fieldLe out (4 * i) 4))
    (put { c with squeezed := c.squeezed + 4 * o.len }).updLath n (fun x =>
      { x with r := { x.r with v := putVec x.r.v o.vreg (fill x) } })
  else put { c with absorbed := c.absorbed ++ o.bytes, padded := c.padded || o.last }

/-- R219: the last block of the operation is processed. It waits for a core that another requester locks, and its masks for the
generator, as MGET does. -/
def execSpongeOpDone (n : Nat) (s : State) : Host.Outcome State Fault Refusal :=
  if 36 ≤ n then .next s
  else
    let e := s.lath n
    match e.spg, s.jobOn .lath n with
    | some o, some j =>
      let g := maskGenOf n
      let k := o.masks e
      let wait := s.lockedOut (n / 4) (n % 4) (if k = 0 then [o.core] else [o.core, 7])
      if k ≠ 0 ∧ s.rngWaits g = true then .next (s.updJob j.id (fun y => { y with waitOn := some g }))
      else if wait then .next s
      else
        match (if k = 0 then none else s.rngErr g) with
        | some x => .next (s.failJob j.id x.1 x.2)
        | none =>
          let s1 := ((s.drawMany g k).updGen g (fun y => y.unbuffer k)).tenures (n / 4) (n % 4) 7 k
          .next ((s1.tenures (n / 4) (n % 4) o.core (o.tenures e)).spongeEnd n o)
    | some _, none => .next (s.updLath n (fun x => { x with spg := none }))
    | none, _ => .next s

/-! ## Masks and keys (R220, R222, R223) -/

def execMMget (n : Nat) (p : PSlot) (s : State) : Host.Outcome State Fault Refusal :=
  slotRow n s (fun e j =>
    if p.res ≠ 0 ∨ p.arg ≠ 0 then s.engCause n bPortOp
    else
      s.maskDraw n e j ((e.r.vl + 15) / 16) (fun ws x =>
        x.stageV n p.vreg.toNat (overwrite (e.vr p.vreg.toNat) (List.range e.r.vl) (fun i => elt ws i))))

/-- Share registers of a key at the job's level. -/
def shareCount (level : Nat) : Nat := if level = 2 then 3 else 2

/-- The key of handle index `a` of a job; a supplied public key (R348) is none. The transient slot of a hybrid job has the index
after its keys (R304; DESIGN CHOICE, log entry 116). -/
def State.bloadKey (s : State) (j : Job) (a : Nat) : Option (List Byte) :=
  if j.desc.opcode = 0x4D then none
  else (j.keys ++ (match j.transient with
    | some k => [s.keyBytes k]
    | none => []))[a]?

def execMBload (n : Nat) (p : PSlot) (s : State) : Host.Outcome State Fault Refusal :=
  slotRow n s (fun e j =>
    let g := shareCount e.jobLevel
    match (if p.arg.toNat < 4 then s.bloadKey j p.arg.toNat else none) with
    | none => s.engCause n bPortOp
    | some key =>
      if p.res ≠ 0 ∨ 32 < p.vreg.toNat + g then s.engCause n bPortOp
      else
        let k := min 256 ((key.length + 3) / 4)
        let (ws, s1) := State.drawWords s genDevice (g * 16)
        let sh := freshShare 0 g (words32 ws) (fun i => fieldLe key (4 * i) 4)
        let s2 := sh.zipIdx.foldl (fun x q =>
          x.stageV n (p.vreg.toNat + q.2) (overwrite (e.vr (p.vreg.toNat + q.2)) (List.range k) q.1)) s1
        s2.stage n (fun t => { t with vl := t.vl ++ [k] }))

def execMBstor (n : Nat) (p : PSlot) (s : State) : Host.Outcome State Fault Refusal :=
  slotRow n s (fun e j =>
    let g := shareCount e.jobLevel
    let regs := groupOf g p.vreg.toNat
    if e.vBusy regs then s.waitSlot n j
    else if p.res ≠ 0 ∨ 4 ≤ p.arg.toNat ∨ 32 < p.vreg.toNat + g then s.engCause n bPortOp
    else
      s.updLath n (fun x => { x with bstage := x.bstage.filter (fun b => b.arg ≠ p.arg.toNat) ++
        [({ arg := p.arg.toNat, shares := regs.map (fun r => (e.vr r).take e.r.vl) } : BStage)] }))

/-! ## Job input and output (R221) -/

/-- A local range that R206 maps. -/
def rangeMapped (a k : Nat) : Bool := decide (a + k ≤ 262144) || decide (4194304 ≤ a ∧ a + k ≤ 8388608)

/-- A local range that the windows hold (R209): every beat of a Quad memory range lies in one window. -/
def Lath.rangeOpen (e : Lath) (store : Bool) (a k : Nat) : Bool :=
  if a < 4194304 ∨ k = 0 then true
  else
    let b0 := (a - 4194304) / 64
    let b1 := (a + k - 1 - 4194304) / 64
    (e.qwin0.has b0 && e.qwin0.has b1) || (!store && e.qwin1.has b0 && e.qwin1.has b1)

/-- Issues a DIN or DOUT: `lim` is IN_LEN or OUT_LEN. -/
def dmaRow (n : Nat) (inn : Bool) (xa xb : BitVec 5) (s : State) : Host.Outcome State Fault Refusal :=
  slotRow n s (fun e j =>
    let a := (e.xr xa.toNat).toNat
    let off := (e.xr xb.toNat).toNat
    let k := (e.xr (xb.toNat + 1)).toNat
    let lim := if inn then j.desc.inLen.toNat else j.desc.outLen.toNat
    if xb = 31 ∨ lim < off + k ∨ rangeMapped a k = false then s.engCause n bPortOp
    else if e.rangeOpen inn a k = false then s.engCause n bQwin
    else s.updLath n (fun x => { x with dma := x.dma ++ [{ inn := inn, addr := a, off := off, len := k }] }))

def execMDin (n : Nat) (xa xb : BitVec 5) (s : State) : Host.Outcome State Fault Refusal := dmaRow n true xa xb s
def execMDout (n : Nat) (xa xb : BitVec 5) (s : State) : Host.Outcome State Fault Refusal := dmaRow n false xa xb s

/-- Puts bytes at an offset of an output. -/
def splice (out : List Byte) (off : Nat) (l : List Byte) : List Byte :=
  fit off out ++ l ++ out.drop (off + l.length)

/-- One transfer, with the job's gathered input. -/
def State.dmaOne (s : State) (n : Nat) (j : Job) (b : List Byte) (d : LDma) : State :=
  if d.inn then localWrite n d.addr (fit d.len (b.drop d.off)) s
  else
    let l := s.localRead n d.addr d.len
    s.updJob j.id (fun x => { x with res := { x.res with out := splice x.res.out d.off l } })

/-- R221: every DIN and DOUT of the job has finished. A read error is a deferred fault of the next safe point. -/
def execDmaDone (n : Nat) (inp : JobIn) (s : State) : Host.Outcome State Fault Refusal :=
  if 36 ≤ n then .next s
  else
    match s.jobOn .lath n with
    | none => .next s
    | some j =>
      let ds := (s.lath n).dma
      if ds = [] ∨ (s.fn j.fn).bme = false then .next s
      else
        let s1 := s.updLath n (fun e => { e with dma := [] })
        match inp with
        | .fail e =>
          .next ((s1.dmaFailed e).updJob j.id (fun x =>
            { x with abort := some (x.abort.getD (stDmaError, BitVec.ofNat 32 e.code)) }))
        | .got b => .next (ds.foldl (fun x d => x.dmaOne n j b d) s1)

/-! ## The arbiter (R238-R244) -/

/-- The priority of a requester (R242): the logarithm of the weight of its job's class; 4 for the DMA port, 7 for
Horrov. -/
def State.arbPri (s : State) (q r : Nat) : Nat :=
  if r = 4 then 4 else if r = 5 then 7
  else
    match s.jobOn .lath (4 * q + r) with
    | some j => Nat.log2 (s.weight j.cls)
    | none => 0

/-- The requesters in round-robin order from the last winner. -/
def rrFrom (last : Nat) : List Nat := (List.range 6).map (fun i => (last + 1 + i) % 6)

/-- The winner among the ready requesters (R238). -/
def State.arbWinner (s : State) (q : Nat) (a : ArbRes) (ready : List Nat) : Option Nat :=
  match a.locked with
  | some h => if ready.contains h then some h else none
  | none =>
    let order := (rrFrom a.last).filter (fun r => ready.contains r)
    let lim := (s.quad q).wlim
    match order.find? (fun r => decide (lim.getD r 64 ≤ Tbl.get 0 a.waits r)) with
    | some r => some r
    | none =>
      let top := order.foldl (fun m r => max m (s.arbPri q r)) 0
      order.find? (fun r => s.arbPri q r == top)

/-- Counts a lost round of a requester that waited `cyc` cycles longer. -/
def lostRound (lim : Nat) (cyc : Nat) (a : ArbRes) (r : Nat) : ArbRes :=
  { a with waits := Tbl.set 0 a.waits r (min lim (Tbl.get 0 a.waits r + 1))
           waitCyc := Tbl.set 0 a.waitCyc r (Tbl.get 0 a.waitCyc r + cyc) }

def satAdd32 (x : W32) (n : Nat) : W32 := BitVec.ofNat 32 (min 0xFFFFFFFF (max x.toNat n))

/-- A round that engine `r` wins is a tenure of a slot that follows. -/
def ArbRes.win (a : ArbRes) (r : Nat) : ArbRes :=
  { a with cur := some r, last := r, waits := Tbl.set 0 a.waits r 0, waitCyc := Tbl.set 0 a.waitCyc r 0
           won := if r < 4 then Tbl.upd 0 a.won r (fun k => k + 1) else a.won }

/-- R238: an arbitration round of resource `k` of Quad `q` among the requesters ready; `cyc` is the length in CLK_ENG
cycles of the tenure that the winner then takes, which the losers wait. -/
def execArbRound (q k : Nat) (ready : List Nat) (cyc : Nat) (s : State) : Host.Outcome State Fault Refusal :=
  if 9 ≤ q ∨ k = 0 ∨ 16 ≤ k then .next s
  else
    let qd := s.quad q
    let a0 : ArbRes := Tbl.get {} qd.res k
    let a := { a0 with locked := s.arbLock q k a0 }
    let rs := (List.range 6).filter (fun r => ready.contains r)
    let w := s.arbWinner q a rs
    let losers := rs.filter (fun r => some r != w)
    let a1 := losers.foldl (fun x r => lostRound (qd.wlim.getD r 64) cyc x r) a
    let a2 := match w with
      | some r => a1.win r
      | none => { a1 with cur := none }
    let st1 := losers.foldl (fun t r => Tbl.upd {} t r (fun (x : ArbStat) =>
      { x with waits := satInc x.waits, longest := satAdd32 x.longest (Tbl.get 0 a1.waitCyc r) })) qd.stats
    let st2 := match w with
      | some r => Tbl.upd {} st1 r (fun (x : ArbStat) => { x with grants := satInc x.grants })
      | none => st1
    .next (s.updQuad q (fun x => { x with res := Tbl.set {} x.res k a2, stats := st2 }))

/-- R240: a locked sequence reaches LOCK_MAX: the arbiter ends it. For an engine the cause is LOCK_OVER, for requesters
4 and 5 ARB_LOCK_OVER of the Quad. -/
def execLockOver (q r : Nat) (s : State) : Host.Outcome State Fault Refusal :=
  if 9 ≤ q then .next s
  else
    let free := fun (x : State) => x.updQuad q (fun y =>
      { y with res := Tbl.map {} (fun _ (a : ArbRes) => if a.locked = some r then { a with locked := none } else a) y.res })
    if r < 4 then
      let n := 4 * q + r
      if (s.lath n).lock ∧ (s.jobOn .lath n).isSome then
        .next ((free (s.updLath n (fun e => { e with lock := false }))).engCause n bLockOver)
      else .next s
    else if r < 6 then .next ((free s).report 353 q)
    else .next s

/-- R232: the issue-cycle count reaches 4 096. -/
def execSafeMiss (n : Nat) (s : State) : Host.Outcome State Fault Refusal :=
  if n < 36 ∧ (s.jobOn .lath n).isSome then
    .next ((s.updLath n (fun e => { e with gap := 4096, maxGap := max e.maxGap 4096 })).engCause n bSafeMiss)
  else .next s

end Sys2Proof.Machine
end

