-- ==== Sys2Proof/Machine/Plumb.lean ====
section
/-!
DEFINITION. Plumb (R603-R618): readings and required voltages, the margin plan and its re-plan, draining and the test
queue, the known-answer tests, the daily cycle, and the `eng` commands.
-/
namespace Sys2Proof.Machine

/-! ## Readings and required voltages (R604-R606) -/

/-- The period of a frequency step in ps (R606). -/
def stepPs : Nat → Nat
  | 0 => 625
  | 1 => 714
  | _ => 833

/-- s_105 of a reading of `slack` ps at `t` tenths of a degree, rounded down to whole ps (R605, log entry 37). -/
def s105 (slack t : Int) : Int := (1000 * slack - Config.trimCT * (1050 - t)) / 1000

/-- A reading inside 25-105 °C counts (R605). -/
def tempOk (t : Int) : Bool := decide (250 ≤ t) && decide (t ≤ 1050)

/-- The slack of a reading carried from step `a` to step `b` (R606). -/
def atStep (v : Int) (a b : Nat) : Int := v + (stepPs b : Int) - (stepPs a : Int)

/-- A unit's readings that count now, at step `f`: the slack with its set point and the slack it must have. -/
def State.readings (s : State) (u f : Nat) : List (Int × Nat) × Nat :=
  let x := s.unit u
  let d := x.hasDrained && decide (s.clk.toNat < x.drainedAt.toNat + secTicks 172800)
  let i := x.hasInsitu && decide (s.clk.toNat < x.insituAt.toNat + secTicks 86400)
  ((if d then [(atStep x.drained x.drainedStep f, x.drainedV)] else []) ++
    (if i then [(atStep x.insitu x.insituStep f, x.insituV)] else []), if d then 30 else 45)

/-- The lower of two readings. -/
def lowest : List (Int × Nat) → Option (Int × Nat)
  | [] => none
  | r :: t =>
    match lowest t with
    | none => some r
    | some q => if q.1 < r.1 then some q else some r

/-- V_req in mV, rounded up (R606, log entry 37). A unit without a reading keeps its latest value. -/
def State.vreqAt (s : State) (u f : Nat) : Nat :=
  let (l, m) := s.readings u f
  match lowest l with
  | none => (s.unit u).vreq
  | some (sl, v) => ((v : Int) - ((100 * (sl - (m : Int))) / (Config.trimK : Int))).toNat

/-- The current slack of a unit, where it has a reading. -/
def State.slackOf (s : State) (u : Nat) : Option Int := (lowest (s.readings u (s.unit u).step).1).map (fun r => r.1)

/-- Stores an in-situ reading: the 24 h minimum (R604). -/
def State.putInsitu (s : State) (u : Nat) (slack t : Int) : State :=
  if tempOk t then
    let v := s105 slack t
    s.updUnit u (fun x =>
      let old := x.hasInsitu && decide (s.clk.toNat < x.insituAt.toNat + secTicks 86400)
      if old ∧ x.insitu ≤ v then x
      else { x with insitu := v, insituV := s.pwr.vcoreTarget, insituAt := s.clk, insituStep := x.step, hasInsitu := true })
  else s

/-- Stores a drained reading. -/
def State.putDrained (s : State) (u : Nat) (slack t : Int) : State :=
  s.updUnit u (fun x => { x with drained := s105 slack t, drainedV := s.pwr.vcoreTarget, drainedAt := s.clk, drainedStep := x.step,
                                 hasDrained := true })

/-! ## The re-plan (R607, R608) -/

def allUnits : List Nat := List.range 151

/-- Units that the planner looks at. -/
def State.planned (s : State) : List Nat := allUnits.filter (fun u => (s.unit u).st != .retired)

/-- The units to derate and to retire, the set point, and whether a unit is to be planned again in 10 s (R607). The set
point stays within 650-850 mV (R548, R549). -/
def State.planNow (s : State) : List Nat × List Nat × Nat × Bool :=
  let us := s.planned
  let high := us.filter (fun u => decide (850 < s.vreqAt u (s.unit u).step))
  let ret := high.filter (fun u => decide (2 ≤ (s.unit u).step))
  let der := high.filter (fun u => decide ((s.unit u).step < 2))
  let need := (us.filter (fun u => !ret.contains u)).map (fun u =>
    s.vreqAt u ((s.unit u).step + if der.contains u then 1 else 0))
  let top := need.foldl max 0
  let v := min 850 (max 650 ((top + 4) / 5 * 5))
  let now := s.pwr.vcoreTarget
  (der, ret, if v < now ∧ now - v < 15 then now else v, decide (850 < top))

/-- Sets the VCORE set point: the rail slews to it (R549). -/
def State.setVcore (s : State) (v : Nat) : State :=
  if v = s.pwr.vcoreTarget then s
  else { s with pwr := { s.pwr with vcoreTarget := v, slewing := true }, plb := { s.plb with vcoreMv := v } }

/-- Writes the readings and states of units into the plan. -/
def planEntries (s : State) : List Nat → Tbl PlanUnit → Tbl PlanUnit
  | [], t => t
  | u :: us, t =>
    let x := s.unit u
    planEntries s us (Tbl.upd {} t u (fun _ => { x.entry with
      st := if x.st = .retired then 2 else if x.st = .spare ∨ (x.st ≠ .inService ∧ x.back = .spare) then 0 else 1
      step := x.step, slack := x.drained, vreq := s.vreqAt u x.step }))

def keepVreq : List Nat → State → State
  | [], s => s
  | u :: us, s => keepVreq us (s.updUnit u (fun x => { x with vreq := s.vreqAt u x.step }))

/-- The lowest slack among the units in service, with its unit. -/
def lowOf (s : State) : List Nat → Option (Int × Nat)
  | [] => none
  | u :: us =>
    let r := lowOf s us
    match s.slackOf u with
    | some v =>
      if (s.unit u).st = .spare then r
      else match r with
        | none => some (v, u)
        | some (w, k) => if w < v then some (w, k) else some (v, u)
    | none => r

/-- A plan write (R617). `cycle` is a completed daily cycle. Over a Seam that is down nothing is written, its retry fails too,
and PLB_PLAN_WRITE is raised. -/
def State.writePlan (s : State) (cycle : Bool) : State :=
  let s1 := keepVreq s.planned s
  let p := s1.mram.curPlan
  let low := (lowOf s1 s1.planned).getD (s1.plb.lowSlack, s1.plb.lowUnit)
  let plan : Plan := { p with
    vcoreMv := s1.pwr.vcoreTarget
    cycleRtc := if cycle then s1.bkp.rtc else p.cycleRtc
    cycles := if cycle then p.cycles + 1 else p.cycles
    units := planEntries s1 allUnits p.units }
  let h : Hist := { rtc := s1.bkp.rtc, vcoreMv := s1.pwr.vcoreTarget, slack := low.1, unit := low.2,
                    derated := s1.plb.derated, retired := s1.plb.retiredCnt }
  if s1.seamDown then s1.report 609 0
  else { s1 with
    mram := { s1.mram.putPlan plan with
      hist := if cycle then (s1.mram.hist ++ [h]).drop (s1.mram.hist.length + 1 - 16384) else s1.mram.hist }
    plb := { s1.plb with lowSlack := low.1, lowUnit := low.2, vcoreMv := s1.pwr.vcoreTarget } }

/-- Steps 3 to 5 of R608, once every derate has ended: `eng.margin` is answered, and the daily cycle ends with its own
re-plan. -/
def State.finishPlan (s : State) : State :=
  let ret := s.plb.toRetire
  let s1 := retireUnits 1 ret s
  let s2 := { s1 with plb := { s1.plb with retiredCnt := s.plb.retiredCnt + ret.length } }
  let s3 := if s.plb.vNew < s2.pwr.vcoreTarget then s2.setVcore s.plb.vNew else s2
  let s4 := s3.writePlan s.plb.cyclePlan
  let s5 := { s4 with plb := { s4.plb with
    phase := 0, replan := false, toRetire := [], toDerate := [], waitMargin := none, cyclePlan := false
    cycle := s4.plb.cycle && !s.plb.cyclePlan, factory := s4.plb.factory && !s.plb.cyclePlan } }
  match s.plb.waitMargin with
  | some (n, seq) => s5.answerPf n { gen := (s5.fn 0).gen, seq := seq, results := leBytes 1 (s5.plb.derated % 256) ++ leBytes 1 (s5.plb.retiredCnt % 256) }
  | none => s5

/-- Step 2 of R608: the units to derate take places of their own in the test queue. -/
def State.startDerates (s : State) : State :=
  let ents : List TestEnt := s.plb.toDerate.map (fun u => { unit := u, purpose := .derate, own := true })
  ({ s with plb := { s.plb with phase := 2, testq := s.plb.testq ++ ents } }).serveQueue

/-- Starts one re-plan (R607). -/
def State.beginPlan (s : State) (cycle : Bool) : State :=
  let (der, ret, v, again) := s.planNow
  let s1 := { s with plb := { s.plb with
    replan := true, phase := 1, vNew := v, toDerate := der, toRetire := ret, derated := 0, retiredCnt := 0,
    retryDue := again, cyclePlan := cycle, again := false } }
  if s.pwr.vcoreTarget < v then s1.setVcore v
  else if der.isEmpty then s1.finishPlan else s1.startDerates

/-- The measurements of a daily cycle have all ended. -/
def State.measured (s : State) : Bool := s.plb.cycle && s.plb.testq.all (fun t => t.purpose != .measure)

/-- The daily cycle re-plans once its measurements have ended, and a re-plan that was asked for meanwhile follows. -/
def planLoop : Nat → State → State
  | 0, s => s
  | fuel + 1, s =>
    if s.plb.phase ≠ 0 then s
    else if s.measured then planLoop fuel (s.beginPlan true)
    else if s.plb.again then planLoop fuel (s.beginPlan false)
    else s

/-- Asks for a re-plan. One that runs is followed by another. -/
def State.askPlan (s : State) : State := planLoop 3 { s with plb := { s.plb with again := true } }

/-- Goes on with a re-plan whose slew or whose derate has ended. -/
def State.goPlan (s : State) : State :=
  if s.plb.phase = 2 ∧ s.plb.toDerate.isEmpty = true then planLoop 3 s.finishPlan else s

/-- The phase cap of R550: with fewer than 22 phases, the tokens of 125 mW that the lowered current limit carries at the
present set point. -/
def State.phaseLimit (s : State) : Option Nat :=
  if 22 ≤ s.pwr.phases then none else some ((220 - 10 * (22 - s.pwr.phases)) * s.pwr.vcoreTarget / 125)

/-- Sets the phase cap after a change of the phases or of the set point. -/
def State.capPhases (s : State) : State :=
  if s.flt.phaseCap = s.phaseLimit then s
  else { s with flt := ({ s.flt with phaseCap := s.phaseLimit }).fall }

/-- R549: VCORE reaches its new set point. A re-plan that waited for it derates its units (R608). -/
def execVcoreSlewDone (s : State) : Host.Outcome State Fault Refusal :=
  if s.pwr.slewing then
    let s1 := ({ s with pwr := { s.pwr with slewing := false, vcoreMeas := s.pwr.vcoreTarget } }).capPhases
    if s1.plb.phase = 1 then .next (s1.startDerates.goPlan) else .next s1
  else .next s

/-! ## Draining (R611) and what follows it -/

/-- The unit now under test (PLB_TESTQ.RUNNING): 0xFF for none. -/
def State.fixRunning (s : State) : State :=
  let on := s.plb.testq.filter (fun t => t.active && (s.unit t.unit).st == .test)
  { s with plb := { s.plb with running := match on.getLast? with
    | some t => t.unit
    | none => 0xFF } }

/-- A drained Lath engine runs the Horrov routine of its test or measurement (R216). -/
def State.startRoutine (s : State) (u : Nat) (measure : Bool) : State :=
  match unitEngine u with
  | some (.lath, n) => s.beginRoutine n measure
  | _ => s

/-- R611: a unit that drains carries no more work. It is under test or measured, its clock generator relocks, or its
patch set is loaded. -/
def execUnitDrained (u : Nat) (s : State) : Host.Outcome State Fault Refusal :=
  let s0 := s.serveQueue
  match s0.activeEnt u with
  | none => .next s0
  | some t =>
    if (s0.unit u).st ≠ .draining ∨ s0.noWork u = false then .next s0
    else
      match t.purpose with
      | .kat => .next ((s0.setUnit u .test).startRoutine u false).fixRunning
      | .measure => .next ((s0.setUnit u .test).startRoutine u true).fixRunning
      | .derate => .next (s0.setUnit u .test)
      | .putty =>
        let s1 := match unitEngine u, s0.lth.load with
          | some (.lath, n), some p => s0.updLath n p.into
          | _, _ => s0
        .next ((loadLoop 38 ((s1.dropActive u).endDrain u)).serveQueue)

/-- The record unit that a Plumb unit is in the cause map (R543). -/
def recUnit (u : Nat) : UnitId :=
  if u < 36 then { group := 8, unit := u } else if u < 72 then { group := 10, unit := u - 36 }
  else if u < 81 then { group := 12, unit := u - 72 } else if u < 97 then { group := 13, unit := u - 27 }
  else { group := 13, unit := u - 97 }

/-- The self-check cause of a kind (R613). -/
def selfCheck (u : Nat) : Nat := if u < 36 then 256 else if u < 72 then 334 else if u < 81 then 388 else 416

/-- Sets a unit's step in Plumb and in its own register. -/
def State.setStep (s : State) (u f : Nat) : State :=
  let s1 := s.updUnit u (fun x => { x with step := f })
  match unitEngine u with
  | some (.render, n) => s1.updRnd n (fun r => { r with fstep := f })
  | some (.lath, n) => s1.updLath n (fun e => { e with fstep := f })
  | some (.hawk, n) => s1.updHawk n (fun e => { e with fstep := f })
  | _ =>
    match unitCore u with
    | some c => s1.updCore c (fun e => { e with fstep := f })
    | none => s1

/-- R554: the clock generator of a drained unit has locked one step lower, and the unit returns to service. The derate
is recorded and reported (R616). -/
def execClockRelock (u : Nat) (s : State) : Host.Outcome State Fault Refusal :=
  match s.activeEnt u with
  | none => .next s
  | some t =>
    if t.purpose = .derate ∧ (s.unit u).st = .test then
      let f := min 2 ((s.unit u).step + 1)
      let s1 := ((s.setStep u f).dropActive u).endDrain u
      let s2 := s1.planUnit u (fun p => { p with step := f, tDerate := (s.bkp.rtc >>> 15).setWidth 32 })
      let s3 := (s2.devLogOther (BitVec.ofNat 16 u) (unitDetail u 1 1 0)).devStatus
      let s4 := { s3 with plb := { s3.plb with derated := s3.plb.derated + 1, toDerate := s3.plb.toDerate.filter (fun v => v != u) } }
      .next (s4.goPlan.serveQueue)
    else .next s

/-! ## Known-answer tests (R612, R613) -/

/-- The result of a test or measurement in PLB_TESTQ. -/
def State.putResult (s : State) (u res vec : Nat) : State :=
  { s with plb := { s.plb with lastUnit := u, lastResult := res, lastVector := vec } }

/-- The known-answer entries of a unit leave the queue. -/
def State.dropKats (s : State) (u : Nat) : State :=
  { s with plb := { s.plb with testq := s.plb.testq.filter (fun t => !(t.unit == u && t.purpose == .kat)) } }

/-- Writes the device-log record of a late result (R612). -/
def State.lateLog (s : State) (u action vec : Nat) (es : List TestEnt) : State :=
  if es.any (fun t => t.late) then s.devLogOther (BitVec.ofNat 16 u) (unitDetail u action 3 vec) else s

/-- A failed test while the unit's RETRY record is open is a further occurrence (R521): the third one within the window
is permanent, and the unit is retired; otherwise it is tested again. -/
def State.failAgain (s : State) (r : Rec) (u : Nat) : State :=
  let s1 := s.countOcc r.who
  if 3 ≤ s1.recentOcc r.who then
    let r1 : Rec := { r with rank := 3, perm := true, merges := min 255 (r.merges + 1), last := s.clk }
    let s2 := ({ s1 with scr := { s1.scr with recs := s1.scr.recs.map (fun (x : Rec) => if x.rid = r.rid then r1 else x) } }).evqUpdate r1
    (s2.retireFor r.who 2).closeIfDone r.rid
  else s1.resetForTest u

/-- R613: a unit's known-answer test ends. `fail` is the first vector that did not match. -/
def execKatDone (u : Nat) (fail : Option (BitVec 6)) (s : State) : Host.Outcome State Fault Refusal :=
  let es := s.plb.testq.filter (fun t => t.unit == u && t.purpose == .kat)
  let ws := es.flatMap (fun t => t.waiters)
  if (s.unit u).st ≠ .test ∨ es.any (fun t => t.active) = false then .next s
  else
    match fail with
    | none =>
      let s1 := (s.dropKats u).putResult u 1 0
      let s2 := answerWaiters stOk 0 ws (s1.lateLog u 3 0 es)
      let s3 := (s2.endDrain u).closeRetry (recUnit u)
      let s4 := s3.fixRunning.serveQueue
      .next (if u < 36 then s4.dispatchAll.flowAll else s4)
    | some v =>
      let s1 := (s.dropKats u).putResult u 2 v.toNat
      let s2 := (answerWaiters stSigFault v.toNat ws (s1.lateLog u 4 v.toNat es)).fixRunning
      match s2.scr.recs.find? (fun r => r.who == recUnit u && r.rank == 2) with
      | some r => .next (s2.failAgain r u).serveQueue
      | none => .next (s2.report (selfCheck u) (recUnit u).unit).serveQueue

/-- R612: the waiting `eng.kat` commands of a unit that has not drained within 1 s complete with ST_ABORTED, DETAIL 5;
its entry stays. -/
def execEngKatTimeout (u : Nat) (s : State) : Host.Outcome State Fault Refusal :=
  let s0 := s.serveQueue
  let es := s0.plb.testq.filter (fun t => t.unit == u && t.purpose == .kat)
  if (s0.unit u).st = .test ∧ es.any (fun t => t.active) = true then .next s0
  else
    let ws := es.flatMap (fun t => t.waiters)
    let s1 := { s0 with plb := { s0.plb with testq := s0.plb.testq.map (fun t =>
      if t.unit = u ∧ t.purpose = .kat then { t with waiters := [], late := t.late || !t.waiters.isEmpty } else t) } }
    .next (serveBad 300 (answerWaiters stAborted 5 ws s1))

/-! ## Measurements and the daily cycle (R604, R610, R615) -/

/-- A drained reading is outside 25-105 °C, or its sweep was paused (R605, R614): it is discarded and taken again. -/
def execDrainedMeasurementDone (u : Nat) (slack temp : Int) (s : State) : Host.Outcome State Fault Refusal :=
  match s.activeEnt u with
  | none => .next s
  | some t =>
    if t.purpose ≠ .measure ∨ (s.unit u).st ≠ .test then .next s
    else
      let s1 := if tempOk temp then (s.putDrained u slack temp).putResult u 1 0 else s
      let s2 := if tempOk temp then s1.dropActive u
        else { s1 with plb := { s1.plb with testq := (s1.plb.testq.filter (fun x => !(x.unit == u && x.active))) ++
          [{ t with active := false }] } }
      .next (planLoop 3 ((s2.endDrain u).fixRunning.serveQueue))

/-- Units that a daily cycle measures: all that are not retired, other than the Quad Sponge cores. A unit that holds a
place of its own already takes no second one (R612). -/
def State.toMeasure (s : State) : List Nat :=
  ((List.range 97).filter (fun u => (s.unit u).st != .retired)).filter (fun u =>
    s.plb.testq.all (fun t => !(t.unit == u && t.own)))

def ageOut (s : State) : State :=
  { s with plb := { s.plb with units := Tbl.map {} (fun _ (x : PUnit) =>
      if x.drainedAt.toNat + secTicks 172800 ≤ s.clk.toNat then { x with hasDrained := false } else x) s.plb.units } }

/-- R615: a daily cycle falls due. -/
def State.startCycle (s : State) : State :=
  if s.plb.cycle then s
  else
    let s1 := ageOut s
    let ents : List TestEnt := s1.toMeasure.map (fun u => { unit := u, purpose := .measure, own := true })
    planLoop 3 ({ s1 with plb := { s1.plb with cycle := true, testq := s1.plb.testq ++ ents } }).serveQueue

/-- It starts only while the device runs: in DUSTSHEET it waits for the next READY. -/
def execDailyCycle (s : State) : Host.Outcome State Fault Refusal :=
  if s.boot.step = 12 ∧ s.mbx.undercoat = false ∧ (s.pwr.st = .run ∨ s.pwr.st = .idle) then .next s.startCycle
  else .next s

/-- R615: an hour into the cycle, the measurements whose units could not be spared are dropped. -/
def execCycleWaitExpiry (s : State) : Host.Outcome State Fault Refusal :=
  if s.plb.cycle then
    let l := s.plb.testq.filter (fun t => !(t.purpose == .measure && !t.active))
    .next (planLoop 3 { s with plb := { s.plb with testq := l } })
  else .next s

/-- A reading of die monitor `m` (R603, R604): it is shown in PLB_DIEm and takes no part in the plan. -/
def State.putDie (s : State) (m : Nat) (slack temp : Int) : State :=
  { s with plb := { s.plb with dies := Tbl.upd {} s.plb.dies m (fun d =>
      let old : Bool := d.has && decide (s.clk.toNat < d.insituAt.toNat + secTicks 86400)
      if old = true ∧ d.insitu ≤ slack then { d with temp := temp, last := slack }
      else { temp := temp, last := slack, insitu := slack, insituAt := s.clk, has := true }) } }

/-- R610: an in-situ reading below 15 ps after correction names its unit and starts an immediate re-plan. `u` from 151 on is
die monitor `u - 151` (log entry 120). -/
def execPlbMarginLow (u : Nat) (slack temp : Int) (s : State) : Host.Outcome State Fault Refusal :=
  if 151 ≤ u ∧ u < 183 then .next (if s.boot.step = 12 then s.putDie (u - 151) slack temp else s)
  else if 183 ≤ u ∨ (s.unit u).st = .retired ∨ s.boot.step ≠ 12 then .next s
  else
    let s1 := s.putInsitu u slack temp
    if tempOk temp ∧ s105 slack temp < 15 then .next (s1.report 608 u).askPlan else .next s1

/-- R607: 10 s after a re-plan, a unit still above 850 mV is re-planned. -/
def execReplanRetry (s : State) : Host.Outcome State Fault Refusal :=
  if s.plb.retryDue then .next ({ s with plb := { s.plb with retryDue := false } }).askPlan else .next s

/-! ## The commands -/

/-- The unit that `kind` and `index` name (R603). -/
def engArg (kind idx : Nat) : Except Err Nat :=
  if kind < 1 ∨ 5 < kind then .error (stBadArg, 16)
  else match unitOf kind idx with
    | none => .error (stBadArg, 17)
    | some u => .ok u

/-- An i16 as two bytes. -/
def i16 (x : Int) : Nat := (x % 65536).toNat

/-- `eng.status` (R603). -/
def execEngStatus (h : Hdr) (kind idx : Nat) (s : State) : Host.Outcome State Fault Refusal :=
  .next (s.run h { smb := true, basic := true, len := 2, lenX := 2 } (fun x =>
    match engArg kind idx with
    | .error e => .err e
    | .ok u =>
      let y := x.unit u
      .ok x (pack [.u 1 y.st.code, .u 1 y.step, .u 2 (i16 (if 97 ≤ u then y.insitu else y.drained))])))

/-- `eng.retire` (R616): a unit that drains is retired when its drain ends. -/
def execEngRetire (h : Hdr) (kind idx : Nat) (s : State) : Host.Outcome State Fault Refusal :=
  .next (s.run h { expertOnly := true, lenX := 2 } (fun x =>
    match engArg kind idx with
    | .error e => .err e
    | .ok u =>
      if (x.unit u).st = .retired then .err (stBadArg, 17)
      else
        let x1 := if (x.unit u).st = .draining then x.updUnit u (fun y => { y with retireDue := true })
          else if 97 ≤ u then x.retireQuadCore (u - 97) 3 else x.retireUnit u 3
        .ok x1 [BitVec.ofNat 8 (sparesOf x1 u).length]))

/-- `eng.kat` entries in the test queue (R612). -/
def State.requested (s : State) : Nat := (s.plb.testq.filter (fun t => t.purpose == .kat && !t.own)).length

/-- `eng.kat` (R612): the request joins the queued entry of its unit or takes a place of its own. -/
def execEngKat (h : Hdr) (kind idx : Nat) (s : State) : Host.Outcome State Fault Refusal :=
  .next (s.run h { len := 2, lenX := 2 } (fun x =>
    match engArg kind idx, h.iss with
    | .error e, _ => .err e
    | .ok u, .pf n =>
      let isKat := fun (t : TestEnt) => t.unit == u && t.purpose == .kat
      if (x.unit u).st = .retired then .err (stNoEngine, kind)
      else if x.plb.testq.any isKat then
        .wait { x with plb := { x.plb with testq := x.plb.testq.map (fun t =>
          if isKat t then { t with waiters := t.waiters ++ [(n, h.seq)] } else t) } }
      else if 64 ≤ x.requested then .err (stAborted, 5)
      else .wait ({ x with plb := { x.plb with testq := x.plb.testq ++
        [({ unit := u, waiters := [(n, h.seq)] } : TestEnt)] } }).serveQueue
    | .ok _, _ => .err (stNotPermitted, 0)))

/-- `eng.margin` (R615): a re-plan from the readings held now. One that runs already answers it. -/
def execEngMargin (h : Hdr) (s : State) : Host.Outcome State Fault Refusal :=
  .next (s.run h {} (fun x =>
    match h.iss with
    | .pf n =>
      let x1 := { x with plb := { x.plb with waitMargin := some (n, h.seq) } }
      .wait (if x.plb.phase = 0 then x1.beginPlan false else x1)
    | _ => .err (stNotPermitted, 0)))

/-! ## Capacity (R616) -/

/-- Capacity of units `lo` to `lo + n - 1` in per-mille of `nominal` units: the sum of f / 1.6 GHz over the units in
service; a unit that drains or is under test for a while still counts as in service. -/
def State.capacity (s : State) (lo n nominal : Nat) : Nat :=
  let f := fun (u : Nat) =>
    let x := s.unit u
    let inS : Bool := x.st == .inService || ((x.st == .draining || x.st == .test) && x.back == .inService)
    if inS then 8 - x.step else 0
  min 1000 (((List.range n).foldl (fun a i => a + f (lo + i)) 0) * 1000 / (8 * nominal))

end Sys2Proof.Machine
end

