-- ==== Sys2Proof/Machine/Power.lean ====
section
/-!
DEFINITION. Float's grants and revokes as the engines see them (R556-R566), thermal and rail events, clock losses, the
PMBus commands and telemetry (R551, R552), IDLE (R569), and the `pwr` commands.
-/
namespace Sys2Proof.Machine

/-! ## Grants (R234, R561) -/

/-- The engine kind and index of a holder of a job grant. -/
def Holder.engine (h : Holder) : Option (EKind × Nat) :=
  match h.kind with
  | .standing => none
  | .renderLa => some (.render, h.idx)
  | .lath => some (.lath, h.idx)
  | .hawk => some (.hawk, h.idx)
  | .sponge => if h.idx < 8 then some (.keccak, h.idx) else some (.sha2, h.idx - 8)

/-- The job that a holder's grant is for. -/
def State.jobOf (s : State) (h : Holder) : Option Job :=
  match h.engine with
  | some (k, n) => s.jobOn k n
  | none => none

/-- A pool core takes up the work of its job. -/
def State.startCore (s : State) (c : Nat) (j : Job) : State :=
  s.updCore c (fun e => { e with
    st := if j.shares = 1 then 1 else 2, shares := j.shares - 1, alg := BitVec.ofNat 8 (if j.desc.op = 0x64 then kdfAlg j.desc.alg else j.desc.alg),
    cls := if j.cls = horrovCls then 0 else j.cls, job := some j.id })

/-- The engine of a job starts, for the first time or again (R234). -/
def State.startOn (s : State) (j : Job) : State :=
  let s1 := s.updJob j.id (fun x =>
    { x with st := .running, started := true, tStart := if x.started then x.tStart else s.clk })
  match j.kind with
  | .lath => s1.beginLath j
  | .hawk => s1.updHawk j.engine (fun e => { e with tStart := s.clk })
  | .keccak => s1.startCore j.engine j
  | .sha2 => s1.startCore (8 + j.engine) j
  | .render => s1

/-- The Hawk part of a hybrid job takes its transient slot before it starts, owned by Horrov (R304). -/
def State.takeTransient (s : State) (j : Job) : Option State :=
  if j.desc.isHybrid ∧ j.part = 0 ∧ j.transient = none then
    match s.allocKey { usage := .derive, fn := 0, level := j.level, origin := .system, data := List.replicate 64 0 } with
    | (some k, s1) => some (s1.updJob j.id (fun x => { x with transient := some k }))
    | (none, _) => none
  else some s

/-- What a grant does: a pair's standing grant completes its `port.enable` and lets it forward; a job starts, or goes on
from the cycle at which it was paused. -/
def State.granted (s : State) (r : FReq) : State :=
  if r.who.kind = .standing then (s.checkEnables).dispatchAll.flowAll
  else
    match s.jobOf r.who with
    | none => { s with flt := s.flt.release r.who }
    | some j =>
      match j.st with
      | .paused =>
        let s1 := s.updJob j.id (fun x => { x with st := .running })
        if j.kind = .lath then s1.updLath j.engine (fun e => { e with running := true }) else s1
      | .assigned =>
        match s.takeTransient j with
        | some s1 => s1.startOn j
        | none => (({ s with bnd := { s.bnd with fullCnt := satInc s.bnd.fullCnt } }).failJob j.id stBondFull 0)
      | _ => s

/-- R561: Float grants the first request whose kind is within its cap, once free holds it. -/
def execFloatGrant (s : State) : Host.Outcome State Fault Refusal :=
  match s.flt.nextReq s.flt.reqs with
  | none => .next s
  | some r =>
    if r.size ≤ s.flt.free then .next (({ s with flt := s.flt.give r }).granted r)
    else .next s

/-- R563: the holder of a revoked grant has stopped its clock. Its job is paused; an abort that it carries borrows the
WIPE reserve (R562). -/
def execRevokeAck (h : Holder) (s : State) : Host.Outcome State Fault Refusal :=
  if s.flt.grants.any (fun g => g.who == h && g.revoked) then
    let s1 := { s with flt := s.flt.ack h }
    match s1.jobOf h with
    | none => .next s1
    | some j =>
      if j.st = .running then
        let s2 := s1.updJob j.id (fun x => { x with st := .paused })
        let s3 := if j.kind = .lath then s2.updLath j.engine (fun e => { e with running := false }) else s2
        .next (if j.abort.isSome then s3.serveWipe else s3)
      else .next s1
  else .next s

/-- The UNIT of a Float holder in the cause map (R543): the ENGINE field's kind and index. -/
def Holder.unit (h : Holder) : Nat :=
  match h.engine with
  | some (k, n) => 256 * k.code + k.field n
  | none => h.idx

/-- R563: a revoke has not been acknowledged within 1 µs. -/
def execFltRevokeLate (h : Holder) (s : State) : Host.Outcome State Fault Refusal :=
  if s.flt.grants.any (fun g => g.who == h && g.revoked) then .next (s.report 577 h.unit) else .next s

/-- R564: FLT_LIMIT_N falls. -/
def execFltLimitAssert (s : State) : Host.Outcome State Fault Refusal :=
  if s.flt.limit then .next s
  else
    let f := { s.flt with limit := true, limitCnt := satInc s.flt.limitCnt }
    .next (({ s with flt := f.fall }).report 517 0)

/-- R564: FLT_LIMIT_N rises. -/
def execFltLimitDeassert (s : State) : Host.Outcome State Fault Refusal :=
  if s.flt.limit then .next { s with flt := ({ s.flt with limit := false }).settle } else .next s

/-- R566: the engine or core of a holder draws more than 25 % above its grant. -/
def execFltOverdraw (h : Holder) (s : State) : Host.Outcome State Fault Refusal :=
  if s.flt.holds h then .next (s.report 576 h.unit) else .next s

/-! ## Temperature, rails and clocks -/

/-- The compute die runs, so that its sensors and its Scrim work. -/
def State.computeOn (s : State) : Bool :=
  s.pwr.st == .run || s.pwr.st == .idle || s.pwr.st == .dustEntry

def State.thermalCap (s : State) : State :=
  if s.flt.thermal then s else { s with flt := ({ s.flt with thermal := true }).fall }

/-- R565: a compute-die sensor reads above 105 °C. -/
def execTjWarn (s : State) : Host.Outcome State Fault Refusal :=
  if s.computeOn = false ∨ s.flt.thermal = true then .next s else .next (s.thermalCap.reportHeld 515 0)

/-- R565: a sensor reads above 125 °C: HALT. -/
def execTjCrit (s : State) : Host.Outcome State Fault Refusal :=
  if s.computeOn then .next (s.thermalCap.reportHeld 516 0) else .next s

/-- R565: every sensor reads 100 °C or below. -/
def execThermalCapLift (s : State) : Host.Outcome State Fault Refusal :=
  if s.flt.thermal then
    .next ((({ s with flt := ({ s.flt with thermal := false }).settle }).assertCause 515 0 false).assertCause 516 0 false)
  else .next s

/-- R550: a VCORE phase is switched out. -/
def execPhaseFault (s : State) : Host.Outcome State Fault Refusal :=
  if s.computeOn = false ∨ s.pwr.phases = 0 then .next s
  else
    let n := s.pwr.phases - 1
    let s0 := { s with pwr := { s.pwr with phases := n } }
    let s1 := s0.report 514 0
    .next (if n < 22 then s1.capPhases.devStatus else s1)

/-- R548: a rail has stayed outside ±5 % of its set point for 10 µs. -/
def execRailOor (page : Nat) (s : State) : Host.Outcome State Fault Refusal :=
  if s.computeOn = true ∧ page ≤ 6 then .next (s.reportHeld 513 page) else .next s

/-- R556: REFCLK_CORE is lost, or the root PLL loses lock. `refclk` tells which. -/
def execRootUnlock (refclk : Bool) (s : State) : Host.Outcome State Fault Refusal :=
  if s.computeOn then
    .next (({ s with pwr := { s.pwr with rootLock := false, refclkOk := s.pwr.refclkOk && !refclk } }).reportHeld 544 0)
  else .next s

/-- Sub-ports of port `p` that are not disabled go to LOCAL_FAULT (R556). -/
def State.faultPort (s : State) (p : Nat) : State :=
  (setSubs p (fun x => if x.st = .disabled then x else { x with st := .localFault }) (List.range 4) s).faultsSince s (p % 8)

def faultPorts : List Nat → State → State
  | [], s => s
  | p :: t, s => faultPorts t (s.faultPort p)

/-- R556: SD_REFCLK `k` is lost: its ports go to LOCAL_FAULT. -/
def execSdUnlock (k : Nat) (s : State) : Host.Outcome State Fault Refusal :=
  if 4 ≤ k ∨ s.computeOn = false then .next s
  else
    let s1 := { s with pwr := { s.pwr with sdLock := clrBit s.pwr.sdLock k, sdRefOk := clrBit s.pwr.sdRefOk k } }
    .next ((faultPorts ((List.range 4).map (fun i => 4 * k + i)) s1).flowAll.reportHeld 545 k)

/-- R556: PCIE_REFCLK is lost and the link goes down. -/
def execPcieRefclkLoss (s : State) : Host.Outcome State Fault Refusal :=
  if s.computeOn then .next ({ s with pwr := { s.pwr with pcieRefOk := false } }).linkDown else .next s

/-! ## VIN warning (R547) -/

/-- R545, R547: VIN falls below its warning threshold. No new MRAM write starts. -/
def execVinWarn (s : State) : Host.Outcome State Fault Refusal :=
  if s.pwr.vin = false ∨ s.pwr.vinWarn = true then .next s
  else
    let s1 := { s with pwr := { s.pwr with vinWarn := true } }
    .next (if s.computeOn then s1.reportHeld 512 7 else s1)

/-- R547: VIN rises back above it: what waits resumes. -/
def execVinRecovery (s : State) : Host.Outcome State Fault Refusal :=
  if s.pwr.vinWarn then
    .next (({ s with
      pwr := { s.pwr with vinWarn := false }
      lth := { s.lth with hss := Tbl.map {} (fun _ h => { h with started := h.writing.isSome }) s.lth.hss } }).assertCause
        512 7 false).startCommit
  else .next s

/-! ## IDLE (R569) -/

/-- A mailbox command is running. -/
def State.cmdRunning (s : State) : Bool :=
  s.mbx.running != 0 || s.mbx.vfs.any (fun kv => kv.2.slot.st == .running) || s.mbx.smbState == 1

/-- R569: 100 µs have passed with no pair enabled, no dispatched job that has not ended and no running command. -/
def execIdleEntry (s : State) : Host.Outcome State Fault Refusal :=
  if s.pwr.st = .run ∧ s.boot.step = 12 ∧ s.mbx.undercoat = false ∧
      (List.range 8).all (fun n => !(s.pair n).enabled) = true ∧
      s.que.jobs.all (fun j => j.st == .ended) = true ∧ s.cmdRunning = false then
    .next { s with pwr := { s.pwr with st := .idle } }
  else .next s

/-! ## Telemetry and PMBus (R551, R552) -/

/-- Milliamperes that a rail carries at most (R548). -/
def railMax : Nat → Nat
  | 0 => 220000
  | 1 => 30000
  | 2 => 40000
  | 3 => 12000
  | 4 => 3000
  | 5 => 4000
  | _ => 20

/-- A Linear11 word in thousandths: an 11-bit mantissa and a 5-bit exponent, both signed. -/
def lin11 (w : W16) : Int :=
  let m : Int := (w.setWidth 11).toInt
  let e : Int := ((w >>> 11).setWidth 5).toInt
  if 0 ≤ e then m * 1000 * (2 ^ e.toNat : Nat) else m * 1000 / (2 ^ (-e).toNat : Nat)

/-- The warning limits in force, in thousandths: written, or the defaults of R551 (the overcurrent default is the rail's
maximum, log entry 38). -/
def Rail.ocLimit (r : Rail) (page : Nat) : Int := (r.ocWarn.map lin11).getD (railMax page)
def Rail.otLimit (r : Rail) : Int := (r.otWarn.map lin11).getD 110000
def Pwr.ovLimit (p : Pwr) : Int := (p.vinOvWarn.map lin11).getD 40000
def Pwr.uvLimit (p : Pwr) : Int := (p.vinUvWarn.map lin11).getD 5800

/-- Conditions of the status bits of a page, on its present means (R552). The bits stand as PMBus 1.4 numbers them (log
entry 39): IOUT_OC_WARNING 5, OT_WARNING 6, VIN_OV_WARNING 6, VIN_UV_WARNING 5. -/
def State.iotCond (s : State) (page : Nat) : Byte :=
  if (s.rail page).ocLimit page < ((s.rail page).ma : Int) then 0x20 else 0
def State.tempCond (s : State) (page : Nat) : Byte := if (s.rail page).otLimit < 100 * (s.rail page).dc then 0x40 else 0
def State.inputCond (s : State) : Byte :=
  (if s.pwr.ovLimit < (s.pwr.vinMv : Int) then 0x40 else 0) ||| (if (s.pwr.vinMv : Int) < s.pwr.uvLimit then 0x20 else 0)

/-- Sets a page's status bits: a crossing asserts ALERT_N and raises PMBUS_LIMIT. -/
def State.checkLimits (s : State) (page : Nat) : State :=
  let r := s.rail page
  let iot := if page ≤ 6 then r.stIout ||| s.iotCond page else r.stIout
  let tmp := if page ≤ 6 then r.stTemp ||| s.tempCond page else r.stTemp
  let inp := if page = 7 then s.pwr.stInput ||| s.inputCond else s.pwr.stInput
  if iot = r.stIout ∧ tmp = r.stTemp ∧ inp = s.pwr.stInput then s
  else
    let s1 := (s.updRail page (fun x => { x with stIout := iot, stTemp := tmp }))
    let s2 := { s1 with pwr := { s1.pwr with stInput := inp, alert := true } }
    if s.computeOn then s2.report 518 page else s2

/-- R552: the means of a page over the last 1 ms. Page 7 is the input, with the controller's temperature. -/
def execTelemetrySample (page mv ma : Nat) (dc : Int) (s : State) : Host.Outcome State Fault Refusal :=
  if 7 < page ∨ s.pwr.vin = false then .next s
  else
    let s1 := s.updRail page (fun r => { r with mv := mv, ma := ma, dc := dc })
    let s2 := if page = 7 then { s1 with pwr := { s1.pwr with vinMv := mv, vinMa := ma } }
      else if page = 0 then { s1 with pwr := { s1.pwr with vcoreMeas := mv } } else s1
    .next (s2.checkLimits page)

/-- The controller answers PMBus commands while VIN is present (R551); in DUSTSHEET only three of them (R572). -/
def State.pmOn (s : State) (inDust : Bool) : Bool := s.pwr.vin && (inDust || s.pwr.st != .dustsheet)

def State.pmAnswer (s : State) (b : List Byte) : State := s.emit (.smbus b)

/-- Data that a command does not accept, or a wrong packet error code (R141): nothing else happens, and CML is set (log entry
39). -/
def State.pmBad (s : State) : State := ({ s with pwr := { s.pwr with cml := true } }).emit .smbusNack

/-- A read-only command: a write is not acknowledged at its first data byte. -/
def State.pmRead (s : State) (op : PmOp) (inDust : Bool) (pages : List Nat) (b : List Byte) : State :=
  if s.pmOn inDust then
    match op with
    | .badPec => s.pmBad
    | .write _ => s.emit .smbusNack
    | .read => if pages.contains s.pwr.page.toNat then s.pmAnswer b else s.pmBad
  else s.emit .smbusNack

def word (w : W16) : List Byte := leBytes 2 w.toNat
def lin (x : Int) : List Byte := word (Config.linear11 x)
def rails : List Nat := [0, 1, 2, 3, 4, 5, 6]
def allPages : List Nat := [0, 1, 2, 3, 4, 5, 6, 7]

/-- A limit: a read of the word, or a write of one in its range. -/
def State.pmLimit (s : State) (op : PmOp) (pages : List Nat) (cur : Int) (raw : Option W16) (lo hi : Int)
    (set : W16 → State) : State :=
  if s.pmOn false then
    if pages.contains s.pwr.page.toNat then
      match op with
      | .badPec => s.pmBad
      | .read => s.pmAnswer (match raw with
        | some w => word w
        | none => lin cur)
      | .write w => if lo ≤ lin11 w ∧ lin11 w ≤ hi then (set w).checkLimits s.pwr.page.toNat else s.pmBad
    else s.pmBad
  else s.emit .smbusNack

/-- PAGE: 0-7, and 0xFF for CLEAR_FAULTS. -/
def execPmbusPage (op : PmOp) (s : State) : Host.Outcome State Fault Refusal :=
  if s.pmOn false then
    match op with
    | .badPec => .next s.pmBad
    | .read => .next (s.pmAnswer [s.pwr.page])
    | .write d =>
      let p : Byte := d.setWidth 8
      if p.toNat ≤ 7 ∨ p = 0xFF then .next { s with pwr := { s.pwr with page := p } } else .next s.pmBad
  else .next (s.emit .smbusNack)

def execOperation (op : PmOp) (s : State) : Host.Outcome State Fault Refusal :=
  .next (s.pmRead op false (255 :: allPages) [0x80])

/-- Clears the status bits of a page whose condition has ended. -/
def State.clearPage (s : State) (page : Nat) : State :=
  let s1 := s.updRail page (fun x => { x with stIout := x.stIout &&& s.iotCond page, stTemp := x.stTemp &&& s.tempCond page })
  if page = 7 then { s1 with pwr := { s1.pwr with stInput := s.pwr.stInput &&& s.inputCond } } else s1

def clearPages : List Nat → State → State
  | [], s => s
  | p :: t, s => clearPages t (s.clearPage p)

/-- CLEAR_FAULTS, of the page or of every page (R551). A read is not acknowledged. -/
def execClearFaults (op : PmOp) (s : State) : Host.Outcome State Fault Refusal :=
  if s.pmOn false then
    match op with
    | .badPec => .next s.pmBad
    | .read => .next (s.emit .smbusNack)
    | .write _ =>
      let s1 := { s with pwr := { s.pwr with cml := false } }
      .next (if s.pwr.page = 0xFF then clearPages allPages s1 else s1.clearPage s.pwr.page.toNat)
  else .next (s.emit .smbusNack)

def execCapability (op : PmOp) (s : State) : Host.Outcome State Fault Refusal :=
  .next (s.pmRead op false (255 :: allPages) [0xD0])

def execVoutMode (op : PmOp) (s : State) : Host.Outcome State Fault Refusal :=
  .next (s.pmRead op false (255 :: allPages) [0x14])

def State.putOc (s : State) (w : W16) : State := s.updRail s.pwr.page.toNat (fun r => { r with ocWarn := some w })
def State.putOt (s : State) (w : W16) : State := s.updRail s.pwr.page.toNat (fun r => { r with otWarn := some w })

def execIoutOcWarnLimit (op : PmOp) (s : State) : Host.Outcome State Fault Refusal :=
  let p := s.pwr.page.toNat
  let r := s.rail p
  .next (s.pmLimit op rails (r.ocLimit p) r.ocWarn 0 (railMax p) s.putOc)

def execOtWarnLimit (op : PmOp) (s : State) : Host.Outcome State Fault Refusal :=
  let r := s.rail s.pwr.page.toNat
  .next (s.pmLimit op rails r.otLimit r.otWarn 60000 120000 s.putOt)

def State.putOv (s : State) (w : W16) : State := { s with pwr := { s.pwr with vinOvWarn := some w } }
def State.putUv (s : State) (w : W16) : State := { s with pwr := { s.pwr with vinUvWarn := some w } }

def execVinOvWarnLimit (op : PmOp) (s : State) : Host.Outcome State Fault Refusal :=
  .next (s.pmLimit op [7] s.pwr.ovLimit s.pwr.vinOvWarn 20000 41000 s.putOv)

def execVinUvWarnLimit (op : PmOp) (s : State) : Host.Outcome State Fault Refusal :=
  .next (s.pmLimit op [7] s.pwr.uvLimit s.pwr.vinUvWarn 5700 12000 s.putUv)

/-- The status bytes of a page. -/
def State.pmIout (s : State) (p : Nat) : Byte := (s.rail p).stIout
def State.pmTemp (s : State) (p : Nat) : Byte := (s.rail p).stTemp
def State.pmVout (s : State) (p : Nat) : Byte := (s.rail p).stVout
def State.pmInput (s : State) (p : Nat) : Byte := if p = 7 then s.pwr.stInput else 0

/-- STATUS_MFR_SPECIFIC: bit 7 FLT_LIMIT, bit 6 the stopped state of R577, bits 5:0 the last failed step. -/
def State.pmMfr (s : State) : Byte :=
  (if s.flt.limit then 0x80 else 0) ||| (if s.pwr.st = .stopped then 0x40 else 0) ||| (s.pwr.lastFail &&& 0x3F)

/-- STATUS_BYTE and STATUS_WORD as PMBus 1.4 forms them from the others (log entry 39). -/
def State.pmStatus (s : State) : W16 :=
  let p := s.pwr.page.toNat
  let b := fun (c : Bool) (n : Nat) => if c then 2 ^ n else 0
  let hi := b (s.pmVout p != 0) 15 + b (s.pmIout p != 0) 14 + b (s.pmInput p != 0) 13 + b (s.pmMfr != 0) 12
  let lo := b (s.pmTemp p != 0) 2 + b s.pwr.cml 1
  BitVec.ofNat 16 (hi + lo + b (hi != 0) 0)

def execStatusByte (op : PmOp) (s : State) : Host.Outcome State Fault Refusal :=
  .next (s.pmRead op false allPages [s.pmStatus.setWidth 8])

def execStatusWord (op : PmOp) (s : State) : Host.Outcome State Fault Refusal :=
  .next (s.pmRead op true allPages (word s.pmStatus))

def execStatusVout (op : PmOp) (s : State) : Host.Outcome State Fault Refusal :=
  .next (s.pmRead op false allPages [s.pmVout s.pwr.page.toNat])

def execStatusIout (op : PmOp) (s : State) : Host.Outcome State Fault Refusal :=
  .next (s.pmRead op false allPages [s.pmIout s.pwr.page.toNat])

def execStatusInput (op : PmOp) (s : State) : Host.Outcome State Fault Refusal :=
  .next (s.pmRead op false allPages [s.pmInput s.pwr.page.toNat])

def execStatusTemperature (op : PmOp) (s : State) : Host.Outcome State Fault Refusal :=
  .next (s.pmRead op false allPages [s.pmTemp s.pwr.page.toNat])

def execStatusMfrSpecific (op : PmOp) (s : State) : Host.Outcome State Fault Refusal :=
  .next (s.pmRead op false allPages [s.pmMfr])

def execReadVin (op : PmOp) (s : State) : Host.Outcome State Fault Refusal :=
  .next (s.pmRead op true allPages (lin s.pwr.vinMv))

def execReadIin (op : PmOp) (s : State) : Host.Outcome State Fault Refusal :=
  .next (s.pmRead op false allPages (lin s.pwr.vinMa))

/-- READ_VOUT: Linear16 with exponent −12, rounded down. -/
def execReadVout (op : PmOp) (s : State) : Host.Outcome State Fault Refusal :=
  .next (s.pmRead op false rails (leBytes 2 ((s.rail s.pwr.page.toNat).mv * 4096 / 1000)))

def execReadIout (op : PmOp) (s : State) : Host.Outcome State Fault Refusal :=
  .next (s.pmRead op false rails (lin (s.rail s.pwr.page.toNat).ma))

def execReadTemperature1 (op : PmOp) (s : State) : Host.Outcome State Fault Refusal :=
  .next (s.pmRead op true allPages (lin (100 * (s.rail s.pwr.page.toNat).dc)))

def execReadPout (op : PmOp) (s : State) : Host.Outcome State Fault Refusal :=
  let r := s.rail s.pwr.page.toNat
  .next (s.pmRead op false rails (lin ((r.mv * r.ma / 1000 : Nat))))

def execReadPin (op : PmOp) (s : State) : Host.Outcome State Fault Refusal :=
  .next (s.pmRead op false [7] (lin ((s.pwr.vinMv * s.pwr.vinMa / 1000 : Nat))))

def execPmbusRevision (op : PmOp) (s : State) : Host.Outcome State Fault Refusal :=
  .next (s.pmRead op false (255 :: allPages) [0x44])

/-- A block read: the number of bytes and the bytes. -/
def block (t : String) : List Byte := BitVec.ofNat 8 t.length :: ascii t

def execMfrId (op : PmOp) (s : State) : Host.Outcome State Fault Refusal :=
  .next (s.pmRead op false (255 :: allPages) (block "OROZAR"))

def execMfrModel (op : PmOp) (s : State) : Host.Outcome State Fault Refusal :=
  .next (s.pmRead op false (255 :: allPages) (block "FQ6400-B2209"))

/-- Some status bit remains set. -/
def State.pmAny (s : State) : Bool :=
  s.pwr.cml || s.pwr.stInput != 0 || allPages.any (fun p => s.pmIout p != 0 || s.pmTemp p != 0 || s.pmVout p != 0)

/-- R552: a read of the Alert Response Address. The device answers with its own address while it asserts ALERT_N, and
releases it once no status bit remains set. -/
def execAlertResponse (s : State) : Host.Outcome State Fault Refusal :=
  if s.pwr.vin = true ∧ s.pwr.alert = true then
    .next (({ s with pwr := { s.pwr with alert := s.pmAny } }).emit (.smbus [s.otp.smbAddr ++ (0 : BitVec 1)]))
  else .next s

/-! ## The commands -/

/-- One rail of `pwr.telemetry`. -/
def State.railRes (s : State) (n : Nat) : List Fld :=
  let r := s.rail n
  [.u 2 r.mv, .u 4 r.ma, .u 2 (i16 r.dc)]

/-- `pwr.telemetry` (R552): rails 0-7, or all of them. -/
def execPwrTelemetry (h : Hdr) (rail : Nat) (s : State) : Host.Outcome State Fault Refusal :=
  .next (s.run h { smb := true, basic := true, len := 1, lenX := 1 } (fun x =>
    if rail = 0xFF then .ok x (pack (allPages.flatMap x.railRes))
    else if rail ≤ 7 then .ok x (pack (x.railRes rail))
    else .err (stBadArg, 16)))

/-- `pwr.state` (R570): the entry begins after the response and passes AP0 (R571). -/
def execPwrState (h : Hdr) (profile target ms : Nat) (s : State) : Host.Outcome State Fault Refusal :=
  .next (s.run h { len := 1, lenX := 8 } (fun x =>
    let arg : Option Err :=
      if h.level = 1 then
        (if target ≠ 2 then some (stBadArg, 16) else if ms < 100 ∨ 3600000 < ms then some (stBadArg, 20) else none)
      else if profile = 0 then none else some (stBadArg, 16)
    match arg with
    | some e => .err e
    | none =>
      if (List.range 8).any (fun n => (x.pair n).enabled) then .err (stPortState, 0)
      else if x.mbx.txn.isSome then .err (stTxnOpen, 0)
      else if x.lcy.pending then .err (stLifecycle, x.lcy.st)
      else .ok { x with pwr := { x.pwr with
        st := .dustEntry, ap := 0, dustMs := if h.level = 1 then ms else 1000, wakes := 0 } } []))

/-- A wake source is present. It counts in DUSTSHEET and during an entry. -/
def State.wake (s : State) (b : Nat) : State :=
  if s.pwr.st = .dustEntry ∨ s.pwr.st = .dustsheet then
    { s with pwr := { s.pwr with wakes := setBit s.pwr.wakes b } }
  else s

/-- `pwr.wake` (R574): 0 disarms; an alarm that has passed fires at once, which in RUN only disarms it. -/
def execPwrWake (h : Hdr) (alarm : W64) (s : State) : Host.Outcome State Fault Refusal :=
  .next (s.run h { len := 8, lenX := 8 } (fun x =>
    let past : Bool := decide (alarm.toNat ≤ x.bkp.rtc.toNat)
    let y := { x with bkp := { x.bkp with rtcAlarm := if past then 0 else alarm } }
    .ok (if past && alarm != 0 then y.wake 0 else y) []))

/-! ## Wake sources (R573, R574) -/

/-- R573: WAKE_N held low for 10 µs. -/
def execWakeN (s : State) : Host.Outcome State Fault Refusal := .next (s.wake 1)

/-- R574: the RTC reaches the alarm. -/
def execRtcAlarm (s : State) : Host.Outcome State Fault Refusal :=
  if s.bkp.rtcAlarm = 0 then .next s
  else .next (({ s with bkp := { s.bkp with rtcAlarm := 0 } }).wake 0)

end Sys2Proof.Machine
end

