-- ==== Sys2Proof/Machine/Firmware.lean ====
section
/-!
DEFINITION. Firmware images and Putty sets (R226, R227, R588-R590), the boot record (R592), and the `fw` commands
(R595-R598).
-/
namespace Sys2Proof.Machine

/-! ## Layouts (R226, R588, R589) -/

/-- The first byte of a range that is not 0. -/
def nonZero (l : List Byte) (off n : Nat) : Option Nat :=
  ((List.range n).map (fun i => off + i)).find? (fun o => l.getD o 0 != 0)

/-- The first error offset of a list. -/
def firstOff : List (Option Nat) → Option Nat
  | [] => none
  | some o :: _ => some o
  | none :: t => firstOff t

def offIf (b : Bool) (o : Nat) : Option Nat := if b then some o else none

/-- Signers that a SIGNERS byte names. -/
def signers (b : Nat) : Nat := b % 2 + b / 2 % 2

/-- Bytes of the signature block whose header stands at `off` (R589). -/
def sigLen (l : List Byte) (off : Nat) : Nat := 16 + signers (fieldLe l (off + 4) 1) * 7412

def sigErr (l : List Byte) (off : Nat) : Option Nat :=
  firstOff [offIf (fieldLe l off 4 != 0x42535146) off, offIf (decide (3 < fieldLe l (off + 4) 1)) (off + 4),
    nonZero l (off + 5) 11]

/-- Words and matches of the Putty set at `off`, and its length without its signature block. -/
def puttyWords (l : List Byte) (off : Nat) : Nat := fieldLe l (off + 12) 2
def puttyMatches (l : List Byte) (off : Nat) : Nat := fieldLe l (off + 14) 2
def puttyBody (l : List Byte) (off : Nat) : Nat := 64 + 16 * puttyWords l off + 4 * puttyMatches l off

/-- The match entry `i` of a Putty set. -/
def puttyMatch (l : List Byte) (off i : Nat) : Nat × Nat :=
  let o := off + 64 + 16 * puttyWords l off + 4 * i
  (fieldLe l o 2, fieldLe l (o + 2) 2)

/-- The first match entry out of range. -/
def matchErr (l : List Byte) (off : Nat) : Option Nat :=
  ((List.range (puttyMatches l off)).flatMap (fun i =>
    let o := off + 64 + 16 * puttyWords l off + 4 * i
    let (r, p) := puttyMatch l off i
    (if 16384 ≤ r then [o] else []) ++ (if puttyWords l off ≤ p then [o + 2] else []))).head?

/-- The layout check of a Putty set of `n` bytes at `off` (R227): the offset of the fault. A length that does not fit the
counts is named at WORDS. -/
def puttyLayout (l : List Byte) (off n : Nat) : Option Nat :=
  if n < 80 then some off
  else
    firstOff [offIf (fieldLe l off 4 != 0x59545550) off, offIf (fieldLe l (off + 4) 4 == 0) (off + 4),
      offIf (puttyWords l off == 0 || decide (1024 < puttyWords l off) ||
        n != puttyBody l off + sigLen l (off + puttyBody l off)) (off + 12),
      offIf (decide (64 < puttyMatches l off)) (off + 14), nonZero l (off + 16) 48, matchErr l off,
      sigErr l (off + puttyBody l off)]

/-- Where the signature block of a firmware image stands. -/
def imgSig (l : List Byte) : Nat := 256 + fieldLe l 20 4 + fieldLe l 24 4

/-- The layout check of an image in `l` (R588, R590 check 1). `exact` is a command's buffer: its length is the image's. -/
def imageLayout (l : List Byte) (exact : Bool) : Option Nat :=
  let ll := fieldLe l 20 4
  let pl := fieldLe l 24 4
  let n := imgSig l + sigLen l (imgSig l)
  if l.length < 272 then some 0
  else
    firstOff [offIf (fieldLe l 0 4 != 0x57465146) 0, offIf (fieldLe l 4 2 != 1) 4, nonZero l 6 2,
      offIf (decide (ll < 4096 ∨ 8388608 < ll ∨ ll % 4096 ≠ 0 ∨ 16777216 < n ∨ l.length < n) || (exact && l.length != n)) 20,
      nonZero l 28 228, if pl = 0 then none else puttyLayout l (256 + ll) pl, sigErr l (imgSig l)]

/-! ## Signatures (R467, R589) -/

/-- The signers that the firmware of a state needs: bit 0 vendor, bit 1 owner (R467). -/
def fwSigners (st : Nat) : Nat := if st < 2 then 0 else if st = 3 then 3 else 1

/-- OWNER_PKH as a check finds it: in the active journal image, or in the anchor where no image can be read. -/
def State.ownerPkh (s : State) : W256 :=
  if s.activeJ.isSome then s.image.ownerPkh else if s.anchorValid then s.mram.anchor.ownerPkh else 0

/-- Every signer of the block at `off` verifies over the bytes from `lo` to the first signature. The vendor stands first. -/
def State.blockOk (s : State) (ctx : String) (l : List Byte) (lo off : Nat) (need : Nat) (owner : W256) : Bool :=
  let k := signers need
  let pk := fun (i : Nat) => slice l (off + 16 + 2689 * i) 2689
  let sig := fun (i : Nat) => slice l (off + 16 + 2689 * k + 4723 * i) 4723
  let body := slice l lo (off + 16 + 2689 * k - lo)
  let ok := fun (i signer : Nat) => s.sigOk ctx signer owner body (pk i) (sig i)
  match need with
  | 0 => true
  | 1 => ok 0 1
  | 2 => ok 0 2
  | _ => ok 0 1 && ok 1 2

/-- The signatures that the life-cycle state requires. -/
def State.fwSigned (s : State) (ctx : String) (l : List Byte) (lo off : Nat) : Bool :=
  let need := fwSigners s.lcy.st
  need == 0 || (fieldLe l (off + 4) 1 == need && s.blockOk ctx l lo off need s.ownerPkh)

/-! ## Checks (R227, R590) -/

/-- A copy of the boot record verifies under BRK (R592). -/
def State.bootOk (s : State) (b : BootRec) : Bool := b.valid && b.brk == s.systemW 8201

/-- Some copy verifies. -/
def State.bootValid (s : State) : Bool := s.bootOk s.mram.boot || s.bootOk s.mram.bootOld

/-- The current boot record: the valid copy with the higher SEQ, which is the one written last (R592). -/
def State.bootRec (s : State) : BootRec :=
  if s.bootOk s.mram.boot then s.mram.boot else if s.bootOk s.mram.bootOld then s.mram.bootOld else {}

/-- The checks of a Putty set of `n` bytes at `off`. -/
def State.puttyErr (s : State) (l : List Byte) (off n : Nat) : Option Err :=
  match puttyLayout l off n with
  | some o => some (stBadArg, o)
  | none =>
    let br := s.bootRec
    let ver := fieldLe l (off + 4) 4
    if fieldLe l (off + 8) 4 ≠ Config.lathRomVer.toNat then some (stBadArg, off + 8)
    else if s.fwSigned "FQPT-01" l off (off + puttyBody l off) = false then some (stSigInvalid, 0)
    else if s.lcy.st = 5 then some (stLifecycle, 5)
    else if 2 ≤ s.lcy.st ∧ br.puttyRom = Config.lathRomVer ∧ ver < br.puttyMin.toNat then some (stCounter, br.puttyMin.toNat)
    else none

/-- The checks of an image (R590). -/
def State.imageErr (s : State) (l : List Byte) (exact : Bool) : Option Err :=
  match imageLayout l exact with
  | some o => some (stBadArg, o)
  | none =>
    let br := s.bootRec
    if s.lcy.st = 5 then some (stLifecycle, 5)
    else if Config.primerVer.toNat < fieldLe l 16 4 then some (stBadArg, 16)
    else if s.fwSigned "FQFW-01" l 0 (imgSig l) = false then some (stSigInvalid, 0)
    else if 2 ≤ s.lcy.st ∧ fieldLe l 12 4 < br.fwMinSvn.toNat then some (stCounter, br.fwMinSvn.toNat)
    else none

/-- The fields of an image. -/
def Image.ofBytes (l : List Byte) : Image :=
  let ll := fieldLe l 20 4
  { version := BitVec.ofNat 32 (fieldLe l 8 4), svn := BitVec.ofNat 32 (fieldLe l 12 4),
    primerMin := BitVec.ofNat 32 (fieldLe l 16 4), loadLen := ll, bytes := l,
    putty := slice l (256 + ll) (fieldLe l 24 4) }

/-- The patch set of a Putty set at offset 0. -/
def Putty.ofBytes (l : List Byte) : Putty :=
  let w := puttyWords l 0
  { ver := BitVec.ofNat 32 (fieldLe l 4 4)
    words := (List.range w).foldl (fun t i => Tbl.set 0 t i (BitVec.ofNat 128 (fieldLe l (64 + 16 * i) 16))) []
    matches_ := (List.range (puttyMatches l 0)).foldl (fun t i =>
      let (r, p) := puttyMatch l 0 i
      Tbl.set none t i (some (BitVec.ofNat 14 r, BitVec.ofNat 10 p))) [] }

/-! ## Flash slots -/

def State.flashSlot (s : State) (k : Nat) : Option Image := if k = 0 then s.boot.flashA else s.boot.flashB

/-- The slot's last check in this start passed (R596, R598). -/
def State.slotPassed (s : State) (k : Nat) : Bool := if k = 0 then s.boot.passedA else s.boot.passedB

/-- Records a check of slot `k`: its outcome and VERSION. -/
def State.noteCheck (s : State) (k : Nat) (ok : Bool) (ver : W32) : State :=
  let v := if ok then ver else 0
  if k = 0 then { s with boot := { s.boot with passedA := ok, verA := v } }
  else { s with boot := { s.boot with passedB := ok, verB := v } }

/-- The content of slot `k` passes R590. -/
def State.slotOk (s : State) (k : Nat) : Bool :=
  match s.flashSlot k with
  | some i => (s.imageErr i.bytes false).isNone
  | none => false

/-- Programs slot `k`. -/
def State.putSlot (s : State) (k : Nat) (i : Option Image) : State :=
  if k = 0 then { s with boot := { s.boot with flashA := i } } else { s with boot := { s.boot with flashB := i } }

/-! ## The boot record (R592) -/

/-- Writes the boot record under BRK, into the cell that does not hold the current copy. -/
def State.writeBoot (s : State) (g : BootRec → BootRec) : State :=
  let cur := s.bootRec
  { s with mram := { s.mram with
      bootOld := if s.bootValid then cur else s.mram.boot
      boot := { g cur with valid := true, seq := cur.seq + 1, brk := s.systemW 8201 } } }

/-- The highest accepted Putty VERSION for the ROM (R227, R228). -/
def State.raisePutty (s : State) (ver : W32) : State :=
  let b := s.bootRec
  if b.puttyRom = Config.lathRomVer ∧ ver.toNat ≤ b.puttyMin.toNat then s
  else s.writeBoot (fun r => { r with puttyMin := ver, puttyRom := Config.lathRomVer })

/-! ## The commands -/

/-- `fw.info` (R598). -/
def execFwInfo (h : Hdr) (s : State) : Host.Outcome State Fault Refusal :=
  .next (s.run h { smb := true, basic := true, primer := true } (fun x =>
    .ok x (pack [.u 1 x.bootRec.active, .u 4 x.boot.verA.toNat, .u 4 x.boot.verB.toNat, .u 1 x.boot.startFails])))

/-- `fw.stage` (R595): the image is checked and written into a slot that does not hold the running image. `ok` tells
whether the slot reads back, after one retry. -/
def execFwStage (h : Hdr) (image : Nat) (buf : Buf) (ok : Bool) (s : State) : Host.Outcome State Fault Refusal :=
  .next (s.run h { len := 24, lenX := 24, buf := true, bufX := true } (fun x =>
    if 1 < image ∨ image = x.boot.image then .err (stBadArg, 16)
    else
      match buf.read 24 with
      | .error e => .err e
      | .ok b =>
        match x.imageErr b true with
        | some e => .err e
        | none =>
          if ok then
            let i := Image.ofBytes b
            .ok ((x.putSlot image (some i)).noteCheck image true i.version) []
          else .bad ((x.putSlot image none).noteCheck image false 0) (stAborted, 5)))

/-- `fw.activate` (R596). Over a Seam that is down no boot record is written (R17; log entry 105). -/
def execFwActivate (h : Hdr) (image : Nat) (s : State) : Host.Outcome State Fault Refusal :=
  .next (s.run h { len := 1, lenX := 1 } (fun x =>
    if 1 < image ∨ x.slotPassed image = false then .err (stBadArg, 16)
    else if x.seamDown then .err (stMramFail, 0)
    else .ok (x.writeBoot (fun r => { r with pending := if image = r.active then 0 else image + 1 })) []))

/-- `fw.putty` (R227, R228; over a Seam that is down as `fw.activate`): the set is accepted and loaded into one engine after another. -/
def execFwPutty (h : Hdr) (buf : Buf) (s : State) : Host.Outcome State Fault Refusal :=
  .next (s.run h { len := 16, lenX := 16, buf := true, bufX := true } (fun x =>
    match buf.read 16, h.iss with
    | .error e, _ => .err e
    | .ok b, .pf n =>
      match x.puttyErr b 0 b.length with
      | some e => .err e
      | none =>
        if x.seamDown then .err (stMramFail, 0)
        else
        let p := Putty.ofBytes b
        .wait ((x.raisePutty p.ver).loadPutty p (some (n, h.seq)))
    | .ok _, _ => .err (stNotPermitted, 0)))

/-- The slot that `fw.recover` writes: the first that fails R590, or the one that is not ACTIVE. -/
def State.recoverSlot (s : State) : Nat :=
  if s.slotOk 0 = false then 0 else if s.slotOk 1 = false then 1 else if s.bootRec.active = 0 then 1 else 0

/-- `fw.recover` (R597). The warm reset follows 10 ms after the response. -/
def execFwRecover (h : Hdr) (buf : Buf) (ok : Bool) (s : State) : Host.Outcome State Fault Refusal :=
  .next (s.run h { basic := true, len := 16, lenX := 16, buf := true, bufX := true } (fun x =>
    if x.lcy.st = 0xFF then .err (stUndercoat, 0)
    else
      match buf.read 16 with
      | .error e => .err e
      | .ok b =>
        match x.imageErr b true with
        | some e => .err e
        | none =>
          let k := x.recoverSlot
          let i := Image.ofBytes b
          if ok then
            let x1 := (x.putSlot k (some i)).noteCheck k true i.version
            let fresh : Bool := x.boot.reason == 0x0205
            let x2 := x1.writeBoot (fun r =>
              if fresh then { pending := k + 1, fwMinSvn := i.svn } else { r with pending := k + 1 })
            .ok { x2 with boot := { x2.boot with startFails := 0, recoverReset := true } } []
          else .bad ((x.putSlot k none).noteCheck k false 0) (stAborted, 5)))

end Sys2Proof.Machine
end

