-- ==== Sys2Proof/Machine/Life.lean ====
section
/-!
DEFINITION. Life-cycle commands (R474-R488): `lcy.status`, `lcy.advance`, `lcy.debug`, the expiry of a debug scope, the
resumption of a transition at a start (R480), and the TAP (R489).
-/
namespace Sys2Proof.Machine

/-! ## `lcy.status` and `lcy.advance` -/

/-- The pending transition as `lcy.status` reports it (R482). -/
def State.lcyPending (s : State) : Nat := if s.lcy.pending then 0x80 + s.lcy.dst else 0

def execLcyStatusCmd (h : Hdr) (s : State) : Host.Outcome State Fault Refusal :=
  .next (s.run h { smb := true, basic := true, primer := true, scrap := true } (fun x =>
    .ok x (pack [.u 1 x.lcy.st, .u 1 x.lcyPending, .u 4 x.lcy.scope.toNat])))

/-- Signatures that a transition needs (R468): bit 0 vendor, bit 1 owner; none where the pair is not permitted. -/
def lifeSigners (a b : Nat) : Option Nat :=
  match a, b with
  | 0, 1 => some 0
  | 1, 2 => some 1
  | 2, 3 => some 3
  | 3, 4 => some 2
  | 0, 5 => some 0
  | 1, 5 => some 0
  | 2, 5 => some 1
  | 4, 5 => some 1
  | 3, 5 => some 2
  | _, _ => none

/-- Check 1 of R475. -/
def lifeLayout (r : List Byte) : Option Nat :=
  if r.length < 128 then some 0
  else
    firstOff [offIf (fieldLe r 0 4 != 0x54435146) 0, offIf (fieldLe r 4 2 != 1) 4, offIf (decide (5 < fieldLe r 6 1)) 6,
      offIf (decide (5 < fieldLe r 7 1)) 7,
      offIf (decide (3 < fieldLe r 8 1) || r.length != 128 + signers (fieldLe r 8 1) * 7412) 8, nonZero r 9 7,
      if fieldLe r 7 1 = 3 then none else nonZero r 48 32, nonZero r 80 48]

/-- The signatures of a request (R474, R475 check 4): they follow a 16-byte block header in a signed image and none here. -/
def State.lifeSigned (s : State) (r : List Byte) (need : Nat) (owner : W256) : Bool :=
  let k := signers need
  let pk := fun (i : Nat) => slice r (128 + 2689 * i) 2689
  let sig := fun (i : Nat) => slice r (128 + 2689 * k + 4723 * i) 4723
  let body := r.take (128 + 2689 * k)
  let ok := fun (i signer : Nat) => s.sigOk "FQLC-01" signer owner body (pk i) (sig i)
  match need with
  | 0 => true
  | 1 => ok 0 1
  | 2 => ok 0 2
  | _ => ok 0 1 && ok 1 2

/-- Check 5 of R475. -/
def State.gritErr (s : State) : Option Err :=
  match s.grt.st with
  | .ok => none
  | .unseeded => some (stRngNotReady, 0)
  | .fail => some (stRngFail, s.healthy)

/-- The checks of R475, and ERASE (R496). -/
def State.lifeErr (s : State) (r : List Byte) : Option Err :=
  let dst := fieldLe r 7 1
  let newOwner : W256 := BitVec.ofNat 256 (fieldLe r 48 32)
  match lifeLayout r with
  | some o => some (stBadArg, o)
  | none =>
    if fieldLe r 6 1 ≠ s.lcy.st ∨ lifeSigners s.lcy.st dst ≠ some (fieldLe r 8 1) then some (stLifecycle, s.lcy.st)
    else if slice r 16 32 ≠ w256Bytes s.deviceId then some (stDeviceId, 0)
    else if s.lifeSigned r (fieldLe r 8 1) (if dst = 3 then newOwner else s.ownerPkh) = false then some (stSigInvalid, 0)
    else
      match if s.lcy.st = 1 ∧ dst = 2 then s.gritErr else none with
      | some e => some e
      | none =>
        match s.tmp.erased with
        | some src => some (stTamperErased, src)
        | none => none

/-- `lcy.advance` (R475, R476): the transition runs when the commits before it have ended; its own commit ends with
JOURNAL_COMMIT_DONE. `wordFails` and `candFails` are the OTP words and DUS candidates that fail before one works. -/
def execLcyAdvance (h : Hdr) (buf : Buf) (wordFails candFails : Nat) (s : State) : Host.Outcome State Fault Refusal :=
  .next (s.run h { len := 16, lenX := 16, buf := true, bufX := true } (fun x =>
    match buf.read 16, h.iss with
    | .error e, _ => .err e
    | .ok r, .pf n =>
      match x.lifeErr r with
      | some e => .err e
      | none =>
        let dst := fieldLe r 7 1
        let l : LifeReq := { dst := dst, owner := if dst = 3 then BitVec.ofNat 256 (fieldLe r 48 32) else 0,
                             wordFails := wordFails, candFails := candFails }
        .wait (x.requestCommit { mbx := some (n, h.seq), life := some l })
    | .ok _, _ => .err (stNotPermitted, 0)))

/-! ## Debug tokens (R484-R488) -/

def rtcSeconds (s : State) : Nat := s.bkp.rtc.toNat / 32768

/-- Check 1 of R486. -/
def tokenLayout (r : List Byte) : Option Nat :=
  if r.length ≠ 7508 then some 0
  else
    firstOff [offIf (fieldLe r 0 4 != 0x4B445146) 0, offIf (fieldLe r 4 2 != 1) 4, nonZero r 12 4, nonZero r 72 24]

/-- Scopes that a state allows (R484). -/
def scopeMask (st : Nat) : Nat := if st = 3 then 0x0F else 0x7F

/-- The checks of R486 up to 6. -/
def State.tokenErr (s : State) (r : List Byte) : Option Err :=
  match tokenLayout r with
  | some o => some (stBadArg, o)
  | none =>
    let st := s.lcy.st
    let signer := if st = 3 then 2 else 1
    let scope := fieldLe r 8 4
    let seq := fieldLe r 48 8
    let stored := if signer = 2 then s.mram.anchor.ownerDseq else s.mram.anchor.vendorDseq
    let lo := fieldLe r 56 8
    let hi := fieldLe r 64 8
    if st < 2 ∨ 4 < st then some (stLifecycle, st)
    else if slice r 16 32 ≠ w256Bytes s.deviceId then some (stDeviceId, 0)
    else if fieldLe r 6 1 ≠ st ∨ fieldLe r 7 1 ≠ signer ∨ scope &&& scopeMask st ≠ scope then some (stToken, 0)
    else if s.sigOk "FQDBG-01" signer s.ownerPkh (r.take 2785) (slice r 96 2689) (slice r 2785 4723) = false then
      some (stSigInvalid, 0)
    else if seq ≤ stored.toNat ∨ s.bkp.rtcValid = false ∨ rtcSeconds s < lo ∨ hi < rtcSeconds s ∨ lo + 604800 < hi then
      some (stToken, 0)
    else none

/-- Every engine is drained and wiped for a scope that needs it: a job that runs or waits ends with ST_NO_ENGINE (R488,
log entry 40). -/
def endAllJobs : List Job → State → State
  | [], s => s
  | j :: t, s => endAllJobs t (if j.st = .ended then s else s.failJob j.id stNoEngine j.kind.code)

/-- Grit stops (R488): nothing is delivered until the next Grit start. -/
def State.stopGrit (s : State) : State :=
  { s with
    grt := { s.grt with st := .unseeded, started := false, gens := Tbl.map {} (fun _ (g : Gen) =>
      { g with st := .unseeded, discarded := g.discarded + BitVec.ofNat 64 g.fill, fill := 0, fresh := false, due := false }) s.grt.gens }
    bnd := { s.bnd with paused := true } }

/-- The preparation of R488. -/
def State.prepareScope (s : State) (scan : Bool) : State :=
  let s1 := disablePairs (List.range 8) s
  let s2 := { s1 with lcy := { s1.lcy with prepared := true } }
  let s3 := endAllJobs s2.que.jobs s2
  let s4 := s3.wipeWhere (fun k b => !b.persist && !isSystemSlot k && b.st != .free)
  if scan then s4.stopGrit else s4

/-- `lcy.debug` fails: TOKEN_REJECT (R544). -/
def State.rejectToken (s : State) (e : Err) : Ans := .bad (s.report 673 0) e

/-- `lcy.debug` (R484, R486); a scope that it opens raises DEBUG_OPEN (R544). Over a Seam that is down the sequence number cannot be stored (R17; log entry 105). -/
def execLcyDebug (h : Hdr) (token : Buf) (s : State) : Host.Outcome State Fault Refusal :=
  .next (s.run h { len := 16, lenX := 16, buf := true, bufX := true } (fun x =>
    if x.lcy.st < 2 then .ok x (pack [.u 4 0x7F, .u 8 0xFFFFFFFFFFFFFFFF])
    else
      match token.read 16 with
      | .error e => x.rejectToken e
      | .ok r =>
        match x.tokenErr r with
        | some e => x.rejectToken e
        | none =>
          if x.seamDown then x.rejectToken (stMramFail, 0)
          else
          let seq : W64 := BitVec.ofNat 64 (fieldLe r 48 8)
          let scope := fieldLe r 8 4
          let hi := fieldLe r 64 8
          let x1 := x.writeAnchorBy (fun a => if x.lcy.st = 3 then { a with ownerDseq := seq } else { a with vendorDseq := seq })
          let x2 := x1.closeDebug
          let x3 := if scope &&& 0x70 ≠ 0 then x2.prepareScope (scope &&& 0x40 != 0) else x2
          let x4 := if scope = 0 then x3
            else { x3 with lcy := { x3.lcy with scope := BitVec.ofNat 7 scope, notAfter := BitVec.ofNat 64 hi } }.report 672 0
          .ok x4 (pack [.u 4 scope, .u 8 hi])))

/-- R487: the RTC passes NOT_AFTER of the open scope. -/
def execDebugExpire (s : State) : Host.Outcome State Fault Refusal :=
  if s.lcy.scope ≠ 0 ∧ 2 ≤ s.lcy.st ∧ s.lcy.notAfter.toNat < rtcSeconds s then .next s.closeDebug else .next s

/-! ## Resumption (R480) -/

/-- The image under the blob key of `st`, in place of the active one. -/
def State.imageFor (s : State) (st : Nat) : Journal :=
  let bk := s.blobKeyFor st
  let ok := fun (j : Journal) => j.present && !j.torn && j.bk == bk
  let a := s.mram.ja
  let b := s.mram.jb
  if ok a && ok b then (if a.seq.toNat < b.seq.toNat then b else a) else if ok a then a else if ok b then b else {}

/-- Continues a DUS candidate: a sealed one is kept, any other is abandoned (R473, R480). -/
def State.resumeDus (s : State) (cand : Nat) : Option (State × Nat) :=
  if (s.otp.dus.getD cand {}).mark = dusSeal then some (s, cand)
  else programDus 0 { s with otp := s.otp.setCand cand { s.otp.dus.getD cand {} with mark := 0xFFFFFFFF } }

/-- OWNER_PKH of a resumed transition: the request is lost, so on entry to MISSION the value is not stated (log entry 41). -/
def State.resumedOwner (s : State) (dst : Nat) : W256 := if dst = 3 then Config.lostOwner s.freeCtr else 0

/-- Commits the empty image again, unless it stands already (R480). -/
def State.resumeCommit (s : State) (src dst word cand : Nat) : State :=
  let build : Bool := src == 1 && dst == 2
  let s1 := if build then ({ s with lcy := { s.lcy with st := src } }).rekeyBuild else s.fillSystem 8193 (w256Bytes (s.blobKeyFor src))
  let now := s1.imageFor (if build then 2 else src)
  if now.present ∧ now.lcs = dst ∧ now.dir.isEmpty = true then s1.writeMark src dst 3 word cand
  else
    let former := if build then s1.imageFor src else now
    let s2 := s1.putBeside former (emptyImage former dst (s1.resumedOwner dst) (s1.systemW 8193))
    ({ s2 with freeCtr := s2.freeCtr + 1 }.writeAnchorAs dst).writeMark src dst 3 word cand

/-- Completes the transition of the current mark at step S7 (R480); none where no OTP word or candidate is left. -/
def State.resumeLife (s : State) : Option State :=
  let m := s.curMark
  let l : LifeReq := { dst := m.dst }
  if s.markValid = false ∨ m.step = 6 ∨ m.dst = 5 then some s
  else
    let s0 := { s with lcy := { s.lcy with pending := true, dst := m.dst, step := m.step } }
    let build : Bool := m.src == 1 && m.dst == 2
    let dus := if m.step = 1 ∧ build = true then (s0.resumeDus m.cand).map (fun p => (p.1.writeMark m.src m.dst 2 m.word p.2, p.2))
      else some (s0, m.cand)
    match dus with
    | none => none
    | some (s1, cand) =>
      let s2 := if m.step ≤ 2 then s1.resumeCommit m.src m.dst m.word cand
        else s1.fillSystem 8193 (w256Bytes (s1.blobKeyFor (if build then m.dst else m.src)))
      s2.lifeTail m.src l {} m.word cand

/-! ## The TAP (R489) -/

/-- The TAP runs from the end of P4 while VIN is present (R635). -/
def State.tapOn (s : State) : Bool :=
  s.pwr.vin && (s.computeOn || s.pwr.st == .dustsheet || (s.pwr.st == .sequencing && decide (5 ≤ s.pwr.step)))

/-- Selects the instruction: `drive` what the balls do, `tdo` what the selected register shifts out, `dbg` the debug
register. -/
def State.jtagSel (s : State) (ir : Byte) (drive : Nat) (tdo : W32) (dbg : Option Nat) : State :=
  if s.tapOn then { s with jtag := { s.jtag with ir := ir, drive := drive, tdo := tdo, dbg := dbg } } else s

def execJIdcode (s : State) : Host.Outcome State Fault Refusal := .next (s.jtagSel 0x01 0 0x2640055F none)

/-- What the balls do under instruction `ir`: EXTEST, CLAMP and HIGHZ drive them only while PERST_N or SYS_RST_N holds the device
in warm reset, and act as BYPASS otherwise (R489). -/
def jtagDrive (ir : Byte) (held : Bool) : Nat :=
  if held = false then 0 else if ir = 0x00 then 1 else if ir = 0x04 then 2 else if ir = 0x05 then 3 else 0

def execJExtest (s : State) : Host.Outcome State Fault Refusal :=
  .next (s.jtagSel 0x00 (jtagDrive 0x00 s.boot.resetHeld) 0 none)

/-- SAMPLE/PRELOAD: `value` is shifted into the boundary register. -/
def execJSamplePreload (value : W64) (s : State) : Host.Outcome State Fault Refusal :=
  let s1 := s.jtagSel 0x02 0 0 none
  .next (if s.tapOn then { s1 with jtag := { s1.jtag with boundary := value } } else s1)

def execJClamp (s : State) : Host.Outcome State Fault Refusal :=
  .next (s.jtagSel 0x04 (jtagDrive 0x04 s.boot.resetHeld) 0 none)

def execJHighz (s : State) : Host.Outcome State Fault Refusal :=
  .next (s.jtagSel 0x05 (jtagDrive 0x05 s.boot.resetHeld) 0 none)

/-- A debug instruction acts as BYPASS unless its scope is open. -/
def State.jtagDbg (s : State) (b : Nat) : State :=
  s.jtagSel (BitVec.ofNat 8 (0x20 + b)) 0 0 (if s.lcy.scope.getLsbD b then some b else none)

def execJDbgHalt (s : State) : Host.Outcome State Fault Refusal := .next (s.jtagDbg 0)
def execJDbgDiag (s : State) : Host.Outcome State Fault Refusal := .next (s.jtagDbg 1)
def execJDbgTrace (s : State) : Host.Outcome State Fault Refusal := .next (s.jtagDbg 2)
def execJDbgSerdes (s : State) : Host.Outcome State Fault Refusal := .next (s.jtagDbg 3)
def execJDbgLstep (s : State) : Host.Outcome State Fault Refusal := .next (s.jtagDbg 4)
def execJDbgMram (s : State) : Host.Outcome State Fault Refusal := .next (s.jtagDbg 5)
def execJDbgScan (s : State) : Host.Outcome State Fault Refusal := .next (s.jtagDbg 6)

def execJBypass (s : State) : Host.Outcome State Fault Refusal := .next (s.jtagSel 0xFF 0 0 none)

end Sys2Proof.Machine
end

