-- ==== Sys2Proof/Machine/Tamper.lean ====
section
/-!
DEFINITION. Tamper (R490-R513): alarms and their responses, `tmp.status`, `tmp.clear` and `tmp.test`.
-/
namespace Sys2Proof.Machine

/-! ## Sources (R491) -/

/-- The floor of a source's response; none where the response is fixed. -/
def floorResp : Nat → Option Byte
  | 0 => some 0x0E | 1 => some 0x0E | 2 => some 0x0E | 3 => some 0x0E
  | 4 => some 4 | 5 => some 4 | 6 => some 4 | 7 => some 4
  | 8 => some 0x0E | 9 => some 0x0E
  | 10 => some 5 | 11 => some 5 | 12 => some 5
  | 13 => some 4 | 14 => some 4 | 15 => some 0 | 16 => some 0
  | _ => none

/-- The source is enabled: the loops and switches by ENABLE, the others always. -/
def State.srcOn (s : State) (i : Nat) : Bool := if i < 8 then s.bkp.enable.getLsbD i else decide (i < 18)

/-- The detector runs in the present power state. -/
def State.watches (s : State) (i : Nat) : Bool :=
  let off := !s.pwr.vin && !s.pwr.vbat
  let dust := s.pwr.st == .dustsheet
  if off then false
  else if i = 9 ∨ i = 10 ∨ i = 12 then s.computeOn
  else if i = 11 ∨ i = 16 then s.computeOn || dust
  else true

def State.responseOf (s : State) (i : Nat) : Byte := s.bkp.response.getD i 0

/-- The ERASE mask of TMP_CONFIG. -/
def eraseMask (l : List Byte) : W32 :=
  BitVec.ofNat 32 ((List.range 19).foldl (fun a i => if (l.getD i 0).getLsbD 3 then a + 2 ^ i else a) 0)

/-- Horrov mirrors the backup domain into the PF status region. -/
def State.mirror (s : State) : State :=
  { s with tmp := { s.tmp with
    sticky := s.bkp.flags, bkekValid := s.bkp.bkekValid, rtcValid := s.bkp.rtcValid, enable := s.bkp.enable,
    swNormal := s.bkp.swNormal, erase := eraseMask s.bkp.response } }

/-- The source of the latest timestamp that the backup domain keeps, and that timestamp (R497): among equal ones the higher rank,
then the lower bit; source 0 at 0 where it keeps none. -/
def State.latest (s : State) : Nat × W64 :=
  (List.range 19).foldl (fun (b : Nat × W64) i =>
    let x := Tbl.get {} s.bkp.stamps i
    if x.count ≠ 0 ∧ (b.2.toNat < x.last.toNat ∨
        (b.2 = x.last ∧ (s.responseOf b.1).toNat % 8 < (s.responseOf i).toNat % 8)) then (i, x.last) else b) (0, 0)

/-! ## Alarms (R495-R501) -/

/-- What the backup domain does by itself: the flag, the stamps, the count; XTAL clears RTC_VALID (R512). -/
def State.flagAlarm (s : State) (i : Nat) : State :=
  let first : Bool := !s.bkp.flags.getLsbD i
  { s with bkp := { s.bkp with
    flags := setBit s.bkp.flags i
    stamps := Tbl.upd {} s.bkp.stamps i (fun x =>
      { first := if first then s.bkp.rtc else x.first, last := s.bkp.rtc, count := satInc x.count })
    rtcValid := s.bkp.rtcValid && i != 15 } }

/-- ERASE by the backup domain; while the compute die runs, and Seam carries the alarm to it, BK is wiped too (R496, R535). -/
def State.eraseFor (s : State) (i : Nat) : State :=
  if s.computeOn && !s.seamDown then s.erase i else { s with bkp := { s.bkp with bkek := 0, bkekValid := false } }

/-- The power state in the DETAIL of a tamper record (R540): 0 RUN, 1 IDLE, 2 DUSTSHEET (log entry 42). -/
def State.powerCode (s : State) : Nat := match s.pwr.st with
  | .idle => 1
  | .dustEntry => 2
  | .dustsheet => 2
  | _ => 0

/-- Carries out the rank of an alarm of source `i`, and enters its device-log record: the record that Scrim opens, or
one of its own (R498). -/
def State.carryOut (s : State) (i : Nat) (power : Nat) : State :=
  let r := s.responseOf i
  let rank := r.toNat % 8
  let opens : Bool := rank != 0 && !(s.scr.recs.any (fun x => x.who == { group := 5, unit := i } && !x.dev)) &&
    decide (s.scr.recs.length < 64)
  let s1 := if opens then s
    else s.devLog { cause := BitVec.ofNat 16 (160 + i), unit := BitVec.ofNat 16 i, rank := BitVec.ofNat 8 rank,
                    flags := if r.getLsbD 3 then 4 else 0, detail := BitVec.ofNat 32 power }
  (s1.assertCause (160 + i) i (s.tmp.inAlarm.getLsbD i)).occur
    { cause := 160 + i, unit := i, rank := rank, erase := r.getLsbD 3, detail := power }

/-- The source reported last (R497): the latest stamp, then the higher rank, then the lower bit. -/
def State.lastSource (s : State) (i : Nat) : Nat :=
  let j := s.tmp.last
  let same : Bool := s.tmp.alarms != 0 && s.tmp.lastStamp == s.bkp.rtc
  let ri := (s.responseOf i).toNat % 8
  let rj := (s.responseOf j).toNat % 8
  if same ∧ (ri < rj ∨ (ri = rj ∧ j < i)) then j else i

/-- An alarm of source `i`: what happens in every power state, and under main power (R495-R499). While Seam is down the
custody die sets the flag and erases by itself, and no alarm reaches the compute die (R17, R535); LIGHT_COMP, whose sensors
stand on the compute die, is carried out there and reaches no flag (DEDUCED, log entry 105). -/
def State.alarm (s : State) (i : Nat) : State :=
  let e := (s.responseOf i).getLsbD 3
  let cut := s.computeOn && s.seamDown
  let s1 := s.flagAlarm i
  let s2 := if e then s1.eraseFor i else s1
  if cut then (if i = 9 then s.carryOut i s.powerCode else s2)
  else if s.computeOn then
    let last := s2.lastSource i
    let s3 := { s2 with tmp := { s2.tmp with last := last, lastStamp := s2.bkp.rtc, alarms := satInc s2.tmp.alarms } }
    let s4 := s3.mirror
    let s5 := if s4.tmp.sticky ≠ s4.mram.anchor.sticky ∧ s4.anchorValid = true then s4.writeAnchor else s4
    let s6 := s5.wake 3
    s6.carryOut i s.powerCode
  else if s.pwr.st = .dustsheet then
    ({ s2 with pwr := { s2.pwr with dustAlarms := s2.pwr.dustAlarms ++ [i] } }).wake 3
  else s2

/-- R495: the detector of source `i` raises its alarm. `stays` tells whether it goes on reporting one. A disabled
source, and one whose detector does not run now, does nothing. -/
def execTamperAlarm (i : Nat) (stays : Bool) (s : State) : Host.Outcome State Fault Refusal :=
  if s.srcOn i = false ∨ s.watches i = false then .next s
  else
    let s1 := { s with tmp := { s.tmp with inAlarm := if stays then setBit s.tmp.inAlarm i else clrBit s.tmp.inAlarm i } }
    .next (s1.alarm i)

/-! ## The commands -/

/-- `tmp.status`. -/
def execTmpStatusCmd (h : Hdr) (s : State) : Host.Outcome State Fault Refusal :=
  .next (s.run h { smb := true, basic := true } (fun x =>
    .ok x (pack [.u 4 x.tmp.sticky.toNat, .u 1 x.tmp.last, .u 8 x.tmp.lastStamp.toNat])))

/-- Check 1 of R508. -/
def clearLayout (r : List Byte) : Option Nat :=
  let act := fieldLe r 52 1
  let cfg : Bool := act % 2 == 1
  if r.length < 128 then some 0
  else
    firstOff [offIf (fieldLe r 0 4 != 0x50545146) 0, offIf (fieldLe r 4 2 != 1) 4, offIf (decide (5 < fieldLe r 6 1)) 6,
      offIf (decide (2 < fieldLe r 7 1) || r.length != 128 + (if fieldLe r 7 1 = 0 then 0 else 7412)) 7,
      offIf (fieldLe r 48 4 / 524288 != 0) 48, offIf (decide (3 < act)) 52, nonZero r 53 3,
      if act / 2 % 2 = 1 then none else nonZero r 56 8,
      if cfg then nonZero r 65 3 else nonZero r 64 4,
      if cfg then offIf (fieldLe r 68 4 / 16 != 0) 68 else nonZero r 68 4,
      if cfg then none else nonZero r 72 32, nonZero r 104 24]

/-- Check 6 of R508 for source `i`: the response byte is not acceptable. -/
def State.respBad (s : State) (r : List Byte) (i : Nat) : Bool :=
  let b := r.getD (72 + i) 0
  match floorResp i with
  | none => b != s.responseOf i
  | some f =>
    let rank := b.toNat % 8
    decide (16 ≤ b.toNat) || rank == 2 || rank == 3 || decide (rank < f.toNat % 8) ||
      (f.getLsbD 3 && !b.getLsbD 3) || (b.getLsbD 3 && decide (rank < 6))

/-- The checks of R508 up to 6. -/
def State.clearErr (s : State) (r : List Byte) : Option Err :=
  match clearLayout r with
  | some o => some (stBadArg, o)
  | none =>
    let signer := fieldLe r 7 1
    let cs := s.mram.anchor.clearSeq
    if fieldLe r 6 1 ≠ s.lcy.st ∨ signer ≠ signerFor s.lcy.st then some (stLifecycle, s.lcy.st)
    else if slice r 16 32 ≠ w256Bytes s.deviceId then some (stDeviceId, 0)
    else if signer ≠ 0 ∧ s.sigOk "FQTC-01" signer s.ownerPkh (r.take 2817) (slice r 128 2689) (slice r 2817 4723) = false then
      some (stSigInvalid, 0)
    else if fieldLe r 8 8 ≤ cs.toNat then some (stCounter, cs.toNat % 4294967296)
    else if fieldLe r 52 1 % 2 = 1 then
      ((List.range 32).find? (fun i => s.respBad r i)).map (fun i => (stBadArg, 72 + i))
    else none

/-- An accepted record is applied (R509): configuration and RTC, the flags, then the anchor. A flag whose detector still
reports an alarm stays (R501). -/
def State.applyClear (s : State) (r : List Byte) : State :=
  let act := fieldLe r 52 1
  let b1 := if act % 2 = 1 then
      { s.bkp with enable := r.getD 64 0, swNormal := BitVec.ofNat 4 (fieldLe r 68 4), response := slice r 72 19 }
    else s.bkp
  let b2 := if act / 2 % 2 = 1 then { b1 with rtc := BitVec.ofNat 64 (fieldLe r 56 8), rtcValid := true } else b1
  let clr : W32 := BitVec.ofNat 32 (fieldLe r 48 4) &&& ~~~ s.tmp.inAlarm
  let b3 := { b2 with flags := b2.flags &&& ~~~ clr, stamps := b2.stamps.filter (fun x => !clr.getLsbD x.1) }
  let s1 := ({ s with bkp := b3 }).mirror
  s1.writeAnchorBy (fun a => { a with clearSeq := BitVec.ofNat 64 (fieldLe r 8 8) })

/-- `tmp.clear` (R507-R509). `ok` tells whether the anchor write verifies; over a Seam that is down none does (R17; log entry
105). -/
def execTmpClear (h : Hdr) (buf : Buf) (ok : Bool) (s : State) : Host.Outcome State Fault Refusal :=
  .next (s.run h { len := 16, lenX := 16, buf := true, bufX := true } (fun x =>
    match buf.read 16 with
    | .error e => .err e
    | .ok r =>
      match x.clearErr r with
      | some e => .err e
      | none => if ok && !x.seamDown then .ok (x.applyClear r) [] else .bad (x.report 134 0) (stMramFail, 0)))

/-- `tmp.test` (R510, R511): whether the detector saw the stimulus, and whether the sample after the window is in
alarm; neither crosses a Seam that is down (R17). -/
def execTmpTest (h : Hdr) (source : Nat) (detected after : Bool) (s : State) : Host.Outcome State Fault Refusal :=
  .next (s.run h { len := 1, lenX := 1 } (fun x =>
    if 17 < source then .err (stBadArg, 16)
    else
      let seen := detected && !x.seamDown
      let x1 := if seen then x else x.report 133 0
      let x2 := if after ∧ x1.seamDown = false ∧ x1.srcOn source = true ∧ x1.watches source = true then
          ({ x1 with tmp := { x1.tmp with inAlarm := setBit x1.tmp.inAlarm source } }).alarm source
        else x1
      .ok x2 [if seen then 1 else 0]))

end Sys2Proof.Machine
end

