-- ==== Sys2Proof/Machine/Boot.lean ====
section
/-!
DEFINITION. Power-up, starts and resets (R545-R547, R568-R602): the power sequence, the steps S1-S12, Undercoat, failed
starts, DUSTSHEET entry and wake, and the loss of VIN and VBAT.
-/
namespace Sys2Proof.Machine

/-! ## What a reset of the compute die keeps (R16, R579, R657) -/

/-- MRAM when Horrov stops in the middle of a commit: the journal slot that was being written is torn, the active image stands
(R450, R461). -/
def State.tornMram (s : State) : Mram :=
  match s.commits with
  | [] => s.mram
  | c :: _ =>
    if c.started then
      let former := if s.lcy.st = 1 ∧ c.life.map (fun l => l.dst) = some 2 then s.testImage else s.image
      if former.present ∧ s.mram.ja = former then { s.mram with jb := { present := true, torn := true } }
      else { s.mram with ja := { present := true, torn := true } }
    else s.mram

/-- The state after a reset of the compute die: WARM, FUNC and ENGINE registers and every volatile store are at their
reset values; the COLD ones, the custody die with its entropy sources (R657), the power stage and the board stay. `st` is the power state that follows. -/
def State.computeReset (s : State) (st : PowerSt) : State :=
  let x : State :=
    { State.reset with
      mram := s.tornMram, otp := s.otp, bkp := s.bkp, jtag := { s.jtag with dbg := none }, clk := s.clk, freeCtr := s.freeCtr,
      sent := s.sent, pending := s.pending
      boot := { startFails := s.boot.startFails, lastReason := s.boot.lastReason, resetHeld := s.boot.resetHeld,
                flashA := s.boot.flashA, flashB := s.boot.flashB }
      scr := { occ := s.scr.occ, total := s.scr.total, exits := s.scr.exits }
      flt := ({ limit := s.flt.limit } : Flt).fall
      tmp := { inAlarm := s.tmp.inAlarm }
      grt := { srcs := s.grt.srcs, turn := s.grt.turn, condFailed := s.grt.condFailed }
      pwr := { s.pwr with
        st := st, ap := 7, abandoned := false, lastWake := 0, samples := 0, dustMs := 1000, wakes := 0, slewing := false,
        relocks := 0, sdLock := s.pwr.sdRefOk } }
  x.updFn 0 (fun f => { f with rrs := true })

/-- A record that the controller has held goes into the device log with the RTC time at which it was made (R546,
R576, R582). -/
def State.putLog (s : State) (r : LogRec) : State :=
  let seq := s.mram.logSeq + 1
  { s with mram := { s.mram with
      logSeq := seq, log := (s.mram.log ++ [{ r with seq := seq }]).drop ((s.mram.log.length + 1) - 8192) } }

/-- The controller's record of an event: TYPE 3, its reason in DETAIL. -/
def State.heldRec (s : State) (reason : Nat) : LogRec :=
  { stamp := s.bkp.rtc, cause := 0xFFFF, unit := 0xFFFF, rtype := 3, flags := if s.bkp.rtcValid then 0 else 16,
    detail := BitVec.ofNat 32 reason }

def State.holdLog (s : State) (reason : Nat) : State :=
  { s with pwr := { s.pwr with heldLog := s.pwr.heldLog ++ [s.heldRec reason] } }

/-! ## The ends of a start -/

/-- A failed start (R581): the reason is stored and counted, and the compute die is held in reset. -/
def State.failedStart (s : State) (reason : W16) : State :=
  let s1 := (s.computeReset .run).holdLog reason.toNat
  { s1 with boot := { s1.boot with hold := true, lastReason := reason, startFails := min 15 (s.boot.startFails + 1) } }

/-- Entry to Undercoat (R599): PF0 answers, the mailbox takes the commands of R139, the debug scope closes. -/
def State.enterUndercoat (s : State) (reason : W16) : State :=
  ({ s with
    mbx := { s.mbx with ready := true, undercoat := true }
    boot := { s.boot with reason := reason } }.updFn 0 (fun f => { f with rrs := false })).closeDebug

/-- A start goes on at `.ok`, and has ended at `.error`. -/
abbrev Start := Except State State

/-- Step `n` begins. -/
def State.atStep (s : State) (n : Nat) : State := { s with boot := { s.boot with step := n } }

/-- The step begins, and fails where the outside says so (R580). -/
def State.tryStep (s : State) (inp : StartIn) (n : Nat) (reason : W16) : Start :=
  let s1 := s.atStep n
  if inp.fail = some reason then .error (s1.failedStart reason) else .ok s1

/-! ## S3 to S6 -/

/-- S3: Seam comes up under per-boot keys (R585). -/
def State.seamUp (s : State) : State := { s with mram := { s.mram with bootCount := s.mram.bootCount + 1 } }

/-- SCRAP (R483): what is not yet erased is erased, and the mailbox answers. -/
def State.scrapStart (s : State) : State :=
  let s1 := s.scrapErase
  ({ s1 with mbx := { s1.mbx with ready := true } }).updFn 0 (fun f => { f with rrs := false })

/-- S4: the life-cycle words are read (R471); in BLANK and TEST every scope is open (R484). Answers whether the words are
consistent. -/
def State.readOtp (s : State) : State × Bool :=
  let (st, ok) := s.lcwDecode
  let open_ : Bool := decide (st < 2)
  ({ s with lcy := { s.lcy with st := st, scope := if open_ then 0x7F else 0, notAfter := if open_ then BitVec.allOnes 64 else 0 } }, ok)

def seedAll : List Nat → Nat → State → State
  | [], _, s => s
  | n :: t, k, s => seedAll t k (s.seedPart n k)

/-- S5: the Grit start (R418), and fresh seeds for the loops (R493). -/
def State.gritUp (s : State) (inp : StartIn) : State :=
  let s1 := s.gritStart
  let srcs : Tbl Source := (List.range 8).map (fun i => (i, { passed := true, window := 1 }))
  let s2 := seedAll seedOrder inp.seedTime { s1 with grt := { s1.grt with srcs := srcs } }
  let (w, s3) := s2.drawFrom 18
  { s3 with bkp := { s3.bkp with seeds := w.setWidth 64 } }

/-- The keys of stage one (R445): DUS, BKEK, AK, MK and BRK. -/
def State.fillStage1 (s : State) : State :=
  let st := s.lcy.st
  let s1 := (s.fillSystem 8197 (w256Bytes (s.dusFor st))).fillSystem 8198 (w256Bytes s.bkp.bkek)
  let s2 := s1.fillSystem 8199 (w256Bytes (s1.anchorKeyFor st))
  (s2.fillSystem 8200 (w256Bytes s2.markKey)).fillSystem 8201 (w256Bytes (s2.bootKeyFor st))

/-- A part whose MRAM has never been written: no anchor, and both journal slots blank. -/
def State.freshMram (s : State) : Bool :=
  !s.mram.anchor.valid && !s.mram.anchorOld.valid && !s.mram.ja.present && !s.mram.jb.present

/-- The anchor copy that verifies becomes the current one (R502). -/
def State.pickAnchor (s : State) : Option State :=
  let a := s.mram.anchor
  let b := s.mram.anchorOld
  if a.valid ∧ a.ak = s.systemW 8199 then some s
  else if b.valid ∧ b.ak = s.systemW 8199 then some { s with mram := { s.mram with anchor := b, anchorOld := a } }
  else none

/-- The anchor is written again with the flags as they stand now; its other fields stay. -/
def State.restick (s : State) : State :=
  { s with mram := { s.mram with
      anchorOld := s.mram.anchor
      anchor := { s.mram.anchor with seq := s.mram.anchor.seq + 1, sticky := s.bkp.flags } } }

/-- S6 (R503): the flags of the backup domain and the anchor are joined, the configuration is restored, and BACKUP_LOST
is set after a backup reset. None where no anchor verifies (R506). -/
def State.backupUp (s : State) : Option State :=
  let s0 := s.fillStage1
  match s0.pickAnchor with
  | none =>
    if s0.freshMram then some ({ s0 with bkp := { s0.bkp with wasReset := false } }).mirror else none
  | some s1 =>
    let a := s1.mram.anchor
    let lost : Bool := s1.bkp.wasReset && a.bkSet
    let flags := s1.bkp.flags ||| a.sticky
    let s2 := { s1 with bkp := { s1.bkp with
      flags := if lost then setBit flags 18 else flags, wasReset := false, enable := a.enable, swNormal := a.swNormal,
      response := a.response } }
    let m := s2.mirror
    let s3 := { m with tmp := { m.tmp with last := m.latest.1, lastStamp := m.latest.2 } }
    -- TAMPER_18 is raised when Scrim runs at S11
    let s4 := if lost then { s3 with pwr := { s3.pwr with dustAlarms := 18 :: s3.pwr.dustAlarms } } else s3
    some (if s4.bkp.flags = a.sticky then s4 else s4.restick)

/-! ## S8 and S9 -/

/-- Stage two of the system slots (R445): the values of R444; DUS and BKEK leave. -/
def State.fillStage2 (s : State) : State :=
  let st := s.lcy.st
  let dus := s.dusFor st
  let id := w256Bytes (s.deviceIdFor st)
  let s1 := (s.fillSystem 8192 (w256Bytes (s.rootFor st))).fillSystem 8193 (w256Bytes (s.blobKeyFor st))
  let s2 := s1.fillSystem 8194 (Config.kmac256 (w256Bytes dus) id 512 (ascii "FQDTK-KEM-01"))
  let s3 := s2.fillSystem 8195 (w256Bytes (kmacW dus id "FQDTK-X-01"))
  (s3.clearSystem 8197).clearSystem 8198

/-- The failed starts are written into the boot record and the device log, and a TRIAL that did not reach READY is
cleared (R582, R592). None where the record does not verify in MISSION or RETURN. -/
def State.bootRecUp (s : State) : Option State :=
  let ok := s.bootValid
  if ok = false ∧ 3 ≤ s.lcy.st then none
  else
    let s1 := if ok then s else s.writeBoot (fun _ => {})
    let b := s1.bootRec
    let same : Bool := b.trial == 0 && b.fails == s1.boot.startFails && b.lastReason == s1.boot.lastReason
    let s2 := if same then s1
      else s1.writeBoot (fun r => { r with trial := 0, fails := s1.boot.startFails, lastReason := s1.boot.lastReason })
    let s3 := s2.pwr.heldLog.foldl (fun x r => x.putLog r) s2
    some { s3 with pwr := { s3.pwr with heldLog := [] } }

/-- The source that R505 names: the highest-ranked set flag that carries ERASE, or BACKUP_LOST. -/
def State.eraseSource (s : State) : Nat :=
  let c := (List.range 18).filter (fun i => s.bkp.flags.getLsbD i && (s.responseOf i).getLsbD 3)
  c.foldl (fun m i => if m = 18 ∨ (s.responseOf m).toNat % 8 < (s.responseOf i).toNat % 8 then i else m) 18

/-- A new BKEK from the device key queue; BK and MK follow it. -/
def State.newBkek (s : State) : State :=
  let (w, s1) := s.drawFrom 18
  let s2 := { s1 with
    bkp := { s1.bkp with bkek := w.setWidth 256, bkekValid := true }
    tmp := { s1.tmp with bkekValid := true } }
  (s2.fillSystem 8193 (w256Bytes (s2.blobKeyFor s2.lcy.st))).fillSystem 8200 (w256Bytes s2.markKey)

/-- An empty image with SEQ 1. -/
def State.firstImage (s : State) (counter : W64) (stamp : W32) (owner : W256) : State :=
  { s with mram := { s.mram with
      ja := { present := true, lcs := s.lcy.st, seq := 1, counter := counter, stampNext := stamp, ownerPkh := owner,
              bk := s.systemW 8193 }
      jb := {}, cells := [] } }

/-- The re-initialisation of R505, with its device-log record. -/
def State.reinit (s : State) : State :=
  let a := s.mram.anchor
  let s1 := s.devLogOther stTamperErased s.eraseSource
  (s1.newBkek.firstImage a.counter a.stampNext a.ownerPkh).writeAnchor

/-- S9 (R452, R481, R505): the journal is read and the persistent keys are loaded; or the reason for Undercoat. -/
def State.keysUp (s : State) : State × Option W16 :=
  let data : Bool := s.mram.ja.present || s.mram.jb.present
  if data = true ∧ s.bkp.bkekValid = false then (s.reinit, some 0x0203)
  else if data = false then
    let s1 := if s.bkp.bkekValid then s else s.newBkek
    let s2 := (s1.firstImage 0 1 0).writeAnchor
    ({ s2 with bnd := { s2.bnd with loaded := true } }, none)
  else if s.activeJ.isNone then (s, some 0x0202)
  else
    let j := s.image
    if j.lcs ≠ s.lcy.st then (s, some 0x0201)
    else
      let s1 := loadEntries j.dir s
      let s2 := match j.att with
        | some a => s1.fillSystem 8196 (leBytes 64 a.toNat)
        | none => s1
      ({ s2 with bnd := { s2.bnd with loaded := true } }, none)

/-! ## S10 (R591) -/

/-- Checks a slot at S10: the flash must answer. -/
def State.checkSlot (s : State) (inp : StartIn) (k : Nat) : State × Bool :=
  let ok : Bool := inp.flash && s.slotOk k
  (s.noteCheck k ok (((s.flashSlot k).map (fun i => i.version)).getD 0), ok)

/-- The first slot of the list that passes. -/
def State.tryslots (s : State) (inp : StartIn) : List Nat → State × Option Nat
  | [] => (s, none)
  | k :: t =>
    let (s1, ok) := s.checkSlot inp k
    if ok then (s1, some k) else s1.tryslots inp t

/-- The selection of R591: a pending image is tried once, then ACTIVE, then the other slot. -/
def State.selectImage (s : State) (inp : StartIn) : State × Option Nat :=
  if s.boot.bootSel = 1 then s.tryslots inp [0]
  else if s.boot.bootSel = 2 then s.tryslots inp [1]
  else
    let p := s.bootRec.pending
    let act := s.bootRec.active
    let s1 := if p = 0 then s else s.writeBoot (fun r => { r with trial := p, pending := 0 })
    s1.tryslots inp ((if p = 0 then [] else [p - 1]) ++ [act, 1 - act])

/-! ## S11 -/

/-- The state and step of every unit, from the plan (R618). -/
def applyPlan : List Nat → State → State
  | [], s => s
  | u :: t, s =>
    let p := Tbl.get {} s.mram.curPlan.units u
    let s1 := (s.setUnit u (if p.st = 0 then .spare else if p.st = 2 then .retired else .inService)).setStep u p.step
    applyPlan t (s1.updUnit u (fun x => { x with drained := p.slack, vreq := p.vreq, entry := p }))

/-- A plan from the factory map in OTP (R618). -/
def State.factoryPlan (s : State) : State :=
  let units : Tbl PlanUnit := (List.range 151).foldl (fun t u =>
    if s.otp.retired.contains u then Tbl.set {} t u { st := 2, reason := 4 }
    else if s.otp.spares.contains u then Tbl.set {} t u { st := 0 } else t) []
  { s with
    mram := s.mram.putPlan { vcoreMv := 800, units := units }
    plb := { s.plb with factory := true } }

def putReadings : List (Nat × Int × Int) → State → State
  | [], s => s
  | (u, sl, t) :: r, s => putReadings r (s.putInsitu u sl t)

/-- A unit has a reading below M = 45 ps. -/
def lowReading (r : Nat × Int × Int) : Bool := tempOk r.2.2 && decide (s105 r.2.1 r.2.2 < 45)

/-- Derates one unit at once, with its record. -/
def State.derateNow (s : State) (u : Nat) : State :=
  let f := min 2 ((s.unit u).step + 1)
  let s1 := (s.setStep u f).planUnit u (fun p => { p with step := f, tDerate := (s.bkp.rtc >>> 15).setWidth 32 })
  s1.devLogOther (BitVec.ofNat 16 u) (unitDetail u 1 1 0)

/-- The re-plan of S11, which ends before READY: no unit carries work yet. -/
def State.planAtStart (s : State) : State :=
  let (der, ret, v, again) := s.planNow
  let s1 := retireUnits 1 ret (der.foldl (fun x u => x.derateNow u) s)
  let s2 := { s1 with
    pwr := { s1.pwr with vcoreTarget := v, vcoreMeas := v }
    plb := { s1.plb with vcoreMv := v, retryDue := again, derated := der.length, retiredCnt := ret.length } }
  s2.writePlan false

/-- The Putty set of the started image (R594). -/
def State.startPutty (s : State) (b : List Byte) : State :=
  if b.isEmpty then s
  else
    match s.puttyErr b 0 b.length with
    | some e => (s.devLogOther 0xFFFF e.1.toNat).devStatus
    | none =>
      let p := Putty.ofBytes b
      (List.range 36).foldl (fun x n => x.updLath n p.into) (s.raisePutty p.ver)

/-- Known-answer tests of S11 that failed (R613). -/
def failKats : List (Nat × Nat) → State → State
  | [], s => s
  | (u, v) :: t, s => failKats t ((s.putResult u 2 v).report (selfCheck u) (recUnit u).unit)

/-- Conditions that stand at the start are reported, and alarms of DUSTSHEET are carried out (R480, R498, R503,
R547). -/
def State.standing (s : State) : State :=
  let s0 := if s.lcy.resumed then ({ s with lcy := { s.lcy with resumed := false } }).report 674 0 else s
  let s1 := if s0.pwr.vinWarn then s0.reportHeld 512 7 else s0
  let l := s1.pwr.dustAlarms
  let s2 := { s1 with pwr := { s1.pwr with dustAlarms := [] } }
  l.foldl (fun x i => x.carryOut i (if i = 18 then 0 else 2)) s2

/-- S11: Horrov starts. -/
def State.horrovUp (s : State) (inp : StartIn) (k : Nat) : State :=
  let s0 := { s with boot := { s.boot with image := k } }
  let s1 := if s0.mram.curPlan.valid then s0 else s0.factoryPlan
  let s2 := applyPlan allUnits s1
  let s3 := { s2 with plb := { s2.plb with vcoreMv := s2.pwr.vcoreTarget, running := 0xFF } }
  let s4 := putReadings inp.slack s3
  let s5 := if inp.slack.any lowReading then s4.planAtStart else s4
  let s6 := (s5.startPutty (((s5.flashSlot k).map (fun i => i.putty)).getD [])).capPhases
  failKats inp.katFail s6.standing

/-- A start-bound cause, or a rank of ZEROIZE_ALL or above, before READY (R581). -/
def State.resetFault (s : State) : Bool :=
  decide (6 ≤ s.heldRank) || s.scr.recs.any (fun r => r.startBound)

/-- S12 (R584, R591, R593): READY. -/
def State.readyUp (s : State) (inp : StartIn) : State :=
  let b := s.bootRec
  let k := s.boot.image
  let svn := ((s.flashSlot k).map (fun i => i.svn)).getD 0
  let own : Bool := k == b.active || b.trial == k + 1
  let min1 : W32 := if 2 ≤ s.lcy.st ∧ own = true ∧ b.fwMinSvn.toNat < svn.toNat then svn else b.fwMinSvn
  let act := if b.trial = 0 then b.active else b.trial - 1
  let s1 := if act = b.active ∧ b.trial = 0 ∧ min1 = b.fwMinSvn then s
    else s.writeBoot (fun r => { r with active := act, trial := 0, fwMinSvn := min1 })
  let s2 := (s1.atStep 12).updFn 0 (fun f => { f with rrs := false })
  let s3 := { s2 with
    mbx := { s2.mbx with ready := true }
    boot := { s2.boot with startFails := 0, startTime := inp.startTime }
    pwr := { s2.pwr with wakeOut := false } }
  if s3.plb.factory then s3.startCycle else s3

/-! ## The start S1-S12 (R580, R583) -/

/-- What the board has put into its flash (R587). -/
def State.boardFlash (s : State) (inp : StartIn) : State :=
  let put := fun (o : Option (List Byte)) (old : Option Image) =>
    match o with
    | some b => some (Image.ofBytes b)
    | none => old
  { s with boot := { s.boot with flashA := put inp.slotA s.boot.flashA, flashB := put inp.slotB s.boot.flashB } }

/-- S3, S4 and S6 run once and Undercoat follows: the third failed start in a row, or the strap RECOVERY (R583, R586).
With the strap, a failing S3 is a failed start. -/
def State.limp (s : State) (inp : StartIn) (strap : Bool) : State :=
  let reason : W16 := if strap then 0x0301 else s.boot.lastReason
  let s3 := s.atStep 3
  if inp.fail = some 2 then
    if strap then s3.failedStart 2
    else ({ s3 with lcy := { s3.lcy with st := 0xFF } }).enterUndercoat reason
  else
    let (s4, ok) := (s3.seamUp.atStep 4).readOtp
    if strap = true ∧ inp.fail = some 3 then s4.failedStart 3
    else if s4.lcy.st = 5 then s4.scrapStart
    else if ok = false ∨ inp.fail = some 3 then s4.enterUndercoat reason
    else
      match (s4.atStep 6).backupUp with
      | none => (s4.atStep 6).enterUndercoat reason
      | some s6 => s6.enterUndercoat reason

/-- S1 and S2. -/
def State.stage1 (s : State) (inp : StartIn) : Start := do
  let s1 ← (s.boardFlash inp).tryStep inp 1 1
  let s2 := { s1.atStep 2 with boot := { (s1.atStep 2).boot with bootSel := inp.bootSel } }
  if inp.bootSel = 3 then .error (s2.limp inp true)
  else if 3 ≤ s2.boot.startFails then .error (s2.limp inp false)
  else .ok s2

/-- S3 to S6. -/
def State.stage2 (s : State) (inp : StartIn) : Start := do
  let s3 ← s.tryStep inp 3 2
  let s4 ← s3.seamUp.tryStep inp 4 3
  let (s5, ok) := s4.readOtp
  if ok = false then .error (s5.enterUndercoat 0x0201)
  else if s5.lcy.st = 5 then .error s5.scrapStart
  else do
    let s6 ← s5.tryStep inp 5 4
    let s7 := (s6.gritUp inp).atStep 6
    match s7.backupUp with
    | none => .error (s7.enterUndercoat 0x0204)
    | some s8 => .ok s8

/-- S7 to S9. -/
def State.stage3 (s : State) : Start :=
  let due : Bool := s.markValid && s.curMark.step != 6 && s.curMark.dst != 5
  let s7 := { s.atStep 7 with lcy := { s.lcy with resumed := due } }
  match s7.resumeLife with
  | none => .error (s7.enterUndercoat 0x0201)
  | some t =>
    -- a resumed transition has closed the debug scope
    let s8 := ((if 2 ≤ t.lcy.st then t.closeDebug else t).fillStage2).atStep 8
    match s8.bootRecUp with
    | none => .error (s8.enterUndercoat 0x0205)
    | some u =>
      match (u.atStep 9).keysUp with
      | (s9, some r) => .error (s9.enterUndercoat r)
      | (s9, none) => .ok s9

/-- S10 to S12. -/
def State.stage4 (s : State) (inp : StartIn) : Start :=
  match (s.atStep 10).selectImage inp with
  | (s10, none) => .error (s10.failedStart (if inp.flash then 6 else 5))
  | (s10, some k) => do
    let s11 ← s10.tryStep inp 11 8
    let s12 := s11.horrovUp inp k
    if s12.resetFault then .error (s12.failedStart 8)
    else if inp.ready then .ok (s12.readyUp inp)
    else .error s12

/-- A start from S1 to READY, Undercoat, a failed start, or the step at which it stands still. -/
def State.runStart (s : State) (inp : StartIn) : State :=
  let r : Start := do
    let s1 ← s.stage1 inp
    let s2 ← s1.stage2 inp
    let s3 ← s2.stage3
    s3.stage4 inp
  match r with
  | .ok t => t
  | .error t => t

/-! ## The power sequence (R575-R577) -/

/-- What step P`k` does when it reports ready. -/
def State.powerStep (s : State) (k : Nat) : State :=
  match k with
  | 5 =>
    let v := if s.mram.curPlan.valid then s.mram.curPlan.vcoreMv else 800
    { s with pwr := { s.pwr with vcoreTarget := v, vcoreMeas := v, phases := 24 } }
  | 9 => { s with pwr := { s.pwr with
      rootLock := true, refclkOk := true, pcieRefOk := true, sdLock := 0xF, sdRefOk := 0xF } }
  | _ => s

/-- P10: the compute die is released, once both reset balls are high (R645), and Primer starts. -/
def State.release (s : State) (inp : StartIn) : State :=
  let s1 := { s with pwr := { s.pwr with st := .run, step := 0, seqUs := inp.seqUs, failRow := 0, tries := 0 } }
  s1.runStart inp

/-- Runs the steps from P`k` on; it stands at the step at which the outside stalls, and at P10 while a reset ball is
low. -/
def runSeq : Nat → Nat → StartIn → State → State
  | 0, _, _, s => s
  | fuel + 1, k, inp, s =>
    let s1 := { s with pwr := { s.pwr with st := .sequencing, step := k, tries := 0 } }
    if inp.stall = some k then s1
    else if k = 10 then (if s1.boot.resetHeld then s1 else s1.release inp)
    else runSeq fuel (k + 1) inp (s1.powerStep k)

/-- R579: VIN is applied, or has returned. -/
def execColdStart (inp : StartIn) (s : State) : Host.Outcome State Fault Refusal :=
  if s.pwr.st = .off ∨ s.pwr.st = .backup then
    let s1 := s.computeReset .sequencing
    let s2 := { s1 with
      pwr := { s1.pwr with vin := true, vinWarn := false, ovShut := false, fromP5 := false, lastStart := if s.pwr.ovShut then 3 else 0 }
      scr := {}, jtag := {}, grt := {} }
    .next (runSeq 10 1 inp s2)
  else .next s

/-- R575: the step of the sequence that stood reports ready. -/
def execPowerStepReady (inp : StartIn) (s : State) : Host.Outcome State Fault Refusal :=
  if s.pwr.st = .sequencing ∧ 1 ≤ s.pwr.step then
    let k := s.pwr.step
    if k = 10 then .next (if s.boot.resetHeld then s else s.release inp)
    else .next (runSeq 10 (k + 1) inp (s.powerStep k))
  else .next s

/-- A sequence fails (R576, R577): rails off, the record, one failed start; after the third in a row the controller
stops. -/
def State.failSeq (s : State) : State :=
  let k := s.pwr.step
  let reason : W16 := BitVec.ofNat 16 (256 + k)
  let s1 := if 4 < k then s.putLog (s.heldRec reason.toNat) else s.holdLog reason.toNat
  let row := s.pwr.failRow + 1
  { s1 with
    boot := { s1.boot with lastReason := reason, startFails := min 15 (s1.boot.startFails + 1) }
    pwr := { s1.pwr with
      st := if 3 ≤ row then .stopped else .sequencing, step := 0, failed := satInc s1.pwr.failed, failRow := row, tries := 0,
      fromP5 := false, phases := 0, vcoreMeas := 0, rootLock := false, sdLock := 0 } }

/-- R576: a step reaches its timeout: it is run again, up to three times. -/
def execSeqStepTimeout (s : State) : Host.Outcome State Fault Refusal :=
  let k := s.pwr.step
  if s.pwr.st = .sequencing ∧ 1 ≤ k ∧ k ≤ 9 then
    let n := s.pwr.tries
    let s1 := { s with pwr := { s.pwr with lastFail := BitVec.ofNat 8 k, retries := min 3 (n + 1), tries := n + 1 } }
    .next (if n < 3 then s1 else s1.failSeq)
  else .next s

/-- The sequence runs again from P1. -/
def State.reseq (s : State) (inp : StartIn) : State :=
  let s1 := s.computeReset .sequencing
  runSeq 10 1 inp { s1 with grt := {}, pwr := { s1.pwr with lastStart := if s.pwr.lastStart = 3 then 3 else 0 } }

/-- R576: 100 ms after a failed sequence. -/
def execSequenceRestart (inp : StartIn) (s : State) : Host.Outcome State Fault Refusal :=
  if s.pwr.st = .sequencing ∧ s.pwr.step = 0 then .next (s.reseq inp) else .next s

/-! ## Resets (R579, R581) -/

/-- A warm reset: S1-S12; rails and custody state stay. While a ball is held low the compute die stays in reset. -/
def State.warmReset (s : State) (inp : StartIn) (held : Bool) : State :=
  let s1 := s.computeReset .run
  let s2 := { s1 with pwr := { s1.pwr with lastStart := 1 } }
  if held then s2 else s2.runStart inp

/-- A start-bound record has been quiet for the quiet period (R525). -/
def State.startBoundDue (s : State) : Bool :=
  s.scr.quietMs != 0 && decide (4 ≤ s.heldRank) && s.scr.recs.any (fun r =>
    r.startBound && decide (4 ≤ r.rank) && decide (r.last.toNat + msTicks s.scr.quietMs ≤ s.clk.toNat))

/-- R579: PERST_N or SYS_RST_N has been low for 1 µs and stays low (`held`), or has risen again; or the device resets
itself. What it does depends on the power state: SYS_RST_N ends the stop of R577, a rise is a wake source of DUSTSHEET,
and P10 waits for it. -/
def execWarmReset (src : ResetSrc) (held : Bool) (inp : StartIn) (s : State) : Host.Outcome State Fault Refusal :=
  match src with
  | .self =>
    if s.computeOn = true ∧ (s.lcy.resetDue = true ∨ s.boot.recoverReset = true ∨ s.startBoundDue = true) then
      .next (s.warmReset inp false)
    else .next s
  | _ =>
    let s1 := { s with boot := { s.boot with resetHeld := held }, jtag := { s.jtag with drive := jtagDrive s.jtag.ir held } }
    if s.computeOn then .next (s1.warmReset inp held)
    else
      match s.pwr.st with
      | .stopped => .next (if src = .sysRst then ({ s1 with pwr := { s1.pwr with failRow := 0 } }).reseq inp else s1)
      | .dustsheet => .next (if held then s1 else s1.wake 2)
      | .sequencing => .next (if s.pwr.step = 10 ∧ held = false then s1.release inp else s1)
      | _ => .next s1

/-- R478: 10 ms after a transition's response. -/
def execLcReset (inp : StartIn) (s : State) : Host.Outcome State Fault Refusal :=
  if s.lcy.resetDue then .next (s.warmReset inp false) else .next s

/-- R597: 10 ms after the response of `fw.recover`. -/
def execFwRecoverReset (inp : StartIn) (s : State) : Host.Outcome State Fault Refusal :=
  if s.boot.recoverReset then .next (s.warmReset inp false) else .next s

/-- R581: 1 000 ms have passed since the compute die was released. -/
def execStartTimeout (s : State) : Host.Outcome State Fault Refusal :=
  if s.pwr.st = .run ∧ 1 ≤ s.boot.step ∧ s.boot.step < 12 ∧ s.mbx.ready = false ∧ s.boot.hold = false then
    .next (s.failedStart 7)
  else .next s

/-- R581: the 100 ms hold after a failed start ends. -/
def execStartRetry (inp : StartIn) (s : State) : Host.Outcome State Fault Refusal :=
  if s.boot.hold = true ∧ s.boot.resetHeld = false then
    .next (({ s with boot := { s.boot with hold := false } }).runStart inp)
  else .next s

/-! ## VIN and VBAT (R499, R546) -/

/-- The rails are off: what the compute and custody dies and the power stage held is lost, MRAM, OTP and the flash
stay. -/
def State.powerOff (s0 : State) (keep : Bool) : State :=
  let s : State := if s0.lth.hss.any (fun e => e.2.started) then
      { s0 with mram := { s0.mram with res := Tbl.set {} s0.mram.res s0.mram.resHead {} } } else s0
  let s1 := s.computeReset .off
  let b := s.boot
  let boot : Boot :=
    { resetHeld := b.resetHeld, flashA := b.flashA, flashB := b.flashB, startFails := if keep then b.startFails else 0,
      lastReason := if keep then b.lastReason else 0 }
  let pwr : Pwr :=
    if keep then { s1.pwr with vin := false, ovShut := true, rails := [], phases := 0, vcoreTarget := 0, vcoreMeas := 0,
                               rootLock := false, refclkOk := false, pcieRefOk := false, sdLock := 0, sdRefOk := 0 }
    else { vin := false, vbat := s.pwr.vbat, heldLog := s.pwr.heldLog }
  let s2 := { s1 with boot := boot, pwr := { pwr with st := if s.pwr.vbat then .backup else .off, dustAlarms := [] },
                      scr := {}, jtag := {}, grt := {} }
  if s.pwr.vbat then s2 else { s2 with bkp := {} }

/-- The controller's record of a loss of VIN (log entry 43: the spec states no reason code for it). -/
def State.holdVin (s : State) (ov : Bool) : State :=
  { s with pwr := { s.pwr with heldLog := s.pwr.heldLog ++ [{ s.heldRec 0 with detail := Config.vinLogDetail ov }] } }

/-- R546: VIN falls below the lockout. -/
def execVinLoss (s : State) : Host.Outcome State Fault Refusal :=
  if s.pwr.vin then .next ((s.holdVin false).powerOff false)
  else if s.pwr.ovShut then
    .next { s with
      boot := { s.boot with startFails := 0, lastReason := 0 }
      pwr := { vin := false, vbat := s.pwr.vbat, heldLog := s.pwr.heldLog, st := s.pwr.st } }
  else .next s

/-- R546: VIN rises above the overvoltage shutdown. It has not been removed, so the controller keeps its counts. -/
def execVinOvervoltage (s : State) : Host.Outcome State Fault Refusal :=
  if s.pwr.vin then .next ((s.holdVin true).powerOff true) else .next s

/-- R499: VBAT falls below 2.2 V. While VIN is absent the backup domain is reset. -/
def execVbatLoss (s : State) : Host.Outcome State Fault Refusal :=
  let s1 := { s with pwr := { s.pwr with vbat := false } }
  if s.pwr.vin then .next s1
  else .next { s1 with bkp := {}, pwr := { s1.pwr with st := .off } }

/-- R644: VBAT is applied. While VIN is absent the backup domain starts from reset. -/
def execVbatApplied (s : State) : Host.Outcome State Fault Refusal :=
  let s1 := { s with pwr := { s.pwr with vbat := true } }
  if s.pwr.st = .off then .next { s1 with pwr := { s1.pwr with st := .backup }, bkp := {} }
  else .next s1

/-! ## DUSTSHEET (R570-R573) -/

/-- Jobs that still run 50 ms into an entry end with ST_ABORTED, DETAIL 5. -/
def endRunning : List Job → State → State
  | [], s => s
  | j :: t, s =>
    endRunning t (if j.st = .running ∨ j.st = .paused ∨ j.st = .suspended then s.failJob j.id stAborted 5 else s)

/-- A wake before AP3 abandons the entry: dispatch and fetch resume (R571). -/
def State.abandonDust (s : State) : State :=
  let s1 := { s with pwr := { s.pwr with st := .run, abandoned := true, lastWake := s.pwr.wakes, wakes := 0 } }
  s1.devStatus.dispatchAll.flowAll.assign

/-- Steps 2 to 4 of the entry (R571): the margin plan is written, the compute die's rails go off. -/
def State.enterDust (s : State) : State :=
  let s1 := s.writePlan false
  let s2 := s1.computeReset .dustsheet
  { s2 with
    pwr := { s2.pwr with ap := 3, dustMs := s.pwr.dustMs, phases := 0, vcoreMeas := 0, rootLock := false, pcieRefOk := false,
                         refclkOk := false, sdLock := 0 } }

/-- Nothing runs any more. -/
def State.noneRunning (s : State) : Bool :=
  s.que.jobs.all (fun j => !(j.st == .running || j.st == .paused || j.st == .suspended))

/-- The entry passes its abort points once no job runs. -/
def State.goDust (s : State) : State :=
  if s.pwr.wakes = 0 then s.enterDust else s.abandonDust

/-- R571: 50 ms into an entry. -/
def execDustJobTimeout (s : State) : Host.Outcome State Fault Refusal :=
  if s.pwr.st = .dustEntry then .next (endRunning s.que.jobs s).goDust else .next s

/-- R572: a DUST_PERIOD ends: the custody die samples. `out` is a sample outside a threshold. An entry whose jobs have
ended is in DUSTSHEET by then. -/
def execDustSample (out : Bool) (s : State) : Host.Outcome State Fault Refusal :=
  let s0 := if s.pwr.st = .dustEntry ∧ s.noneRunning = true then s.goDust else s
  if s0.pwr.st = .dustsheet then
    let s1 := { s0 with pwr := { s0.pwr with samples := satInc s0.pwr.samples } }
    .next (if out then s1.wake 4 else s1)
  else .next s0

/-- R573: a wake source ends DUSTSHEET and the resume runs from P5, or abandons its entry. -/
def execDustWake (inp : StartIn) (s : State) : Host.Outcome State Fault Refusal :=
  if s.pwr.wakes = 0 then .next s
  else if s.pwr.st = .dustEntry then .next s.abandonDust
  else if s.pwr.st = .dustsheet then
    let s1 := s.computeReset .sequencing
    let pwr : Pwr := { s1.pwr with
      lastWake := s.pwr.wakes, samples := s.pwr.samples, lastStart := 2, wakeOut := true, fromP5 := true, dustAlarms := s.pwr.dustAlarms }
    .next (runSeq 10 5 inp { s1 with pwr := pwr })
  else .next s

end Sys2Proof.Machine
end

