-- ==== Sys2Proof/Machine/ScrimRows.lean ====
section
/-!
DEFINITION. The rows of Scrim: a cause reported by its pair (R514, R517), broken wires (R515), the collector's own check
(R516), automatic exits (R525, R531-R533), Seam retransmissions (R534, R535) and the MRAM scrub (R650).
-/
namespace Sys2Proof.Machine

/-- A start-bound cause, or a rank of ZEROIZE_ALL or above, before READY is a failed start (R581). -/
def State.beforeReady (s : State) : State :=
  if s.boot.step = 11 ∧ s.mbx.ready = false ∧ s.resetFault = true then s.failedStart 8 else s

/-- The record of a custody-die or Seam cause whose repeat has passed closes (R521). -/
def State.repeated (s : State) (c unit : Nat) : State :=
  if c / 32 = 3 ∨ c / 32 = 4 then s.closeRetry { group := c / 32, unit := unit } else s

/-- A cause as its reporter gives it: one of a Lath engine is judged by the word at which it arises (R229, R230). -/
def State.reportCause (s : State) (c unit : Nat) : State :=
  if c / 32 = 10 ∧ c % 32 ≤ 12 ∧ unit < 36 then s.engCause unit (c % 32) else s.report c unit

/-- R514, R517: the pair of cause `c` changes. With `stays` it goes to error and stays there; without it, a pair at error
returns to normal, and a pair at normal reports one occurrence that ends. A cause of the custody die crosses Seam (R17). -/
def execCauseReport (c unit : Nat) (stays : Bool) (s : State) : Host.Outcome State Fault Refusal :=
  if s.scrimOn = false ∨ (s.seamDown = true ∧ c / 32 = 4) then .next s
  else
    let held : Bool := s.scr.asserted.contains (c, unit)
    if held then .next (if stays then s else (s.assertCause c unit false).repeated c unit)
    else if causeKnown c = false ∨ c % 32 = 31 then .next s
    else if stays then .next ((s.assertCause c unit true).reportCause c unit).beforeReady
    else .next ((s.reportCause c unit).repeated c unit).beforeReady

/-- R515: the pair of bit `b` of group `g` at `unit` is a broken wire. -/
def execWire (g b unit : Nat) (s : State) : Host.Outcome State Fault Refusal :=
  if s.scrimOn = true ∧ (causeBits g).contains b = true then
    .next (((s.assertCause (32 * g + 31) unit true).occur
      { cause := 32 * g + 31, unit := unit, rank := wireRank g, wire := some b }).beforeReady)
  else .next s

/-- R516: the copies of the collector disagree. -/
def execScrCheck (s : State) : Host.Outcome State Fault Refusal :=
  if s.scrimOn then .next (s.report 1 0).beforeReady else .next s

/-! ## Automatic exits -/

/-- The open record of a unit, or the device record. -/
def State.recordOf (s : State) (w : UnitId) (dev : Bool) : Option Rec :=
  if dev then s.scr.devRec else s.scr.recs.find? (fun r => r.who == w && !r.dev)

/-- Every cause of the record is deasserted: those of its own unit, or of any unit for the device record. -/
def State.allQuiet (s : State) (r : Rec) : Bool :=
  s.scr.asserted.all (fun p => !(r.nums.contains p.1 && (r.dev || p.2 == r.who.unit)))

/-- Automatic exits within the preceding hour (R532). -/
def State.exitsInHour (s : State) : Nat := (s.scr.exits.filter (fun t => s.clk.toNat < t.toNat + secTicks 3600)).length

/-- Counts an automatic exit, keeping those of the hour. -/
def State.countExit (s : State) : State :=
  let l := s.scr.exits.filter (fun t => s.clk.toNat < t.toNat + secTicks 3600)
  { s with scr := { s.scr with total := satInc s.scr.total, exits := l ++ [s.clk] } }

/-- R525, R531, R532: the quiet period of a held record has passed. A start-bound record ends in a warm reset. The eighth
exit of an hour raises AUTO_LIMIT in its place, a cause of the record that stays open (log entry 88): it has no automatic exit. -/
def execAutoExit (w : UnitId) (dev : Bool) (inp : StartIn) (s : State) : Host.Outcome State Fault Refusal :=
  match s.recordOf w dev with
  | none => .next s
  | some r =>
    if r.rank < 4 ∨ 6 ≤ r.rank ∨ s.scr.terminal = true ∨ s.scr.quietMs = 0 ∨ r.nums.contains 5 = true ∨
        (r.startBound = false ∧ s.allQuiet r = false) then .next s
    else if 7 ≤ s.exitsInHour then .next ((s.latchCause 5).mergeInto r { cause := 5, rank := 4 })
    else if r.startBound then .next (s.countExit.warmReset inp s.boot.resetHeld)
    else .next (s.countExit.closeRec r true)

/-! ## Seam and MRAM -/

def seamAgain (c : Nat) : Nat → State → State
  | 0, s => s
  | n + 1, s => seamAgain c n (s.report c 0)

/-- R534, R535: a Seam transfer fails its CRC, or its tag (`auth`), at `fails` attempts in a row. Each failure is an
occurrence, the later ones merged. After the fourth SEAM_PERSIST holds the device; otherwise the transfer has been
delivered and the record closes. -/
def execSeamRetransmit (auth : Bool) (fails : Nat) (s : State) : Host.Outcome State Fault Refusal :=
  if s.scrimOn = false ∨ fails = 0 then .next s
  else
    let s1 := seamAgain (if auth then 97 else 96) (min fails 4) s
    if 4 ≤ fails then
      let s2 := s1.reportHeld 98 0
      .next ({ s2 with mram := { s2.mram with seamFail := some s2.bkp.rtc } }).beforeReady
    else .next (s1.closeRetry { group := 3, unit := 0 }).beforeReady

/-- R650: a scrub of the MRAM has corrected `corr` words; `unc` could not be corrected. -/
def execMramScrub (corr unc : Nat) (s : State) : Host.Outcome State Fault Refusal :=
  if s.scrimOn && !s.seamDown then
    let s1 := if corr = 0 then s else s.report 128 0
    .next (if unc = 0 then s1 else s1.report 129 0)
  else .next s

end Sys2Proof.Machine
end

