-- ==== Sys2Proof/Machine/Views.lean ====
section
/-!
DEFINITION. The registers as the host reads them: the value of every register of PF BAR0 (R35), of VF BAR0 (R39) and of
the MSI-X table (R40), as a function of the state.
-/
namespace Sys2Proof.Machine

/-- What an aligned offset holds: a register of 32 or 64 bits that begins here, reserved bytes that read 0 without a
record, or no register. -/
inductive Reg where
  | w32 (v : Nat)
  | w64 (v : Nat)
  | zero
  | hole
deriving DecidableEq, Repr

/-- A field of `n` bits at bit `lo`. -/
def bits (lo n v : Nat) : Nat := (v % 2 ^ n) * 2 ^ lo

def bit (lo : Nat) (b : Bool) : Nat := if b then 2 ^ lo else 0

/-- The 64-bit words of a wide register, by word. -/
def Reg.words (l : List Nat) (k : Nat) : Reg :=
  match l[k / 8]? with
  | some v => if k % 8 = 0 then .w64 v else .hole
  | none => .hole

/-! ## Function registers -/

def State.vFnStatus (s : State) : Nat :=
  let p := s.pcie
  bit 31 p.linkUp + bit 30 p.flit + bits 26 4 p.speed + bits 21 5 p.width + bit 20 p.degraded + bit 19 p.ari +
    bit 18 p.vfEn + bit 17 p.vfLimited + bit 16 (s.fn 0).flr + bits 8 8 s.vfs.length + (s.fn 0).gen.toNat

/-- FN_TOK_POOL: PF_INFLIGHT counts the jobs of PF0 and of Horrov. -/
def State.vTokPool (s : State) : Nat :=
  bits 16 16 s.quotaSum + bits 0 13 (s.que.jobs.filter (fun j => j.fn == 0)).length

def State.vVfState (s : State) (v : Nat) : Nat :=
  let f := s.fn v
  bits 48 8 f.gen.toNat + bits 45 3 f.st.code + bits 32 13 f.quota + bits 16 13 f.dispatched +
    bits 0 5 (s.queuesOf v).length

def State.fnReg (s : State) (o : Nat) : Reg :=
  let p := s.pcie
  if o = 0x00 then .w32 (bits 16 16 Config.deviceCode.toNat + bits 8 8 Config.stepping.toNat)
  else if o = 0x04 then .w32 s.vFnStatus
  else if o = 0x08 then .w32 s.vTokPool
  else if o = 0x10 then .w32 p.event.toNat
  else if 0x20 ≤ o ∧ o < 0x40 ∧ o % 8 = 0 then .w64 (bits 0 64 (p.flrDone >>> (64 * ((o - 0x20) / 8))).toNat)
  else if o = 0x40 then .w32 p.rxErr.toNat
  else if o = 0x44 then .w32 p.replay.toNat
  else if o = 0x48 then .w32 p.recovery.toNat
  else if o = 0x4C then .w32 p.cplTimeout.toNat
  else if o = 0x50 then .w32 p.poison.toNat
  else if o = 0x54 then .w32 p.ur.toNat
  else if o = 0x1000 then .w64 0
  else if 0x1000 < o ∧ o < 0x1800 ∧ o % 8 = 0 then .w64 (s.vVfState ((o - 0x1000) / 8))
  else .hole

/-! ## Queue pages -/

def QErr.code : QErr → Nat
  | .none => 0
  | .overflow => 1
  | .fetch => 2
  | .config => 3

def Inval.code : Inval → Nat
  | .idle => 0
  | .held => 2
  | .started => 3
  | .notPosted => 4
  | .busy => 5

/-- Offset `o` of the page of queue `q`. The offsets 0x04C-0x7FF and 0xA00-0xBFF decode and hold no register. -/
def State.queueReg (s : State) (q o : Nat) : Reg :=
  let x := s.queue q
  if o = 0x00 then .w32 x.pi.toNat
  else if o = 0x04 then .w32 (bits 16 8 (s.fn x.fn).gen.toNat + x.ci.toNat)
  else if o = 0x08 then .w32 (bits 24 3 x.inval.code + x.invalIndex.toNat)
  else if o = 0x0C then .w32 (bits 29 3 x.st.code + bits 27 2 x.err.code + bits 16 6 x.ahead + x.fetch.toNat)
  else if o = 0x10 then .w32 (bit 1 x.irqEn + bit 0 x.en)
  else if o = 0x14 then .w32 (bits 16 10 x.timer + bits 0 8 x.count)
  else if o = 0x18 then .w32 (bits 0 4 x.sizeLog2)
  else if o = 0x20 then .w64 x.base.toNat
  else if o = 0x28 then .w64 x.ciwb.toNat
  else if o = 0x40 then .w32 (bits 24 6 x.slot + bits 20 4 x.cls + bits 12 8 x.fn + bits 0 12 q)
  else if o = 0x48 then .w32 x.jobsCnt.toNat
  else if 0x800 ≤ o ∧ o < 0xA00 then .zero
  else .hole

/-! ## Mailboxes -/

def SlotSt.code : SlotSt → Nat
  | .free => 0
  | .queued => 1
  | .running => 2
  | .done => 3

/-- The dword at `o` of frame area `n`: the bytes that the host and the responses wrote there last (R116, R125). A byte
that nothing has written is a free value. -/
def frameReg (n : Nat) (m : MSlot) (o : Nat) : Reg :=
  .w32 (ofLe ((List.range 4).map (fun i => (Tbl.get none m.area (o + i)).getD (Config.frameByte n (o + i)))))

def State.vMbxStatus (s : State) : Nat :=
  let m := s.mbx
  bit 31 m.ready + bit 30 m.undercoat + bit 29 m.expert + bit 28 m.txn.isSome + bits 4 4 m.running +
    bits 0 4 m.order.length

def State.mboxReg (s : State) (o : Nat) : Reg :=
  if 0x1000 ≤ o then frameReg (o / 0x1000) (s.mslot (o / 0x1000)) (o % 0x1000)
  else if o = 0x00 then .w32 0
  else if o = 0x04 then .w32 s.vMbxStatus
  else if o = 0x08 then .w32 ((List.range 16).foldl (fun a n => if n = 0 then a else a + bits (2 * n) 2 (s.mslot n).st.code) 0)
  else if o = 0x0C then .w32 ((List.range 16).foldl (fun a n => if n = 0 then a else a + bit n ((s.mslot n).st == .done)) 0)
  else if o = 0x10 then .w32 (bit 0 s.mbx.irqEn)
  else if o = 0x18 then
    match s.mbx.txn with
    | some t => .w64 (bits 32 32 t.id.toNat + bits 16 16 (min t.staged.length 65535) + bits 0 16 t.remain)
    | none => .w64 0
  else .hole

def State.vmbReg (s : State) (v o : Nat) : Reg :=
  let m := s.vmbx v
  if 0x40 ≤ o then frameReg (16 + v) m.slot (o - 0x40)
  else if o = 0x00 then .w32 0
  else if o = 0x04 then .w32 m.slot.st.code
  else if o = 0x08 then .w32 (bit 0 (m.slot.st == .done))
  else if o = 0x0C then .w32 (bit 0 m.irqEn)
  else .zero

/-! ## Scrim and the event queue -/

def State.vScrState (s : State) : Nat :=
  bit 31 s.held + bits 28 3 s.heldRank +
    bit 27 (s.scr.recs.any (fun r => r.startBound && decide (4 ≤ r.rank)) ||
      (match s.scr.devRec with | some r => r.startBound && decide (4 ≤ r.rank) | none => false)) +
    bit 26 (s.scr.terminal || s.scr.halted) + bits 16 7 s.scr.recs.length

/-- The rank fields of causes 8 i to 8 i + 7; a cause that does not exist reads 0. -/
def State.vRanks (s : State) (i : Nat) : Nat :=
  (List.range 8).foldl (fun a j =>
    let c := 8 * i + j
    if causeKnown c then a + bits (4 * j) 3 (s.rankOf c) + bit (4 * j + 3) (rankFixed c) else a) 0

def State.scrReg (s : State) (o : Nat) : Reg :=
  if o = 0x00 then .w32 s.vScrState
  else if o = 0x04 then .w32 (bits 16 2 s.scr.profile + bits 0 16 s.scr.quietMs)
  else if o = 0x08 then .w64 (bits 32 4 (min 15 s.exitsInHour) + s.scr.total.toNat)
  else if 0x100 ≤ o ∧ o < 0x160 then .w32 (s.cause ((o - 0x100) / 4)).toNat
  else if 0x200 ≤ o ∧ o < 0x380 then .w32 (s.vRanks ((o - 0x200) / 4))
  else .hole

/-- The record that EVQ_REC_LO returns: the highest rank, and among equals the one that entered first (R537). -/
def evqBest : List EvRec → Option EvRec
  | [] => none
  | e :: t =>
    match evqBest t with
    | some b => if e.rc.rank < b.rc.rank then some b else some e
    | none => some e

def EvRec.lo (e : EvRec) : Nat :=
  let r := e.rc
  bit 63 true + bit 62 e.lost + bits 60 2 e.rtype + bits 57 3 r.rank + bit 56 r.perm + bit 55 e.auto +
    bits 45 10 r.cause + bits 40 5 (if e.rtype = 2 then r.wire.getD 0 else 0) + bits 28 12 (if r.dev then 0 else r.who.unit) +
    bits 20 8 r.merges + bit 19 r.dev

def EvRec.hi (e : EvRec) : Nat := bits 32 32 e.rc.causes.toNat + bits 0 32 e.rc.time.toNat

def State.evqReg (s : State) (o : Nat) : Reg :=
  if o = 0x00 then .w32 (bit 16 s.scr.evqIrqEn + bits 0 9 s.scr.evqLevel)
  else if o = 0x04 then
    .w32 (bit 31 (decide (256 ≤ s.scr.evq.length)) + bit 30 s.scr.overrun + bits 16 9 s.scr.evq.length + s.scr.lost.toNat)
  else if o = 0x10 then .w64 (match evqBest s.scr.evq with | some e => e.lo | none => 0)
  else if o = 0x18 then .w64 s.scr.hiLatch.toNat
  else .hole

/-! ## SA events and Sponge status -/

def SaEv.view (e : SaEv) (overflow : Bool) : Nat :=
  bit 63 true + bit 62 overflow + bits 48 4 e.type + bits 47 1 e.dir + bits 46 1 e.slot + bits 44 2 e.an.toNat +
    bits 30 14 e.sa + e.time.toNat

def State.saevReg (s : State) (o : Nat) : Reg :=
  if o = 0x00 then .w64 (match s.rdr.saev with | e :: _ => e.view s.rdr.saevOverflow | [] => 0)
  else if o = 0x08 then .w32 (bits 16 16 s.rdr.saevLost.toNat + bits 0 11 s.rdr.saev.length)
  else .hole

def State.spgReg (s : State) (o : Nat) : Reg :=
  if o = 0x00 then
    .w32 (bits 16 9 (s.spg.ctxs.filter (fun kc => kc.2.alloc)).length + bit 15 s.spg.noSave + bits 0 7 s.spg.saved.length)
  else if o = 0x04 then .w32 s.spg.yieldCnt.toNat
  else if 0x10 ≤ o ∧ o < 0x50 then .w32 (if (s.cls ((o - 0x10) / 4)).bulk then 128 else 64)
  else .hole

/-! ## Bond, life cycle, tamper -/

/-- Allocated slots of a range. -/
def State.bndIn (s : State) (lo hi : Nat) : Nat :=
  (s.bnd.slots.filter (fun kb => kb.2.st == .allocated && decide (lo ≤ kb.1 ∧ kb.1 < hi))).length

def State.bndReg (s : State) (o : Nat) : Reg :=
  if o = 0x00 then .w64 (bits 36 18 s.bndAwait + bits 18 18 s.bndAlloc + bits 0 18 s.bndFree)
  else if o = 0x08 then
    .w64 (bits 31 17 (s.bndIn 16384 131072) + bits 17 14 (s.bndIn 8208 16384) + bits 0 14 (s.bndIn 0 8192))
  else if o = 0x10 then .w32 s.bnd.fullCnt.toNat
  else .hole

def State.lcyReg (s : State) (o : Nat) : Reg :=
  if o = 0x00 then
    .w32 (bits 29 3 s.lcy.st + bit 28 s.lcy.pending + bits 25 3 (if s.lcy.pending then s.lcy.dst else 0) +
      bits 22 3 s.lcy.step + bits 12 4 (s.otp.lcw.filter (fun w => w != 0)).length +
      bits 8 4 (s.otp.lcw.filter (fun w => lcwKind w == .dead)).length + bits 4 4 (s.otp.dusCand.getD 15))
  else if o = 0x08 then .w64 (bits 32 32 s.lcy.notAfter.toNat + s.lcy.scope.toNat)
  else .hole

def State.tmpReg (s : State) (o : Nat) : Reg :=
  let t := s.tmp
  if o = 0x00 then
    .w64 (bits 32 32 t.sticky.toNat + bit 31 t.bkekValid + bit 30 t.rtcValid + bit 29 t.testing + bit 28 t.reinit +
      bits 16 5 t.last + t.alarms.toNat)
  else if o = 0x08 then .w64 t.lastStamp.toNat
  else if o = 0x10 then .w64 (bits 40 4 t.swNormal.toNat + bits 32 8 t.enable.toNat + t.erase.toNat)
  else .hole

/-! ## Float, power, start-up, Plumb -/

def State.fltReg (s : State) (o : Nat) : Reg :=
  let f := s.flt
  if o = 0x00 then .w64 (bits 48 12 f.inTransit + bits 32 12 f.granted + bits 16 12 f.free + bits 0 12 f.lb)
  else if o = 0x08 then
    .w32 (bit 31 f.limit + bit 30 f.thermal + bit 29 f.phaseCap.isSome + bit 28 (decide (f.target < f.lb)) +
      bits 16 11 f.target + bits 0 16 (min 65535 f.reqs.length))
  else if o = 0x10 then
    .w64 (bits 48 12 (sumKind .sponge f.grants) + bits 36 12 (sumKind .hawk f.grants) + bits 24 12 (sumKind .lath f.grants) +
      bits 12 12 (sumKind .renderLa f.grants) + bits 0 12 (sumKind .standing f.grants))
  else if o = 0x18 then
    .w64 (bits 48 16 f.capSponge + bits 32 16 f.capHawk + bits 16 16 f.capLath + bits 0 16 f.capRender)
  else if o = 0x20 then .w32 (bits 12 3 f.profile + bits 0 11 f.configured)
  else if o = 0x28 then .w32 f.waitCnt.toNat
  else if o = 0x2C then .w32 f.limitCnt.toNat
  else .hole

def State.pwrReg (s : State) (o : Nat) : Reg :=
  let p := s.pwr
  if o = 0x00 then
    .w32 (bits 29 3 p.st.code + bits 26 3 p.ap + bit 25 p.abandoned + bits 20 5 p.lastWake.toNat +
      bits 16 4 p.lastStart + p.samples.toNat)
  else if o = 0x08 then
    .w64 (bits 56 8 p.lastFail.toNat + bits 52 4 p.retries + bits 32 16 p.failed.toNat + p.seqUs.toNat)
  else .hole

def State.vBoot (s : State) : Nat :=
  let b := s.boot
  bits 48 16 (if s.mbx.undercoat then b.reason.toNat else 0) + bits 40 8 b.lastReason.toNat + bits 36 4 b.startFails +
    bits 34 2 b.bootSel.toNat + bit 33 s.mbx.undercoat + bit 32 (decide (12 ≤ b.step) && !s.mbx.undercoat) +
    bits 28 4 b.step + bits 26 2 b.image + bits 24 2 s.bootRec.pending + b.startTime.toNat

/-- Units of a kind that stand as spares. -/
def State.sparesLeft (s : State) (u : Nat) : Nat := (sparesOf s u).length

def State.plbReg (s : State) (o : Nat) : Reg :=
  let p := s.plb
  if o = 0x00 then
    .w64 (bits 44 10 p.vcoreMv + bit 43 p.replan + bit 42 p.cycle + bit 41 p.factory + bits 24 16 (i16 p.lowSlack) +
      bits 16 8 p.lowUnit + bits 0 16 s.mram.curPlan.seq.toNat)
  else if o = 0x08 then
    .w64 (bits 40 10 (s.capacity 89 8 8) + bits 30 10 (s.capacity 81 8 8) + bits 20 10 (s.capacity 72 9 8) +
      bits 10 10 (s.capacity 36 36 32) + bits 0 10 (s.capacity 0 36 32))
  else if o = 0x10 then
    .w32 (bits 24 8 ((List.range 151).filter (fun u => (s.unit u).st == .retired)).length +
      bits 16 8 ((List.range 151).filter (fun u => (s.unit u).step != 0)).length +
      bits 10 1 (s.sparesLeft 72) + bits 7 3 (s.sparesLeft 36) + bits 4 3 (s.sparesLeft 0))
  else if o = 0x18 then
    .w32 (bits 24 8 p.lastUnit + bits 22 2 p.lastResult + bits 16 6 p.lastVector + bits 8 8 p.running + bits 0 7 s.requested)
  else .hole

/-- The device status page group 0x0120_0000-0x012F_FFFF, by its 4 KiB pages. -/
def State.devReg (s : State) (o : Nat) : Reg :=
  let k := o % 0x1000
  match o / 0x1000 with
  | 0 => s.fnReg o
  | 1 => s.fnReg o
  | 2 => s.scrReg k
  | 3 => s.evqReg k
  | 4 => s.saevReg k
  | 5 => s.spgReg k
  | 6 => s.bndReg k
  | 7 => s.lcyReg k
  | 8 => s.tmpReg k
  | 9 => s.fltReg k
  | 10 => s.pwrReg k
  | 11 => if k = 0 then .w64 s.vBoot else .hole
  | 12 => s.plbReg k
  | _ => .hole

/-! ## Counters (R201-R203) -/

def EpSt.code : EpSt → Nat
  | .empty => 0
  | .staged => 1
  | .current => 2
  | .drainAccept => 3
  | .draining => 4

/-- SA_SLOTS; the SEEN bits are those of a receive context. -/
def Sa.slots (x : Sa) (rx : Bool) : Nat :=
  bit 13 (rx && x.ep1.seen) + bits 11 2 x.ep1.an.toNat + bits 8 3 x.ep1.st.code +
    bit 5 (rx && x.ep0.seen) + bits 3 2 x.ep0.an.toNat + bits 0 3 x.ep0.st.code

/-- The counter block (R201-R203). Reserved words inside an SA's block, and reserved words behind a sub-port's counters, are
taken as registers that read 0, so that R15 records no access to them, which the spec leaves open (DESIGN CHOICE, log entry
101). -/
def State.counterReg (s : State) (o : Nat) : Reg :=
  if o < 0x10000 then
    let k := o % 0x100
    let p := o / 0x1000
    let i := (o / 0x100) % 16
    if 4 ≤ i then .hole
    else if 0x98 ≤ k then .zero
    else if k % 8 = 0 then
      .w64 (bits 0 64 (if i < subCount (s.pair (p % 8)).mode then Tbl.get 0 (s.subPort p i).cnt (k / 8) else 0))
    else .hole
  else if 0x100000 ≤ o ∧ o < 0x200000 then
    let x := s.sa 0 ((o - 0x100000) / 0x40)
    Reg.words [x.protFrames, x.protOctets, x.ep0.frames, x.ep1.frames, x.pnExhausted, 0, x.slots false, 0] (o % 0x40)
  else if 0x200000 ≤ o ∧ o < 0x400000 then
    let x := s.sa 1 ((o - 0x200000) / 0x80)
    Reg.words [x.ep0.frames, x.ep1.frames, x.ep0.invalid, x.ep1.invalid, x.late, x.notUsing, x.octValidated, x.octDecrypted,
      x.padErr, x.dummy, 0, 0, 0, 0, 0, x.slots true] (o % 0x80)
  else .hole

/-! ## Expert diagnostic windows -/

def RndSt.code : RndSt → Nat
  | .spare => 0
  | .inline => 1
  | .lookaside => 2
  | .draining => 3
  | .retired => 4
  | .test => 6

def State.renderReg (s : State) (n o : Nat) : Reg :=
  let r := s.rnd n
  let l := s.engLoad n
  let st := if (r.st = .inline ∨ r.st = .lookaside) ∧ Tbl.get false s.rdr.feedStall (n / 4) = true then 5 else r.st.code
  if o = 0 then
    .w32 (bits 29 3 st + bits 27 2 r.fstep + bits 24 3 (if r.st = .inline then r.pair else 0) +
      bits 23 1 (if r.st = .inline then r.dir else 0) + bits 19 4 l.1 + bits 0 15 l.2)
  else .hole

def LSt.code : LSt → Nat
  | .spare => 0
  | .idle => 1
  | .busy => 2
  | .draining => 3
  | .retired => 4
  | .wiping => 5
  | .test => 6

def trues (t : Tbl Bool) : Nat := (t.filter (fun kb => kb.2)).length

def QWin.view (w : QWin) (wr : Bool) : Nat := bit 63 w.valid + bit 62 (w.valid && wr) + bits 16 16 w.limit + bits 0 16 w.base

/-- The job words that LTH_JOB and HWK_JOB share, from bit 34 up. -/
def State.jobWord (s : State) (opcode level : Nat) (id : JobId) : Nat :=
  match s.findJob id with
  | some j => bits 56 8 opcode + bits 48 8 j.fn + bits 40 8 j.gen.toNat + bits 36 4 (if j.cls = horrovCls then 0 else j.cls) +
      bits 34 2 level
  | none => bits 56 8 opcode + bits 34 2 level

def State.vLthJob (s : State) (e : Lath) : Nat :=
  match e.job with
  | some id => s.jobWord e.jobOpcode.toNat e.jobLevel id + bit 33 (decide (0x80 ≤ e.jobOpcode.toNat)) + bit 32 e.resumed +
      (ctlTicks e.tStart s.clk).toNat
  | none =>
    match e.routine with
    | some k => bits 56 8 k.toNat + bit 33 true + (ctlTicks e.tStart s.clk).toNat
    | none => 0

def State.lathReg (s : State) (n o : Nat) : Reg :=
  let e := s.lath n
  if o = 0x00 then .w32 (bits 29 3 e.st.code + bits 27 2 e.fstep + bits 16 6 (n / 4) + bits 0 2 (n % 4))
  else if o = 0x04 then .w32 Config.lathRomVer.toNat
  else if o = 0x08 then .w32 e.puttyVer.toNat
  else if o = 0x10 then
    .w32 (bit 31 e.running + bits 16 5 e.r.stack.length + bit 15 e.upc.patch + e.upc.addr.toNat)
  else if o = 0x18 then .w64 (s.vLthJob e)
  else if o = 0x20 then .w32 (bits 16 9 e.r.vstart + bits 0 9 e.r.vl)
  else if o = 0x28 then
    .w64 (bit 63 e.vfault.valid + bits 56 4 e.vfault.cause + bits 48 8 e.vfault.element + e.vfault.address.toNat)
  else if o = 0x30 then .w32 (bits 24 8 e.eccCorr.toNat + bit 16 e.inPatch + e.cause.toNat)
  else if o = 0x34 then .w32 (bits 16 16 (min 65535 e.maxGap) + bits 0 16 (min 65535 e.gap))
  else if o = 0x38 then .w64 (bits 32 17 (trues e.qdirty) + bits 0 13 (trues e.dirty))
  else if o = 0x40 then .w64 (e.qwin0.view true)
  else if o = 0x48 then .w64 (e.qwin1.view false)
  else if 0x100 ≤ o ∧ o < 0x200 then
    match Tbl.get none e.matches_ ((o - 0x100) / 4) with
    | some (a, p) => .w32 (bit 31 true + bits 10 14 a.toNat + p.toNat)
    | none => .w32 0
  else .hole

/-- Generator and expander words of instance `n`, at offset `k` of its block. -/
def State.genLedger (s : State) (n k : Nat) : Reg :=
  let g := s.gen n
  Reg.words [g.generated.toNat, g.consumed.toNat, g.fill, g.discarded.toNat] k

def State.vMgStatus (s : State) (n : Nat) : Nat :=
  let g := s.gen n
  bits 30 2 g.st.code + bits 16 7 g.fill + g.stalls.toNat

def GCause.code : GCause → Nat
  | .none => 0
  | .health => 1
  | .overdue => 2
  | .kat => 3

/-- The register block of expander `n`; `mg` tells whether its mask generator shows its status here. -/
def State.expReg (s : State) (n : Nat) (mg : Bool) (k : Nat) : Reg :=
  let g := s.gen n
  if k = 0x00 then
    .w64 (bits 62 2 g.st.code + bits 60 2 g.cause.code + bits 32 9 g.fill + bits 18 14 g.reseeds + bits 0 18 g.requests)
  else if k = 0x08 then .w32 g.ageMs.toNat
  else if 0x20 ≤ k ∧ k < 0x40 then s.genLedger n (k - 0x20)
  else if k = 0x40 ∧ mg = true then .w32 (s.vMgStatus (genChild n))
  else if 0x48 ≤ k ∧ k < 0x68 then s.genLedger (genChild n) (k - 0x48)
  else .hole

/-- The Lath Quad window: arbiter, mask generator and expander. -/
def State.lathQuadReg (s : State) (q o : Nat) : Reg :=
  let x := s.quad q
  if o = 0x00 then .w32 ((List.range 6).foldl (fun a r => a + bits (3 * r) 3 (s.arbPri q r)) 0)
  else if o = 0x08 then .w32 (bits 0 16 x.lockMax)
  else if o = 0x10 then .w64 ((List.range 6).foldl (fun a r => a + bits (10 * r) 10 (x.wlim.getD r 64)) 0)
  else if o = 0x18 then
    .w64 ((List.range 16).foldl (fun a k =>
      if k = 0 then a
      else
        let y : ArbRes := Tbl.get {} x.res k
        a + bits (4 * k) 3 (y.cur.getD 7) + bit (4 * k + 3) y.locked.isSome) 0)
  else if 0x100 ≤ o ∧ o < 0x1C0 then
    let t : ArbStat := Tbl.get {} x.stats ((o - 0x100) / 0x20)
    Reg.words [t.grants.toNat, t.waits.toNat, t.longest.toNat, 0] ((o - 0x100) % 0x20)
  else if o = 0x200 then .w32 (s.vMgStatus (28 + q))
  else if 0x8000 ≤ o then s.expReg (9 + q) false (o - 0x8000)
  else .hole

/-- A hybrid job is in its Hawk part. -/
def Job.inHyb (j : Job) : Bool := j.desc.opcode == 0x23 || j.desc.opcode == 0x24 || j.desc.opcode == 0x25

/-- CURVE and WORDS of HWK_JOB: X25519 in a hybrid part; otherwise the curve, and w = MOD_BITS / 64 (R400), which is 0 for a
curve. -/
def Job.hawkWords (j : Job) : Nat :=
  if j.inHyb then bits 28 4 1
  else bits 28 4 j.desc.set + bits 19 9 (j.desc.modBits / 64)

def State.vHwkJob (s : State) (e : Hawk) : Nat :=
  match e.job with
  | some id =>
    match s.findJob id with
    | some j => s.jobWord j.desc.opcode.toNat j.level id + bit 33 j.inHyb + j.hawkWords
    | none => 0
  | none => 0

def State.hawkReg (s : State) (n o : Nat) : Reg :=
  let e := s.hawk n
  if o = 0x00 then .w32 (bits 29 3 e.st + bits 27 2 e.fstep + bits 0 4 n)
  else if o = 0x08 then .w64 (s.vHwkJob e)
  else if o = 0x10 then .w32 (if e.job.isSome then (ctlTicks e.tStart s.clk).toNat else 0)
  else if o = 0x18 then .w32 (bits 16 8 e.eccCorr.toNat + e.cause.toNat)
  else if o = 0x20 then .w64 (bits 32 32 e.early.toNat + e.jobs.toNat)
  else .hole

/-- The window of Sponge core `c`; a Quad core shows the claims of its resource `rank` in Quad `q`. -/
def State.coreReg (s : State) (c : Nat) (quad : Option (Nat × Nat)) (o : Nat) : Reg :=
  let x := s.core c
  let claims :=
    match quad with
    | some (q, rank) => (List.range 4).foldl (fun a r => a + bit (8 + r) ((s.lath (4 * q + r)).claims.contains rank)) 0
    | none => 0
  let works : Bool := x.st == 1 || x.st == 2
  if o = 0x00 then
    .w32 (bits 29 3 x.st + bits 27 2 x.fstep + bits 25 2 x.shares + bits 16 8 (if works then x.alg.toNat else 0) + claims +
      bits 0 4 (if works = true ∧ quad = none then x.cls else 0))
  else if o = 0x08 then .w64 x.units.toNat
  else .hole

def State.grtReg (s : State) (o : Nat) : Reg :=
  if o = 0x00 then
    .w32 (bits 30 2 s.grt.st.code + (if s.grt.started then bits 24 4 s.healthy +
      (List.range 8).foldl (fun a i => a + bit (16 + i) (s.srcHealthy i)) 0 else 0) + s.grt.seedTime.toNat)
  else if o = 0x08 then .w32 (bits 16 16 s.grt.waitMax + bits 0 16 (min 65535 s.waitingDraws))
  else if o = 0x10 then .w32 (bits 27 5 s.grt.katTarget + bits 25 2 s.grt.katResult + s.grt.katCount.toNat)
  else if 0x100 ≤ o ∧ o < 0x200 then s.expReg 18 true (o - 0x100)
  else .hole

/-- BND_JOURNAL. -/
def State.vJournal (s : State) : Nat :=
  let a := s.activeJ
  bit 63 (a == some true) +
    bit 62 ((a == some true && s.jValid s.mram.ja) || (a == some false && s.jValid s.mram.jb)) +
    bit 61 (s.commits.any (fun c => c.started)) + bit 60 s.bnd.loaded + bits 0 48 s.image.seq.toNat

def State.bndWin (s : State) (o : Nat) : Reg :=
  if o = 0x00 then .w32 (bit 31 s.bnd.paused + s.bnd.pos.toNat)
  else if o = 0x08 then .w64 s.bnd.sweeps.toNat
  else if o = 0x10 then .w64 s.vJournal
  else if o = 0x18 then .w64 s.image.counter.toNat
  else .hole

def State.vLink (s : State) (p : Nat) : Nat :=
  let subs := (List.range 4).map (fun i => s.subPort p i)
  let up := (List.range 4).foldl (fun a i => a + bit (28 + i) ((s.subPort p i).st == .up)) 0
  up + bits 16 4 (s.lanesUp p) + bits 10 2 (s.pair (p % 8)).mode + bit 8 (subs.any (fun x => x.pausing != 0)) +
    bit 9 (subs.any (fun x => x.paused != 0)) + bits 0 3 (s.portState p)

def State.plbWin (s : State) (o : Nat) : Reg :=
  if o < 8 * 151 ∧ o % 8 = 0 then
    let x := s.unit (o / 8)
    .w64 (bits 61 3 x.st.code + bits 59 2 x.step + bits 32 16 x.vreq + bits 16 16 (i16 x.insitu) + bits 0 16 (i16 x.drained))
  else if 0x1000 ≤ o ∧ o < 0x1100 ∧ o % 8 = 0 then
    let d : Die := Tbl.get {} s.plb.dies ((o - 0x1000) / 8)
    .w64 (bits 32 16 (i16 d.temp) + bits 16 16 (i16 d.insitu) + bits 0 16 (i16 d.last))
  else .hole

def State.vClk (s : State) : Nat :=
  let p := s.pwr
  bit 31 p.rootLock + bit 30 p.refclkOk + bit 29 p.pcieRefOk + bits 25 4 p.sdLock.toNat + bits 21 4 p.sdRefOk.toNat +
    p.relocks.toNat

def State.vVcore (s : State) : Nat :=
  bit 31 s.pwr.slewing + bits 16 10 s.pwr.vcoreTarget + bits 10 6 s.pwr.phases + bits 0 10 s.pwr.vcoreMeas

/-- The window, of an engine or core that is in reset or retired, reads 0 throughout (R36). -/
def orRetired (gone : Bool) (r : Reg) : Reg := if gone then .zero else r

/-- Offset `o` of BAR0 in 0x0200_0000-0x03FF_FFFF with the expert level enabled. -/
def State.windowReg (s : State) (o : Nat) : Reg :=
  if 0x02000000 ≤ o ∧ o < 0x02240000 then
    let n := (o - 0x02000000) / 0x10000
    orRetired ((s.rnd n).st == .retired) (s.renderReg n (o % 0x10000))
  else if 0x02400000 ≤ o ∧ o < 0x02640000 then
    let n := (o - 0x02400000) / 0x10000
    orRetired ((s.unit (36 + n)).st == .retired) (s.lathReg n (o % 0x10000))
  else if 0x02800000 ≤ o ∧ o < 0x02890000 then
    let n := (o - 0x02800000) / 0x10000
    orRetired ((s.unit (72 + n)).st == .retired) (s.hawkReg n (o % 0x10000))
  else if 0x02C00000 ≤ o ∧ o < 0x02C12000 then
    let c := (o - 0x02C00000) / 0x1000
    orRetired ((s.core (16 + c)).st == 3) (s.coreReg (16 + c) (some (c / 2, 1 + c % 2)) (o % 0x1000))
  else if 0x02C20000 ≤ o ∧ o < 0x02C44000 then
    let c := (o - 0x02C20000) / 0x1000
    orRetired ((s.core (34 + c)).st == 3) (s.coreReg (34 + c) (some (c / 4, 3 + c % 4)) (o % 0x1000))
  else if 0x02C50000 ≤ o ∧ o < 0x02C60000 then
    let c := (o - 0x02C50000) / 0x1000
    orRetired ((s.core c).st == 3) (s.coreReg c none (o % 0x1000))
  else if 0x03000000 ≤ o ∧ o < 0x03090000 then
    if 0x8000 ≤ o % 0x10000 then s.expReg ((o - 0x03000000) / 0x10000) true (o % 0x10000 - 0x8000) else .hole
  else if 0x03100000 ≤ o ∧ o < 0x03190000 then s.lathQuadReg ((o - 0x03100000) / 0x10000) (o % 0x10000)
  else if 0x03820000 ≤ o ∧ o < 0x03830000 then s.plbWin (o - 0x03820000)
  else if o = 0x03830000 then .w32 s.vClk
  else if o = 0x03840000 then .w32 s.vVcore
  else if 0x03860000 ≤ o ∧ o < 0x03870000 then s.grtReg (o - 0x03860000)
  else if 0x03870000 ≤ o ∧ o < 0x03880000 then s.bndWin (o - 0x03870000)
  else if 0x03880000 ≤ o ∧ o < 0x03900000 then
    if o % 0x8000 = 0 then .w32 (s.vLink ((o - 0x03880000) / 0x8000)) else .hole
  else .hole

/-- Offset `o` lies in a window marked "expert diagnostic read" (R35). -/
def inWindow (o : Nat) : Bool :=
  [(0x02000000, 0x02240000), (0x02400000, 0x02640000), (0x02800000, 0x02890000), (0x02C00000, 0x02C12000),
   (0x02C20000, 0x02C44000), (0x02C50000, 0x02C60000), (0x03000000, 0x03090000), (0x03100000, 0x03190000),
   (0x03800000, 0x03900000)].any (fun (ab : Nat × Nat) => decide (ab.1 ≤ o ∧ o < ab.2))

/-! ## The BARs -/

/-- What offset `o` of BAR0 of function `f` holds. In Undercoat BAR0 of PF0 decodes the mailbox and the status registers
only (R599). -/
def State.reg (s : State) (f o : Nat) : Reg :=
  if f = 0 then
    if 0x01100000 ≤ o ∧ o < 0x01110000 then s.mboxReg (o - 0x01100000)
    else if 0x01200000 ≤ o ∧ o < 0x01300000 then s.devReg (o - 0x01200000)
    else if s.mbx.undercoat then .hole
    else if o < 0x01000000 then
      match s.queueAt 0 (o / 0x1000) with
      | some q => s.queueReg q (o % 0x1000)
      | none => .hole
    else if 0x01300000 ≤ o ∧ o < 0x02000000 then s.counterReg (o - 0x01300000)
    else s.windowReg o
  else if 0xFC00 ≤ o ∧ o < 0x10000 then s.vmbReg f (o - 0xFC00)
  else if o < 0xFC00 then
    match s.queueAt f (o / 0x1000) with
    | some q => s.queueReg q (o % 0x1000)
    | none => .hole
  else .hole

/-- The MSI-X table entries and pending bits of BAR2 (R40): 16 bytes per vector, as PCIe lays them out. -/
def State.reg2 (s : State) (f o : Nat) : Reg :=
  let n := if f = 0 then 128 else 17
  let pba := if f = 0 then 0x8000 else 0x2000
  if o < 16 * n then
    let v := s.vec f (o / 16)
    match (o % 16) / 4 with
    | 0 => .w32 (bits 0 32 v.addr.toNat)
    | 1 => .w32 (v.addr.toNat / 2 ^ 32)
    | 2 => .w32 v.data.toNat
    | _ => .w32 (bit 0 v.masked)
  else if pba ≤ o ∧ o < pba + 8 * ((n + 63) / 64) ∧ o % 8 = 0 then
    .w64 ((List.range 64).foldl (fun a i => a + bit i (s.vec f (64 * ((o - pba) / 8) + i)).pend) 0)
  else .hole

end Sys2Proof.Machine
end

