-- ==== Sys2Proof/Machine/Balls.lean ====
section
/-!
DEFINITION. What the module drives on its control and status balls (R584, R632, R633): functions of the state.
-/
namespace Sys2Proof.Machine

/-- The control and status balls that the module drives (R627). -/
inductive Ball where
  | ready | faultN | wakeN | alertN | refclkEn | sdRefclkEn (k : Nat) | pairFwd (n : Nat) | xspiResetN
deriving DecidableEq, Repr

/-- VIO is on: VIN is present and the power sequence has passed P2 (R575, R632). -/
def State.vioOn (s : State) : Bool := s.pwr.vin && !(s.pwr.st == .sequencing && decide (s.pwr.step ≤ 2))

/-- READY (R584): from S12 until a reset, AP3 of a DUSTSHEET entry or the loss of VIN; low in Undercoat. -/
def State.readyHigh (s : State) : Bool := s.computeOn && decide (12 ≤ s.boot.step) && !s.mbx.undercoat

/-- FAULT_N is asserted (R633): from P1 until S12, while a Scrim rank of QUIESCE or above holds the device, in Undercoat, and
in the stopped state. -/
def State.faultOn (s : State) : Bool :=
  s.pwr.st == .sequencing || s.pwr.st == .stopped || (s.computeOn && (!s.readyHigh || decide (4 ≤ s.heldRank)))

/-- PAIR_FWDn (R633): every sub-port pair of pair `n` forwards under R154. -/
def State.pairForwards (s : State) (n : Nat) : Bool :=
  s.computeOn && (s.pair n).enabled && (List.range (subCount (s.pair n).mode)).all (fun i => s.forwards n i)

/-- REFCLK_EN (R633): from P3 on, low from AP3 of a DUSTSHEET entry to P5 of the resume. -/
def State.refclkOn (s : State) : Bool :=
  s.computeOn || (s.pwr.st == .sequencing && decide (4 ≤ s.pwr.step))

/-- SD_REFCLK_ENk (R633): from S11 until the next reset or AP3; low in Undercoat and in SCRAP. -/
def State.sdRefclkOn (s : State) : Bool :=
  s.computeOn && decide (11 ≤ s.boot.step) && !s.mbx.undercoat && s.lcy.st != 5

/-- The level that a ball shows in its functional mode: none where it is high-impedance (R632), as an open-drain ball is that
nothing asserts. -/
def State.ball (s : State) (b : Ball) : Option Bool :=
  let drain := fun (on : Bool) => if on then some false else none
  if s.vioOn = false ∨ s.jtag.drive ≠ 0 then none
  else
    match b with
    | .ready => some s.readyHigh
    | .faultN => drain s.faultOn
    | .wakeN => drain s.pwr.wakeOut
    | .alertN => drain s.pwr.alert
    | .refclkEn => some s.refclkOn
    | .sdRefclkEn _ => some s.sdRefclkOn
    | .pairFwd n => some (s.pairForwards n)
    | .xspiResetN => some (s.computeOn && decide (2 ≤ s.boot.step))

end Sys2Proof.Machine
end

