-- ==== Sys2Proof/Machine/CfgSpace.lean ====
section
/-!
DEFINITION. Configuration space (R43, R48-R50, R52, R58): the identity values, the capability list and the fields that the
state holds, at the places that PCIe gives them within each capability (PRESUMED, log entry 99). A bit that neither the spec
nor the state decides is free.
-/
namespace Sys2Proof.Machine

/-- A dword whose bits of `mask` are those of `v`; the others are free. -/
def cfgMix (vf : Bool) (o : Nat) (mask v : W32) : W32 := (v &&& mask) ||| (Config.cfgWord vf o &&& ~~~ mask)

/-- A header of the extended capability list: its identifier and the next offset; the version is free. -/
def extCap (vf : Bool) (o id next : Nat) : W32 := cfgMix vf o 0xFFF0FFFF (BitVec.ofNat 32 (id + next * 2 ^ 20))

/-- The lower dword of a 64-bit, non-prefetchable memory BAR whose region has `2 ^ n` bytes (R50). -/
def barLow (n : Nat) (b : W64) : W32 := (((b >>> n) <<< n).setWidth 32) ||| 4

def barHigh (b : W64) : W32 := b.extractLsb' 32 32

/-- Type 0 header: identity (R48) and BARs (R50). A VF's BARs stand in the SR-IOV capability. -/
def State.cfgHeader (s : State) (f o : Nat) : W32 :=
  let vf := f != 0
  let x := s.fn f
  match o with
  | 0x00 => if vf then 0xFFFFFFFF else 0x64002E5B
  | 0x04 => cfgMix vf o 0x00100006 (BitVec.ofNat 32 (bit 1 x.mse + bit 2 x.bme + bit 20 true))
  | 0x08 => cfgMix vf o 0xFFFFFF00 0x10800000
  | 0x10 => if vf then 0 else barLow 26 x.bar0
  | 0x14 => if vf then 0 else barHigh x.bar0
  | 0x18 => if vf then 0 else barLow 16 x.bar2
  | 0x1C => if vf then 0 else barHigh x.bar2
  | 0x20 => 0
  | 0x24 => 0
  | 0x2C => 0x22092E5B
  | 0x30 => 0
  | 0x34 => cfgMix vf o 0xFF 0x40
  | 0x3C => cfgMix vf o 0xFF00 0
  | _ => Config.cfgWord vf o

/-- Power Management (R58), MSI-X (R57) and PCI Express (R43). -/
def State.cfgCaps (s : State) (f o : Nat) : W32 :=
  let vf := f != 0
  let x := s.fn f
  let p := s.pcie
  match o with
  | 0x40 => BitVec.ofNat 32 (0x01 + 0x50 * 2 ^ 8 + (3 + 2 ^ 11 + 2 ^ 14) * 2 ^ 16)
  | 0x44 => cfgMix vf o 0x810B (BitVec.ofNat 32 ((if x.d3hot then 3 else 0) + 2 ^ 3 + bit 8 x.pmeEn + bit 15 (x.pmeSent || x.pmePend)))
  | 0x50 => BitVec.ofNat 32 (0x11 + 0x70 * 2 ^ 8 + (if vf then 16 else 127) * 2 ^ 16 + bit 30 x.msixMask + bit 31 x.msixEn)
  | 0x54 => 2
  | 0x58 => if vf then 0x2002 else 0x8002
  | 0x70 => cfgMix vf o 0xFFFFF (BitVec.ofNat 32 (0x10 + 2 * 2 ^ 16))
  | 0x74 => cfgMix vf o 0x10000007 (BitVec.ofNat 32 (2 + 2 ^ 28))
  | 0x78 => cfgMix vf o 0x70E0 (BitVec.ofNat 32 (bits 5 3 x.maxPayload + bits 12 3 x.maxRead))
  | 0x7C => cfgMix vf o 0xFFF (BitVec.ofNat 32 (6 + 16 * 2 ^ 4 + 2 * 2 ^ 10))
  | 0x80 => cfgMix vf o 0x3FF0003 (BitVec.ofNat 32 ((if p.aspmL1 then 2 else 0) + bits 16 4 p.speed + bits 20 6 p.width))
  | 0x94 => cfgMix vf o 0x3000F 0x3000F
  | 0x98 => cfgMix vf o 0x100F (BitVec.ofNat 32 (bits 0 4 x.cplTimeout + bit 12 x.bigTags))
  | _ => Config.cfgWord vf o

/-- The extended capabilities of a VF (R49). -/
def State.cfgExtVf (s : State) (f o : Nat) : W32 :=
  let x := s.fn f
  match o with
  | 0x100 => extCap true o 0x0001 0x140
  | 0x118 => cfgMix true o 0x1E0 (BitVec.ofNat 32 (2 ^ 5 + bit 6 x.ecrcGen + 2 ^ 7 + bit 8 x.ecrcCheck))
  | 0x140 => extCap true o 0x000E 0
  | _ => if o < 0x150 then Config.cfgWord true o else 0

/-- The extended capabilities of PF0 (R49), with the SR-IOV values (R52). -/
def State.cfgExtPf (s : State) (o : Nat) : W32 :=
  let x := s.fn 0
  let p := s.pcie
  match o with
  | 0x100 => extCap false o 0x0001 0x140
  | 0x118 => cfgMix false o 0x1E0 (BitVec.ofNat 32 (2 ^ 5 + bit 6 x.ecrcGen + 2 ^ 7 + bit 8 x.ecrcCheck))
  | 0x140 => extCap false o 0x000E 0x150
  | 0x150 => extCap false o 0x0010 0x190
  | 0x158 => cfgMix false o 0x11 (BitVec.ofNat 32 (bit 0 p.vfEn + bit 4 p.ari))
  | 0x15C => 0x00FF00FF
  | 0x160 => cfgMix false o 0xFFFF (BitVec.ofNat 32 (bits 0 16 p.numVfs))
  | 0x164 => 0x00010001
  | 0x168 => cfgMix false o 0xFFFF0000 0x64010000
  | 0x16C => 7
  | 0x170 => p.pageSize
  | 0x174 => barLow 16 p.vfBar0
  | 0x178 => barHigh p.vfBar0
  | 0x17C => barLow 14 p.vfBar2
  | 0x180 => barHigh p.vfBar2
  | 0x184 => 0
  | 0x188 => 0
  | 0x190 => extCap false o 0x000D 0x1A0
  | 0x194 => cfgMix false o 0xFFFF0000 (p.acs.setWidth 32 <<< 16)
  | 0x1A0 => extCap false o 0x0019 0x1E0
  | 0x1E0 => extCap false o 0x0025 0x200
  | 0x200 => extCap false o 0x0026 0x240
  | 0x240 => extCap false o 0x002A 0x280
  | 0x280 => extCap false o 0x0031 0x2C0
  | 0x2C0 => extCap false o 0x0027 0x300
  | 0x300 => extCap false o 0x0032 0
  | _ => Config.cfgWord false o

/-- The dword of configuration space of function `f` at offset `o`, a multiple of 4. -/
def State.cfgDword (s : State) (f o : Nat) : W32 :=
  if o < 0x40 then s.cfgHeader f o else if o < 0x100 then s.cfgCaps f o else if f = 0 then s.cfgExtPf o else s.cfgExtVf f o

/-- A configuration read of 1, 2 or 4 bytes: Request Retry Status while the function is not ready or in FLR (R54, R56, R64),
and Unsupported Request where it does not exist. -/
def State.readCfg (s : State) (f o size : Nat) : State :=
  if s.pcie.linkUp = false then s
  else if f ≠ 0 ∧ (s.fn f).st = .absent then s.emit (.readUr f)
  else if s.cfgOpen f = false then s.emit (.cfgRetry f)
  else s.emit (.readData f (BitVec.ofNat 64 ((s.cfgDword f (o / 4 * 4)).toNat / 2 ^ (8 * (o % 4)) % 2 ^ (8 * size))))

end Sys2Proof.Machine
end

