-- ==== Sys2Proof/Machine/Regs.lean ====
section
/-!
DEFINITION. Host accesses to the BARs and to configuration space (R9-R15, R35-R40): reads with their side effects, and
the writes that have no row of their own.
-/
namespace Sys2Proof.Machine

/-! ## Reads -/

/-- The record that EVQ_REC_LO returned leaves the queue, and its upper half is latched (R537). -/
def State.popEvq (s : State) : State :=
  match evqBest s.scr.evq with
  | some e => { s with scr := { s.scr with evq := s.scr.evq.erase e, hiLatch := BitVec.ofNat 64 e.hi } }
  | none => { s with scr := { s.scr with hiLatch := 0 } }

/-- The oldest SA event leaves the FIFO; a read of the empty FIFO arms the next signal (R204). -/
def State.popSaev (s : State) : State :=
  match s.rdr.saev with
  | _ :: t => { s with rdr := { s.rdr with saev := t, saevOverflow := false } }
  | [] => { s with rdr := { s.rdr with saevArmed := true } }

/-- What a read of the register at BAR0 offset `o` does besides returning it: the RC fields clear (R9, R12). -/
def State.readEffect (s : State) (f o : Nat) : State :=
  if f = 0 then
    match o with
    | 0x01200040 => { s with pcie := { s.pcie with rxErr := 0 } }
    | 0x01200044 => { s with pcie := { s.pcie with replay := 0 } }
    | 0x01200048 => { s with pcie := { s.pcie with recovery := 0 } }
    | 0x0120004C => { s with pcie := { s.pcie with cplTimeout := 0 } }
    | 0x01200050 => { s with pcie := { s.pcie with poison := 0 } }
    | 0x01200054 => { s with pcie := { s.pcie with ur := 0 } }
    | 0x01203004 => { s with scr := { s.scr with lost := 0 } }
    | 0x01203010 => s.popEvq
    | 0x01204000 => s.popSaev
    | 0x01204008 => { s with rdr := { s.rdr with saevLost := 0 } }
    | 0x01205004 => { s with spg := { s.spg with yieldCnt := 0 } }
    | 0x01206010 => { s with bnd := { s.bnd with fullCnt := 0 } }
    | 0x01209028 => { s with flt := { s.flt with waitCnt := 0 } }
    | 0x0120902C => { s with flt := { s.flt with limitCnt := 0 } }
    | _ =>
      if o < 0x01000000 ∧ o % 0x1000 = 0x48 then
        match s.queueAt 0 (o / 0x1000) with
        | some q => s.updQueue q (fun x => { x with jobsCnt := 0 })
        | none => s
      else s
  else if o < 0xFC00 ∧ o % 0x1000 = 0x48 then
    match s.queueAt f (o / 0x1000) with
    | some q => s.updQueue q (fun x => { x with jobsCnt := 0 })
    | none => s
  else s

/-- A 32-bit read at an aligned offset (R14): its value, where it meets a register or reserved bytes. A lower half
latches the upper half, and an upper half returns what is latched. -/
def State.read32 (s : State) (f o : Nat) : Option Nat × State :=
  match s.reg f o with
  | .w32 v => (some v, s.readEffect f o)
  | .w64 v =>
    (some (v % 2 ^ 32), (s.readEffect f o).updFn f (fun x =>
      { x with upper := Tbl.set none x.upper o (some (BitVec.ofNat 32 (v / 2 ^ 32))) }))
  | .zero => (some 0, s)
  | .hole =>
    if o % 8 = 4 then
      match s.reg f (o - 4) with
      | .w64 v =>
        match Tbl.get none (s.fn f).upper (o - 4) with
        | some u => (some u.toNat, s.updFn f (fun x => { x with upper := Tbl.erase x.upper (o - 4) }))
        | none => (some (v / 2 ^ 32), s)
      | _ => (none, s)
    else (none, s)

/-- A read of `size` bytes at BAR0 offset `o` of function `f`, or none where no register stands there. -/
def State.readReg (s : State) (f o size : Nat) : Option Nat × State :=
  match size, s.reg f o with
  | 8, .w64 v => (some v, s.readEffect f o)
  | 8, _ =>
    let a := s.read32 f o
    let b := a.2.read32 f (o + 4)
    match a.1, b.1 with
    | none, none => (none, b.2)
    | x, y => (some (x.getD 0 + y.getD 0 * 2 ^ 32), b.2)
  | _, _ => s.read32 f o

/-- The device returns `v` to the read. -/
def State.readReply (s : State) (f v : Nat) : State := s.emit (.readData f (BitVec.ofNat 64 v))

/-- A BAR access of this function reaches the device at all; otherwise a read completes with Unsupported Request (R51). -/
def State.readBar (s : State) (f o size : Nat) : State :=
  if s.pcie.linkUp = false then s
  else if s.barOpen f = false then s.emit (.readUr f)
  else if (size ≠ 4 ∧ size ≠ 8) ∨ o % size ≠ 0 then (s.readReply f 0).report 32 f
  else if f = 0 ∧ s.mbx.undercoat = false ∧ inWindow o = true ∧ s.mbx.expert = false then (s.readReply f 0).report 34 f
  else
    match s.readReg f o size with
    | (some v, t) => t.readReply f v
    | (none, t) => (t.readReply f 0).report 33 f

/-- A 32-bit word of BAR2: half of a 64-bit word of the pending-bit array, or a table word. The words of the array are not
taken as 64-bit registers of R14, so that no upper half is latched, which the spec leaves open (DESIGN CHOICE, log entry
100). -/
def State.word2 (s : State) (f o : Nat) : Option Nat :=
  match s.reg2 f o with
  | .w32 v => some v
  | .w64 v => some (v % 2 ^ 32)
  | .zero => some 0
  | .hole =>
    match s.reg2 f (o - 4) with
    | .w64 v => if o % 8 = 4 then some (v / 2 ^ 32) else none
    | _ => none

/-- The same for BAR2. -/
def State.readBar2 (s : State) (f o size : Nat) : State :=
  if s.pcie.linkUp = false then s
  else if s.barOpen f = false then s.emit (.readUr f)
  else if (size ≠ 4 ∧ size ≠ 8) ∨ o % size ≠ 0 then (s.readReply f 0).report 32 f
  else
    match s.word2 f o, (if size = 8 then s.word2 f (o + 4) else some 0) with
    | some a, some b => s.readReply f (a + b * 2 ^ 32)
    | _, _ => (s.readReply f 0).report 33 f

/-- ARONG_RSP as a block read returns it (R142): where neither Primer nor Horrov answers, ST_NOT_READY with STATE 2 (R144);
until a request is done, bytes 0-3 with STATUS 0. -/
def State.arongRsp (s : State) : List Byte :=
  let m := s.mbx
  if s.smbDead then leBytes 2 stNotReady.toNat ++ [m.smbSeq, 2]
  else if m.smbState = 2 then leBytes 2 m.smbStatus.toNat ++ [m.smbSeq, 2] ++ m.smbResults
  else [0, 0, m.smbSeq, m.smbState]

/-- R15: a read that has no row of its own, of a BAR offset, of configuration space, or of ARONG_RSP. -/
def execUnmappedRead (r : RegRd) (s : State) : Host.Outcome State Fault Refusal :=
  .next (match r.space with
    | .bar0 => s.readBar r.f r.off r.size
    | .bar2 => s.readBar2 r.f r.off r.size
    | .cfg => s.readCfg r.f r.off r.size
    | .arongRsp => if s.smbMute then s.emit .smbusNack else s.emit (.smbus s.arongRsp))

/-- R36: a read of an expert diagnostic window. -/
def execExpertWindowRead (o size : Nat) (s : State) : Host.Outcome State Fault Refusal := .next (s.readBar 0 o size)

/-- R14: a 32-bit read of the lower half of a 64-bit register. -/
def execReg64LowRead (f o : Nat) (s : State) : Host.Outcome State Fault Refusal := .next (s.readBar f o 4)

/-- R74: a read of PCIe error counter `k` of the six. -/
def execPcieErrCntRead (k : Nat) (s : State) : Host.Outcome State Fault Refusal := .next (s.readBar 0 (0x01200040 + 4 * k) 4)

/-- R12: a read of QUE_JOBS_CNT on page `p` of function `f`. -/
def execQueJobsCntRead (f p : Nat) (s : State) : Host.Outcome State Fault Refusal := .next (s.readBar f (0x1000 * p + 0x48) 4)

def execSpgYieldCntRead (s : State) : Host.Outcome State Fault Refusal := .next (s.readBar 0 0x01205004 4)

def execBndFullCntRead (s : State) : Host.Outcome State Fault Refusal := .next (s.readBar 0 0x01206010 4)

def execFltWaitCntRead (s : State) : Host.Outcome State Fault Refusal := .next (s.readBar 0 0x01209028 4)

def execFltLimitCntRead (s : State) : Host.Outcome State Fault Refusal := .next (s.readBar 0 0x0120902C 4)

/-- R204: the oldest SA event record. -/
def execRndSaevRead (s : State) : Host.Outcome State Fault Refusal := .next (s.readBar 0 0x01204000 8)

def execRndSaevStatRead (s : State) : Host.Outcome State Fault Refusal := .next (s.readBar 0 0x01204008 4)

/-- R537: the queued record of the highest rank. -/
def execEvqRecLoRead (s : State) : Host.Outcome State Fault Refusal := .next (s.readBar 0 0x01203010 8)

def execEvqRecHiRead (s : State) : Host.Outcome State Fault Refusal := .next (s.readBar 0 0x01203018 8)

/-- R539: EVQ_STATUS, whose LOST clears. -/
def execEvqStatusRead (s : State) : Host.Outcome State Fault Refusal := .next (s.readBar 0 0x01203004 4)

/-! ## Writes -/

/-- The state after a meaning; every register write goes on. -/
def settled (o : Host.Outcome State Fault Refusal) (s : State) : State :=
  match o with
  | .next t => t
  | _ => s

/-- A 32-bit half `hi` of a 64-bit word replaced by `v`. -/
def putHalf (w : W64) (hi : Bool) (v : W32) : W64 :=
  if hi then v ++ w.setWidth 32 else w.extractLsb' 32 32 ++ v

/-- Writes to RING_SIZE, RING_BASE and CIWB_ADDR are taken only while the queue is DISABLED (R82). -/
def State.ringCfg (s : State) (f q : Nat) (g : Queue → Queue) : State :=
  if (s.queue q).st = .disabled then s.updQueue q g else s.report 36 f

/-- A 32-bit write to offset `o` of the page of queue `q`, page `p` of function `f`; true where a register stands there. -/
def State.writeQueue (s : State) (f p q o : Nat) (v : W32) : State × Bool :=
  let lo : W16 := v.setWidth 16
  match o with
  | 0x00 => (settled (execQuePiWrite f p lo s) s, true)
  | 0x08 =>
    (match (v >>> 30).toNat with
     | 1 => settled (execQueInvalHold f p lo s) s
     | 2 => settled (execQueInvalRelease f p lo s) s
     | _ => s.updQueue q (fun x => { x with invalIndex := lo }), true)
  | 0x10 =>
    (if v.getLsbD 0 then settled (execQueueEnable f p (v.getLsbD 1) s) s
     else settled (execQueueDisable f p (v.getLsbD 1) s) s, true)
  | 0x14 => (settled (execQueModWrite f p ((v >>> 16).toNat % 1024) (v.toNat % 256) s) s, true)
  | 0x18 => (s.ringCfg f q (fun x => { x with sizeLog2 := v.toNat % 16 }), true)
  | 0x20 => (s.ringCfg f q (fun x => { x with base := (putHalf x.base false v) &&& ~~~ 0x3F }), true)
  | 0x24 => (s.ringCfg f q (fun x => { x with base := putHalf x.base true v }), true)
  | 0x28 => (s.ringCfg f q (fun x => { x with ciwb := (putHalf x.ciwb false v) &&& ~~~ 0x7 }), true)
  | 0x2C => (s.ringCfg f q (fun x => { x with ciwb := putHalf x.ciwb true v }), true)
  | 0x04 => (s, true)
  | 0x0C => (s, true)
  | 0x40 => (s, true)
  | 0x48 => (s, true)
  | _ => (s, false)

/-- A 64-bit write of a 64-bit register of a queue page, as a single operation (R14). -/
def State.writeQueue64 (s : State) (f q o : Nat) (v : W64) : Option State :=
  match o with
  | 0x20 => some (s.ringCfg f q (fun x => { x with base := v &&& ~~~ 0x3F }))
  | 0x28 => some (s.ringCfg f q (fun x => { x with ciwb := v &&& ~~~ 0x7 }))
  | _ => none

/-- A 32-bit write to the registers of PF BAR0 outside the queue pages that the host can change. -/
def State.writeDev (s : State) (o : Nat) (v : W32) : State :=
  match o with
  | 0x01100000 => settled (execMbxDoorbell 0 (v.toNat % 16) none s) s
  | 0x0110000C => settled (execMbxDoneClear (v &&& 0xFFFE) s) s
  | 0x01100010 => { s with mbx := { s.mbx with irqEn := v.getLsbD 0 } }
  | 0x01200010 => { s with pcie := { s.pcie with event := s.pcie.event &&& ~~~ (v.setWidth 4) } }
  | 0x01203000 => { s with scr := { s.scr with evqIrqEn := v.getLsbD 16, evqLevel := v.toNat % 512 } }
  | 0x01203004 => if v.getLsbD 30 then { s with scr := { s.scr with overrun := false } } else s
  | 0x01205000 => if v.getLsbD 15 then { s with spg := { s.spg with noSave := false } } else s
  | 0x0120A000 => if v.getLsbD 25 then { s with pwr := { s.pwr with abandoned := false } } else s
  | _ =>
    if 0x01200020 ≤ o ∧ o < 0x01200040 then
      let m : W256 := (v.setWidth 256) <<< (8 * (o - 0x01200020))
      { s with pcie := { s.pcie with flrDone := s.pcie.flrDone &&& ~~~ m } }
    else if 0x01101000 ≤ o ∧ o < 0x01110000 then
      let n := (o - 0x01100000) / 0x1000
      s.updMslot n (fun m => m.write n (o % 0x1000) v)
    else s

/-- The same for a VF's light mailbox. -/
def State.writeVmb (s : State) (f o : Nat) (v : W32) : State :=
  match o with
  | 0xFC00 => if v.getLsbD 0 then settled (execMbxDoorbell f 0 none s) s else s
  | 0xFC08 => if v.getLsbD 0 then settled (execVmbDoneClear f s) s else s
  | 0xFC0C => s.updVmbx f (fun m => { m with irqEn := v.getLsbD 0 })
  | _ =>
    if 0xFC40 ≤ o ∧ o < 0x10000 then s.updVmbx f (fun m => { m with slot := m.slot.write (16 + f) (o - 0xFC40) v })
    else s

/-- A register, or a half of one, stands at offset `o`. -/
def State.regHere (s : State) (f o : Nat) : Bool :=
  match s.reg f o with
  | .hole =>
    match s.reg f (o - 4) with
    | .w64 _ => decide (o % 8 = 4)
    | _ => false
  | _ => true

/-- The queue whose page holds offset `o`, and the page. -/
def State.pageAt (s : State) (f o : Nat) : Option (Nat × Nat) :=
  if o < (if f = 0 then 0x01000000 else 0xFC00) ∧ (f ≠ 0 ∨ s.mbx.undercoat = false) then
    (s.queueAt f (o / 0x1000)).map (fun q => (q, o / 0x1000))
  else none

/-- A 32-bit write at an aligned offset: the state after it, and whether it met a register. -/
def State.write32 (s : State) (f o : Nat) (v : W32) : State × Bool :=
  match s.pageAt f o with
  | some (q, p) => s.writeQueue f p q (o % 0x1000) v
  | none =>
    if f = 0 ∧ inWindow o = true then (s, s.regHere f o)
    else if s.regHere f o then (if f = 0 then s.writeDev o v else s.writeVmb f o v, true)
    else (s, false)

/-- A write of 4 or 8 aligned bytes. -/
def State.writeReg (s : State) (f o size : Nat) (v : W64) : State × Bool :=
  if size = 8 then
    match (s.pageAt f o).bind (fun qp => s.writeQueue64 f qp.1 (o % 0x1000) v) with
    | some t => (t, true)
    | none =>
      let a := s.write32 f o (v.setWidth 32)
      let b := a.1.write32 f (o + 4) (v.extractLsb' 32 32)
      (b.1, a.2 || b.2)
  else s.write32 f o (v.setWidth 32)

/-- Offset `o` lies in the push window of a queue page (R93). -/
def State.inPush (s : State) (f o : Nat) : Bool :=
  (s.pageAt f o).isSome && decide (0x800 ≤ o % 0x1000 ∧ o % 0x1000 < 0xA00)

/-- A host write to BAR0 (R9, R15). -/
def State.writeBar (s : State) (f o size : Nat) (v : W64) : State :=
  if s.barOpen f = false then s
  else if s.inPush f o then
    settled (execPushSlotWrite f (o / 0x1000) (o % 0x1000 - 0x800) (leBytes size v.toNat) s) s
  else if (size ≠ 4 ∧ size ≠ 8) ∨ o % size ≠ 0 then s.report 32 f
  else
    let r := s.writeReg f o size v
    if r.2 then r.1 else r.1.report 33 f

/-- A 32-bit write into the MSI-X table. Clearing a mask bit lets a pending message go (R57). -/
def State.writeMsix (s : State) (f o : Nat) (v : W32) : State :=
  if 16 * (if f = 0 then 128 else 17) ≤ o then s
  else
    let k := o / 16
    let upd := fun (g : Vec → Vec) => s.updFn f (fun x => { x with vecs := Tbl.upd {} x.vecs k g })
    match (o % 16) / 4 with
    | 0 => upd (fun e => { e with addr := putHalf e.addr false v })
    | 1 => upd (fun e => { e with addr := putHalf e.addr true v })
    | 2 => upd (fun e => { e with data := v })
    | _ => if v.getLsbD 0 then upd (fun e => { e with masked := true }) else settled (execMsixUnmask f (some k) false s) s

/-- A host write to BAR2. -/
def State.writeBar2 (s : State) (f o size : Nat) (v : W64) : State :=
  if s.barOpen f = false then s
  else if (size ≠ 4 ∧ size ≠ 8) ∨ o % size ≠ 0 then s.report 32 f
  else if (s.word2 f o).isNone then s.report 33 f
  else
    let t := s.writeMsix f o (v.setWidth 32)
    if size = 8 then t.writeMsix f (o + 4) (v.extractLsb' 32 32) else t

/-- A BAR write: the address bits of a region of `2 ^ n` bytes (R50). -/
def barOf (n v : Nat) : W64 := ((BitVec.ofNat 64 v) >>> n) <<< n

/-- A write to a field of configuration space. A function that is not ready, or is in FLR, answers it with Request Retry
Status (R54, R64). A size or range that R43 does not list is not taken. -/
def State.writeCfg (s : State) (f : Nat) (fld : CfgField) (v : Nat) : State :=
  let on : Bool := v % 2 == 1
  let upd := fun (g : Fn → Fn) => s.updFn f g
  let pf := fun (g : Pcie → Pcie) => if f = 0 then { s with pcie := g s.pcie } else s
  if f ≠ 0 ∧ (s.fn f).st = .absent then s
  else if s.cfgOpen f = false then s.cfgRetry f
  else
    match fld with
    | .memSpace => s.updFn f (fun x => { x with mse := on })
    | .busMaster => if on then settled (execBusMasterEnable f s) s else s.updFn f (fun x => { x with bme := false })
    | .pmeEnable => s.updFn f (fun x => { x with pmeEn := on })
    | .msixEnable => if on then settled (execMsixUnmask f none true s) s else s.updFn f (fun x => { x with msixEn := false })
    | .msixMask => if on then s.updFn f (fun x => { x with msixMask := true }) else settled (execMsixUnmask f none false s) s
    | .ariHierarchy => if f = 0 then { s with pcie := { s.pcie with ari := on } } else s
    | .numVfs =>
      if f = 0 ∧ s.pcie.vfEn = false ∧ s.vfs = [] then { s with pcie := { s.pcie with numVfs := v % 65536 } } else s
    | .pageSize => if f = 0 then { s with pcie := { s.pcie with pageSize := BitVec.ofNat 32 v } } else s
    | .aspmL1 => if f = 0 then { s with pcie := { s.pcie with aspmL1 := on } } else s
    | .bar0 => if f = 0 then upd (fun x => { x with bar0 := barOf 26 v }) else s
    | .bar2 => if f = 0 then upd (fun x => { x with bar2 := barOf 16 v }) else s
    | .vfBar0 => pf (fun p => { p with vfBar0 := barOf 16 v })
    | .vfBar2 => pf (fun p => { p with vfBar2 := barOf 14 v })
    | .maxPayload => if v ≤ 2 then upd (fun x => { x with maxPayload := v }) else s
    | .maxRead => if v ≤ 5 then upd (fun x => { x with maxRead := v }) else s
    | .cplTimeout => upd (fun x => { x with cplTimeout := v % 16 })
    | .ecrcGen => upd (fun x => { x with ecrcGen := on })
    | .ecrcCheck => upd (fun x => { x with ecrcCheck := on })
    | .bigTags => upd (fun x => { x with bigTags := on })
    | .acs => pf (fun p => { p with acs := BitVec.ofNat 16 v })

/-- R9: a host write to a register that has no row of its own; and an ARONG_REQ write whose CMD the catalogue does not hold,
which is answered as any other request, with ST_BAD_COMMAND (R137, R142). -/
def execRegWrite (w : RegWr) (s : State) : Host.Outcome State Fault Refusal :=
  match w with
  | .bar f o size v => .next (if s.pcie.linkUp then s.writeBar f o size v else s)
  | .bar2 f o size v => .next (if s.pcie.linkUp then s.writeBar2 f o size v else s)
  | .cfg f fld v => .next (if s.pcie.linkUp then s.writeCfg f fld v else s)
  | .arongReq cmd seq ok =>
    .next (if knownCmd cmd then s
      else s.run { iss := .smb, pecOk := ok, seq := seq.setWidth 32 } { smb := true } (fun _ => .err (stBadCommand, cmd.toNat)))

end Sys2Proof.Machine
end

