-- ==== Sys2Proof/Machine/Dispatch.lean ====
section
/-!
DEFINITION. The dispatch of the commands to their meanings, one arm per constructor.
-/
namespace Sys2Proof.Machine

def exec (i : Instr) (s : State) : Host.Outcome State Fault Refusal :=
  match i with
  -- Arong commands (R137)
  | .devInfo h => Sys2Proof.Machine.execDevInfo h s
  | .devStatus h => Sys2Proof.Machine.execDevStatus h s
  | .devExpert h enable => Sys2Proof.Machine.execDevExpert h enable s
  | .devLog h first out => Sys2Proof.Machine.execDevLog h first out s
  | .fnInfo h vf => Sys2Proof.Machine.execFnInfo h vf s
  | .fnQuota h profile vf quota => Sys2Proof.Machine.execFnQuota h profile vf quota s
  | .fnPerm h vf perm => Sys2Proof.Machine.execFnPerm h vf perm s
  | .queAssign h q fn slot cls => Sys2Proof.Machine.execQueAssign h q fn slot cls s
  | .queRelease h q => Sys2Proof.Machine.execQueRelease h q s
  | .queClass h cls profile weight masks => Sys2Proof.Machine.execQueClass h cls profile weight masks s
  | .queInfo h queue => Sys2Proof.Machine.execQueInfo h queue s
  | .queMove h q cls => Sys2Proof.Machine.execQueMove h q cls s
  | .txnBegin h timeout => Sys2Proof.Machine.execTxnBegin h timeout s
  | .txnCommit h => Sys2Proof.Machine.execTxnCommit h s
  | .txnRollback h => Sys2Proof.Machine.execTxnRollback h s
  | .txnStatus h => Sys2Proof.Machine.execTxnStatus h s
  | .portMode h pair profile params => Sys2Proof.Machine.execPortMode h pair profile params s
  | .portEnable h pair => Sys2Proof.Machine.execPortEnable h pair s
  | .portDisable h pair => Sys2Proof.Machine.execPortDisable h pair s
  | .portStatus h port => Sys2Proof.Machine.execPortStatus h port s
  | .portRecal h port lane disruptive => Sys2Proof.Machine.execPortRecal h port lane disruptive s
  | .saCreate h dir sa pair suite params => Sys2Proof.Machine.execSaCreate h dir sa pair suite params s
  | .saStage h dir sa key an pn ssci salt => Sys2Proof.Machine.execSaStage h dir sa key an pn ssci salt s
  | .saCommit h dir sa => Sys2Proof.Machine.execSaCommit h dir sa s
  | .saDelete h dir sa => Sys2Proof.Machine.execSaDelete h dir sa s
  | .saTimers h profile overlap drain => Sys2Proof.Machine.execSaTimers h profile overlap drain s
  | .saStatus h dir sa => Sys2Proof.Machine.execSaStatus h dir sa s
  | .keyInfo h key => Sys2Proof.Machine.execKeyInfo h key s
  | .keyFree h key => Sys2Proof.Machine.execKeyFree h key s
  | .keyImport h usage alg wrap blob => Sys2Proof.Machine.execKeyImport h usage alg wrap blob s
  | .keyUpdate h record => Sys2Proof.Machine.execKeyUpdate h record s
  | .keyAttest h challenge => Sys2Proof.Machine.execKeyAttest h challenge s
  | .keyList h first out => Sys2Proof.Machine.execKeyList h first out s
  | .fltBudget h profile tokens caps => Sys2Proof.Machine.execFltBudget h profile tokens caps s
  | .fltStatus h => Sys2Proof.Machine.execFltStatus h s
  | .pwrTelemetry h rail => Sys2Proof.Machine.execPwrTelemetry h rail s
  | .pwrState h profile target ms => Sys2Proof.Machine.execPwrState h profile target ms s
  | .pwrWake h alarm => Sys2Proof.Machine.execPwrWake h alarm s
  | .grtStatus h => Sys2Proof.Machine.execGrtStatus h s
  | .grtKat h target pass => Sys2Proof.Machine.execGrtKat h target pass s
  | .scrStatus h => Sys2Proof.Machine.execScrStatus h s
  | .scrClear h cause => Sys2Proof.Machine.execScrClear h cause s
  | .scrConfig h profile cause rank quiet => Sys2Proof.Machine.execScrConfig h profile cause rank quiet s
  | .tmpStatusCmd h => Sys2Proof.Machine.execTmpStatusCmd h s
  | .tmpClear h buf ok => Sys2Proof.Machine.execTmpClear h buf ok s
  | .tmpTest h source detected after => Sys2Proof.Machine.execTmpTest h source detected after s
  | .lcyStatusCmd h => Sys2Proof.Machine.execLcyStatusCmd h s
  | .lcyAdvance h buf wordFails candFails => Sys2Proof.Machine.execLcyAdvance h buf wordFails candFails s
  | .lcyDebug h token => Sys2Proof.Machine.execLcyDebug h token s
  | .fwInfo h => Sys2Proof.Machine.execFwInfo h s
  | .fwStage h image buf ok => Sys2Proof.Machine.execFwStage h image buf ok s
  | .fwActivate h image => Sys2Proof.Machine.execFwActivate h image s
  | .fwPutty h buf => Sys2Proof.Machine.execFwPutty h buf s
  | .fwRecover h buf ok => Sys2Proof.Machine.execFwRecover h buf ok s
  | .engStatus h kind idx => Sys2Proof.Machine.execEngStatus h kind idx s
  | .engRetire h kind idx => Sys2Proof.Machine.execEngRetire h kind idx s
  | .engKat h kind idx => Sys2Proof.Machine.execEngKat h kind idx s
  | .engMargin h => Sys2Proof.Machine.execEngMargin h s
  | .hashExport h n out => Sys2Proof.Machine.execHashExport h n out s
  | .ctxFree h n => Sys2Proof.Machine.execCtxFree h n s
  | .opFamily h code d li lo => Sys2Proof.Machine.execOpFamily h code d li lo s
  -- Mailbox and SMBus events
  | .cmdTimeLimit h => Sys2Proof.Machine.execCmdTimeLimit h s
  | .mbxDoneClear mask => Sys2Proof.Machine.execMbxDoneClear mask s
  | .vmbDoneClear vf => Sys2Proof.Machine.execVmbDoneClear vf s
  | .smbusTimeout => Sys2Proof.Machine.execSmbusTimeout s
  -- PMBus and telemetry (R551, R552)
  | .pmbusPage op => Sys2Proof.Machine.execPmbusPage op s
  | .operation op => Sys2Proof.Machine.execOperation op s
  | .clearFaults op => Sys2Proof.Machine.execClearFaults op s
  | .capability op => Sys2Proof.Machine.execCapability op s
  | .voutMode op => Sys2Proof.Machine.execVoutMode op s
  | .ioutOcWarnLimit op => Sys2Proof.Machine.execIoutOcWarnLimit op s
  | .otWarnLimit op => Sys2Proof.Machine.execOtWarnLimit op s
  | .vinOvWarnLimit op => Sys2Proof.Machine.execVinOvWarnLimit op s
  | .vinUvWarnLimit op => Sys2Proof.Machine.execVinUvWarnLimit op s
  | .statusByte op => Sys2Proof.Machine.execStatusByte op s
  | .statusWord op => Sys2Proof.Machine.execStatusWord op s
  | .statusVout op => Sys2Proof.Machine.execStatusVout op s
  | .statusIout op => Sys2Proof.Machine.execStatusIout op s
  | .statusInput op => Sys2Proof.Machine.execStatusInput op s
  | .statusTemperature op => Sys2Proof.Machine.execStatusTemperature op s
  | .statusMfrSpecific op => Sys2Proof.Machine.execStatusMfrSpecific op s
  | .readVin op => Sys2Proof.Machine.execReadVin op s
  | .readIin op => Sys2Proof.Machine.execReadIin op s
  | .readVout op => Sys2Proof.Machine.execReadVout op s
  | .readIout op => Sys2Proof.Machine.execReadIout op s
  | .readTemperature1 op => Sys2Proof.Machine.execReadTemperature1 op s
  | .readPout op => Sys2Proof.Machine.execReadPout op s
  | .readPin op => Sys2Proof.Machine.execReadPin op s
  | .pmbusRevision op => Sys2Proof.Machine.execPmbusRevision op s
  | .mfrId op => Sys2Proof.Machine.execMfrId op s
  | .mfrModel op => Sys2Proof.Machine.execMfrModel op s
  | .alertResponse => Sys2Proof.Machine.execAlertResponse s
  | .telemetrySample page mv ma dc => Sys2Proof.Machine.execTelemetrySample page mv ma dc s
  -- JTAG (R489)
  | .jIdcode => Sys2Proof.Machine.execJIdcode s
  | .jExtest => Sys2Proof.Machine.execJExtest s
  | .jSamplePreload value => Sys2Proof.Machine.execJSamplePreload value s
  | .jClamp => Sys2Proof.Machine.execJClamp s
  | .jHighz => Sys2Proof.Machine.execJHighz s
  | .jDbgHalt => Sys2Proof.Machine.execJDbgHalt s
  | .jDbgDiag => Sys2Proof.Machine.execJDbgDiag s
  | .jDbgTrace => Sys2Proof.Machine.execJDbgTrace s
  | .jDbgSerdes => Sys2Proof.Machine.execJDbgSerdes s
  | .jDbgLstep => Sys2Proof.Machine.execJDbgLstep s
  | .jDbgMram => Sys2Proof.Machine.execJDbgMram s
  | .jDbgScan => Sys2Proof.Machine.execJDbgScan s
  | .jBypass => Sys2Proof.Machine.execJBypass s
  -- Host writes, and reads with side effects
  | .regWrite w => Sys2Proof.Machine.execRegWrite w s
  | .unmappedRead r => Sys2Proof.Machine.execUnmappedRead r s
  | .expertWindowRead o size => Sys2Proof.Machine.execExpertWindowRead o size s
  | .reg64LowRead f o => Sys2Proof.Machine.execReg64LowRead f o s
  | .pcieErrCntRead k => Sys2Proof.Machine.execPcieErrCntRead k s
  | .queJobsCntRead f p => Sys2Proof.Machine.execQueJobsCntRead f p s
  | .spgYieldCntRead => Sys2Proof.Machine.execSpgYieldCntRead s
  | .bndFullCntRead => Sys2Proof.Machine.execBndFullCntRead s
  | .fltWaitCntRead => Sys2Proof.Machine.execFltWaitCntRead s
  | .fltLimitCntRead => Sys2Proof.Machine.execFltLimitCntRead s
  | .rndSaevRead => Sys2Proof.Machine.execRndSaevRead s
  | .rndSaevStatRead => Sys2Proof.Machine.execRndSaevStatRead s
  | .evqRecLoRead => Sys2Proof.Machine.execEvqRecLoRead s
  | .evqRecHiRead => Sys2Proof.Machine.execEvqRecHiRead s
  | .evqStatusRead => Sys2Proof.Machine.execEvqStatusRead s
  -- Queues
  | .quePiWrite f page v => Sys2Proof.Machine.execQuePiWrite f page v s
  | .pushSlotWrite f page off data => Sys2Proof.Machine.execPushSlotWrite f page off data s
  | .queInvalHold f page idx => Sys2Proof.Machine.execQueInvalHold f page idx s
  | .queInvalRelease f page idx => Sys2Proof.Machine.execQueInvalRelease f page idx s
  | .queueEnable f page irq => Sys2Proof.Machine.execQueueEnable f page irq s
  | .queueDisable f page irq => Sys2Proof.Machine.execQueueDisable f page irq s
  | .queueStopped q => Sys2Proof.Machine.execQueueStopped q s
  | .queModWrite f page timer count => Sys2Proof.Machine.execQueModWrite f page timer count s
  | .msixUnmask f vec enable => Sys2Proof.Machine.execMsixUnmask f vec enable s
  | .descriptorFetch q r => Sys2Proof.Machine.execDescriptorFetch q r s
  | .jobDispatch q => Sys2Proof.Machine.execJobDispatch q s
  | .jobEnd id => Sys2Proof.Machine.execJobEnd id s
  | .queModTimer q => Sys2Proof.Machine.execQueModTimer q s
  | .fence q => Sys2Proof.Machine.execFence q s
  | .nop q => Sys2Proof.Machine.execNop q s
  -- Jobs
  | .aeadSeal id inp => Sys2Proof.Machine.execAeadSeal id inp s
  | .aeadOpen id inp => Sys2Proof.Machine.execAeadOpen id inp s
  | .gmacTag id inp => Sys2Proof.Machine.execGmacTag id inp s
  | .gmacCheck id inp => Sys2Proof.Machine.execGmacCheck id inp s
  | .kemKeygen id inp ok => Sys2Proof.Machine.execKemKeygen id inp ok s
  | .kemEncaps id inp => Sys2Proof.Machine.execKemEncaps id inp s
  | .kemDecaps id inp => Sys2Proof.Machine.execKemDecaps id inp s
  | .hybEncaps id inp => Sys2Proof.Machine.execHybEncaps id inp s
  | .hybDecaps id inp => Sys2Proof.Machine.execHybDecaps id inp s
  | .kemRekey id inp => Sys2Proof.Machine.execKemRekey id inp s
  | .hybridLathPart id inp ok => Sys2Proof.Machine.execHybridLathPart id inp ok s
  | .dsaKeygen id inp ok => Sys2Proof.Machine.execDsaKeygen id inp ok s
  | .dsaSign id inp ok => Sys2Proof.Machine.execDsaSign id inp ok s
  | .dsaVerify id inp => Sys2Proof.Machine.execDsaVerify id inp s
  | .slhKeygen id inp ok => Sys2Proof.Machine.execSlhKeygen id inp ok s
  | .slhSign id inp ok => Sys2Proof.Machine.execSlhSign id inp ok s
  | .slhVerify id inp => Sys2Proof.Machine.execSlhVerify id inp s
  | .lmsKeygen id inp ok => Sys2Proof.Machine.execLmsKeygen id inp ok s
  | .lmsSign id inp ok => Sys2Proof.Machine.execLmsSign id inp ok s
  | .lmsVerify id inp => Sys2Proof.Machine.execLmsVerify id inp s
  | .reservationWriteDone k how => Sys2Proof.Machine.execReservationWriteDone k how s
  | .lmsRebuildDone k => Sys2Proof.Machine.execLmsRebuildDone k s
  | .hqcKeygen id inp ok => Sys2Proof.Machine.execHqcKeygen id inp ok s
  | .hqcEncaps id inp => Sys2Proof.Machine.execHqcEncaps id inp s
  | .hqcDecaps id inp => Sys2Proof.Machine.execHqcDecaps id inp s
  | .mceKeygen id inp ok => Sys2Proof.Machine.execMceKeygen id inp ok s
  | .mceEncaps id inp => Sys2Proof.Machine.execMceEncaps id inp s
  | .mceDecaps id inp => Sys2Proof.Machine.execMceDecaps id inp s
  | .mceCache id inp => Sys2Proof.Machine.execMceCache id inp s
  | .regionAlloc id q => Sys2Proof.Machine.execRegionAlloc id q s
  | .mceKeyLoaded id inp => Sys2Proof.Machine.execMceKeyLoaded id inp s
  | .hashDigest id inp => Sys2Proof.Machine.execHashDigest id inp s
  | .hashImport id inp => Sys2Proof.Machine.execHashImport id inp s
  | .macHmac id inp => Sys2Proof.Machine.execMacHmac id inp s
  | .macKmac id inp => Sys2Proof.Machine.execMacKmac id inp s
  | .kdfDerive id inp => Sys2Proof.Machine.execKdfDerive id inp s
  | .poolYield id => Sys2Proof.Machine.execPoolYield id s
  | .poolResume id => Sys2Proof.Machine.execPoolResume id s
  | .ecKeygen id inp ok => Sys2Proof.Machine.execEcKeygen id inp ok s
  | .ecDh id inp ok => Sys2Proof.Machine.execEcDh id inp ok s
  | .ecSign id inp ok => Sys2Proof.Machine.execEcSign id inp ok s
  | .ecVerify id inp => Sys2Proof.Machine.execEcVerify id inp s
  | .rsaSign id inp ok => Sys2Proof.Machine.execRsaSign id inp ok s
  | .rsaVerify id inp => Sys2Proof.Machine.execRsaVerify id inp s
  | .rsaEncrypt id inp => Sys2Proof.Machine.execRsaEncrypt id inp s
  | .rsaDecrypt id inp ok => Sys2Proof.Machine.execRsaDecrypt id inp ok s
  | .bnModexp id inp => Sys2Proof.Machine.execBnModexp id inp s
  | .bnModmul id inp => Sys2Proof.Machine.execBnModmul id inp s
  -- Lath microwords: the sequencing slot (R213)
  | .mSeq n next => Sys2Proof.Machine.execMSeq n next s
  | .mBranch n csel next => Sys2Proof.Machine.execMBranch n csel next s
  | .mCall n next => Sys2Proof.Machine.execMCall n next s
  | .mReturn n => Sys2Proof.Machine.execMReturn n s
  | .mSafe n next => Sys2Proof.Machine.execMSafe n next s
  | .mHalt n => Sys2Proof.Machine.execMHalt n s
  | .mDispatch n reg next => Sys2Proof.Machine.execMDispatch n reg next s
  | .mPjump n next => Sys2Proof.Machine.execMPjump n next s
  | .mRjump n next => Sys2Proof.Machine.execMRjump n next s
  -- Lath microwords: the scalar slot (R211)
  | .mAdd n rd rs1 rs2 => Sys2Proof.Machine.execMAdd n rd rs1 rs2 s
  | .mSub n rd rs1 rs2 => Sys2Proof.Machine.execMSub n rd rs1 rs2 s
  | .mAnd n rd rs1 rs2 => Sys2Proof.Machine.execMAnd n rd rs1 rs2 s
  | .mOr n rd rs1 rs2 => Sys2Proof.Machine.execMOr n rd rs1 rs2 s
  | .mXor n rd rs1 rs2 => Sys2Proof.Machine.execMXor n rd rs1 rs2 s
  | .mSll n rd rs1 rs2 => Sys2Proof.Machine.execMSll n rd rs1 rs2 s
  | .mSrl n rd rs1 rs2 => Sys2Proof.Machine.execMSrl n rd rs1 rs2 s
  | .mSra n rd rs1 rs2 => Sys2Proof.Machine.execMSra n rd rs1 rs2 s
  | .mMul n rd rs1 rs2 => Sys2Proof.Machine.execMMul n rd rs1 rs2 s
  | .mMulhu n rd rs1 rs2 => Sys2Proof.Machine.execMMulhu n rd rs1 rs2 s
  | .mAddi n rd rs1 imm => Sys2Proof.Machine.execMAddi n rd rs1 imm s
  | .mAndi n rd rs1 imm => Sys2Proof.Machine.execMAndi n rd rs1 imm s
  | .mOri n rd rs1 imm => Sys2Proof.Machine.execMOri n rd rs1 imm s
  | .mXori n rd rs1 imm => Sys2Proof.Machine.execMXori n rd rs1 imm s
  | .mShi n rd rs1 mode cnt => Sys2Proof.Machine.execMShi n rd rs1 mode cnt s
  | .mLui n rd imm => Sys2Proof.Machine.execMLui n rd imm s
  | .mCmp n rs1 rs2 => Sys2Proof.Machine.execMCmp n rs1 rs2 s
  | .mCmpi n rs1 imm => Sys2Proof.Machine.execMCmpi n rs1 imm s
  | .mMfs n rd num => Sys2Proof.Machine.execMMfs n rd num s
  | .mMts n rs1 num => Sys2Proof.Machine.execMMts n rs1 num s
  | .mSel n rd rs1 rs2 => Sys2Proof.Machine.execMSel n rd rs1 rs2 s
  -- Lath microwords: the vector slot
  | .mVadd n v => Sys2Proof.Machine.execMVadd n v s
  | .mVsub n v => Sys2Proof.Machine.execMVsub n v s
  | .mVand n v => Sys2Proof.Machine.execMVand n v s
  | .mVor n v => Sys2Proof.Machine.execMVor n v s
  | .mVxor n v => Sys2Proof.Machine.execMVxor n v s
  | .mVsll n v => Sys2Proof.Machine.execMVsll n v s
  | .mVsrl n v => Sys2Proof.Machine.execMVsrl n v s
  | .mVsra n v => Sys2Proof.Machine.execMVsra n v s
  | .mVmul n v => Sys2Proof.Machine.execMVmul n v s
  | .mVmulhu n v => Sys2Proof.Machine.execMVmulhu n v s
  | .mVminu n v => Sys2Proof.Machine.execMVminu n v s
  | .mVmaxu n v => Sys2Proof.Machine.execMVmaxu n v s
  | .mVmv n v => Sys2Proof.Machine.execMVmv n v s
  | .mVcmp n v => Sys2Proof.Machine.execMVcmp n v s
  | .mVclmul n v => Sys2Proof.Machine.execMVclmul n v s
  | .mVaddq n v => Sys2Proof.Machine.execMVaddq n v s
  | .mVsubq n v => Sys2Proof.Machine.execMVsubq n v s
  | .mVmulq n v => Sys2Proof.Machine.execMVmulq n v s
  | .mVredq n v => Sys2Proof.Machine.execMVredq n v s
  | .mVntt n v => Sys2Proof.Machine.execMVntt n v s
  | .mVintt n v => Sys2Proof.Machine.execMVintt n v s
  | .mVtwid n v => Sys2Proof.Machine.execMVtwid n v s
  | .mVbmul n v => Sys2Proof.Machine.execMVbmul n v s
  | .mVcprs n v => Sys2Proof.Machine.execMVcprs n v s
  | .mVdcprs n v => Sys2Proof.Machine.execMVdcprs n v s
  | .mVunpk n v => Sys2Proof.Machine.execMVunpk n v s
  | .mVpack n v => Sys2Proof.Machine.execMVpack n v s
  | .mVcompress n v => Sys2Proof.Machine.execMVcompress n v s
  | .mVpopc n v => Sys2Proof.Machine.execMVpopc n v s
  | .mSetvl n v => Sys2Proof.Machine.execMSetvl n v s
  | .mVmop n v => Sys2Proof.Machine.execMVmop n v s
  | .mVmvxv n v => Sys2Proof.Machine.execMVmvxv n v s
  | .mVmvvx n v => Sys2Proof.Machine.execMVmvvx n v s
  | .mSmvxs n v => Sys2Proof.Machine.execMSmvxs n v s
  | .mSmvsx n v => Sys2Proof.Machine.execMSmvsx n v s
  | .mVslidedn n v => Sys2Proof.Machine.execMVslidedn n v s
  | .mVslideup n v => Sys2Proof.Machine.execMVslideup n v s
  | .mVred n v => Sys2Proof.Machine.execMVred n v s
  | .mVperm n v => Sys2Proof.Machine.execMVperm n v s
  | .mVbsll n v => Sys2Proof.Machine.execMVbsll n v s
  | .mVbsrl n v => Sys2Proof.Machine.execMVbsrl n v s
  | .mVbrot n v => Sys2Proof.Machine.execMVbrot n v s
  | .mVbpopc n v => Sys2Proof.Machine.execMVbpopc n v s
  | .mVbtrn n v => Sys2Proof.Machine.execMVbtrn n v s
  | .mVgfmul n v => Sys2Proof.Machine.execMVgfmul n v s
  | .mVfclr n v => Sys2Proof.Machine.execMVfclr n v s
  | .mVfrd n v => Sys2Proof.Machine.execMVfrd n v s
  | .mVaddqS n v => Sys2Proof.Machine.execMVaddqS n v s
  | .mVsubqS n v => Sys2Proof.Machine.execMVsubqS n v s
  | .mVmulqS n v => Sys2Proof.Machine.execMVmulqS n v s
  | .mVnttS n v => Sys2Proof.Machine.execMVnttS n v s
  | .mVinttS n v => Sys2Proof.Machine.execMVinttS n v s
  | .mVbmulS n v => Sys2Proof.Machine.execMVbmulS n v s
  | .mVxorS n v => Sys2Proof.Machine.execMVxorS n v s
  | .mVandS n v => Sys2Proof.Machine.execMVandS n v s
  | .mVshS n v => Sys2Proof.Machine.execMVshS n v s
  | .mVrefS n v => Sys2Proof.Machine.execMVrefS n v s
  | .mVa2bS n v => Sys2Proof.Machine.execMVa2bS n v s
  | .mVb2aS n v => Sys2Proof.Machine.execMVb2aS n v s
  | .mVcprsS n v => Sys2Proof.Machine.execMVcprsS n v s
  | .mVmeqzS n v => Sys2Proof.Machine.execMVmeqzS n v s
  | .mVrecomb n v => Sys2Proof.Machine.execMVrecomb n v s
  | .mVsplit n v => Sys2Proof.Machine.execMVsplit n v s
  -- Lath microwords: the memory slot (R269)
  | .mVle n m => Sys2Proof.Machine.execMVle n m s
  | .mVse n m => Sys2Proof.Machine.execMVse n m s
  | .mVlse n m => Sys2Proof.Machine.execMVlse n m s
  | .mVsse n m => Sys2Proof.Machine.execMVsse n m s
  | .mVlux n m => Sys2Proof.Machine.execMVlux n m s
  | .mVsux n m => Sys2Proof.Machine.execMVsux n m s
  | .mVlseg n m => Sys2Proof.Machine.execMVlseg n m s
  | .mVsseg n m => Sys2Proof.Machine.execMVsseg n m s
  | .mSld n m => Sys2Proof.Machine.execMSld n m s
  | .mSst n m => Sys2Proof.Machine.execMSst n m s
  | .mXld n m => Sys2Proof.Machine.execMXld n m s
  | .mXst n m => Sys2Proof.Machine.execMXst n m s
  -- Lath microwords: the Sponge and port slot (R218)
  | .mAcq n p => Sys2Proof.Machine.execMAcq n p s
  | .mRel n p => Sys2Proof.Machine.execMRel n p s
  | .mLock n p => Sys2Proof.Machine.execMLock n p s
  | .mUnlock n p => Sys2Proof.Machine.execMUnlock n p s
  | .mSinit n p => Sys2Proof.Machine.execMSinit n p s
  | .mSabs n p => Sys2Proof.Machine.execMSabs n p s
  | .mSsqz n p => Sys2Proof.Machine.execMSsqz n p s
  | .mMget n p => Sys2Proof.Machine.execMMget n p s
  | .mBload n p => Sys2Proof.Machine.execMBload n p s
  | .mBstor n p => Sys2Proof.Machine.execMBstor n p s
  | .mDin n xa xb => Sys2Proof.Machine.execMDin n xa xb s
  | .mDout n xa xb => Sys2Proof.Machine.execMDout n xa xb s
  -- Lath and engine events
  | .spongeOpDone n => Sys2Proof.Machine.execSpongeOpDone n s
  | .dmaDone n inp => Sys2Proof.Machine.execDmaDone n inp s
  | .arbRound q k ready cyc => Sys2Proof.Machine.execArbRound q k ready cyc s
  | .lockOver q r => Sys2Proof.Machine.execLockOver q r s
  | .safeMiss n => Sys2Proof.Machine.execSafeMiss n s
  | .preemptRequest n => Sys2Proof.Machine.execPreemptRequest n s
  | .jobResume n => Sys2Proof.Machine.execJobResume n s
  | .engineWipeDone hawk n => Sys2Proof.Machine.execEngineWipeDone hawk n s
  -- Frames and ports
  | .hostFrameRx n sub corr unc f => Sys2Proof.Machine.execHostFrameRx n sub corr unc f s
  | .lineFrameRx n sub corr unc f => Sys2Proof.Machine.execLineFrameRx n sub corr unc f s
  | .pauseRefresh n sub => Sys2Proof.Machine.execPauseRefresh n sub s
  | .renderFrameDone e => Sys2Proof.Machine.execRenderFrameDone e s
  | .commitEpoch => Sys2Proof.Machine.execCommitEpoch s
  | .overlapTimer a k => Sys2Proof.Machine.execOverlapTimer a k s
  | .drainTimer dir a k => Sys2Proof.Machine.execDrainTimer dir a k s
  | .txnTimeout => Sys2Proof.Machine.execTxnTimeout s
  | .portUp port sub => Sys2Proof.Machine.execPortUp port sub s
  | .portLockLoss port sub fec => Sys2Proof.Machine.execPortLockLoss port sub fec s
  | .remoteFault port sub => Sys2Proof.Machine.execRemoteFault port sub s
  | .renderTakeover u => Sys2Proof.Machine.execRenderTakeover u s
  | .maskFeedStall q stall => Sys2Proof.Machine.execMaskFeedStall q stall s
  -- Functions and the link
  | .vfEnable => Sys2Proof.Machine.execVfEnable s
  | .vfReady v => Sys2Proof.Machine.execVfReady v s
  | .vfDisable => Sys2Proof.Machine.execVfDisable s
  | .flr f => Sys2Proof.Machine.execFlr f s
  | .flrComplete f => Sys2Proof.Machine.execFlrComplete f s
  | .persistRestore => Sys2Proof.Machine.execPersistRestore s
  | .busMasterEnable f => Sys2Proof.Machine.execBusMasterEnable f s
  | .d3hotEntry f => Sys2Proof.Machine.execD3hotEntry f s
  | .d3hotExit f => Sys2Proof.Machine.execD3hotExit f s
  | .linkDown => Sys2Proof.Machine.execLinkDown s
  | .linkChange speed width flit => Sys2Proof.Machine.execLinkChange speed width flit s
  | .l1Entry => Sys2Proof.Machine.execL1Entry s
  | .dmaReadError id e => Sys2Proof.Machine.execDmaReadError id e s
  -- Float, power and clocks
  | .floatGrant => Sys2Proof.Machine.execFloatGrant s
  | .revokeAck h => Sys2Proof.Machine.execRevokeAck h s
  | .fltRevokeLate h => Sys2Proof.Machine.execFltRevokeLate h s
  | .fltLimitAssert => Sys2Proof.Machine.execFltLimitAssert s
  | .fltLimitDeassert => Sys2Proof.Machine.execFltLimitDeassert s
  | .fltOverdraw h => Sys2Proof.Machine.execFltOverdraw h s
  | .tjWarn => Sys2Proof.Machine.execTjWarn s
  | .tjCrit => Sys2Proof.Machine.execTjCrit s
  | .phaseFault => Sys2Proof.Machine.execPhaseFault s
  | .railOor page => Sys2Proof.Machine.execRailOor page s
  | .vcoreSlewDone => Sys2Proof.Machine.execVcoreSlewDone s
  | .clockRelock u => Sys2Proof.Machine.execClockRelock u s
  | .rootUnlock refclk => Sys2Proof.Machine.execRootUnlock refclk s
  | .sdUnlock k => Sys2Proof.Machine.execSdUnlock k s
  | .pcieRefclkLoss => Sys2Proof.Machine.execPcieRefclkLoss s
  -- Starts and power states
  | .coldStart inp => Sys2Proof.Machine.execColdStart inp s
  | .warmReset src held inp => Sys2Proof.Machine.execWarmReset src held inp s
  | .vinLoss => Sys2Proof.Machine.execVinLoss s
  | .vinOvervoltage => Sys2Proof.Machine.execVinOvervoltage s
  | .vinWarn => Sys2Proof.Machine.execVinWarn s
  | .powerStepReady inp => Sys2Proof.Machine.execPowerStepReady inp s
  | .seqStepTimeout => Sys2Proof.Machine.execSeqStepTimeout s
  | .startTimeout => Sys2Proof.Machine.execStartTimeout s
  | .startRetry inp => Sys2Proof.Machine.execStartRetry inp s
  | .lcReset inp => Sys2Proof.Machine.execLcReset inp s
  | .fwRecoverReset inp => Sys2Proof.Machine.execFwRecoverReset inp s
  | .idleEntry => Sys2Proof.Machine.execIdleEntry s
  | .dustJobTimeout => Sys2Proof.Machine.execDustJobTimeout s
  | .dustSample out => Sys2Proof.Machine.execDustSample out s
  | .dustWake inp => Sys2Proof.Machine.execDustWake inp s
  | .wakeN => Sys2Proof.Machine.execWakeN s
  | .rtcAlarm => Sys2Proof.Machine.execRtcAlarm s
  -- Custody die
  | .tamperAlarm k stays => Sys2Proof.Machine.execTamperAlarm k stays s
  | .debugExpire => Sys2Proof.Machine.execDebugExpire s
  | .sourceWindowEnd k w => Sys2Proof.Machine.execSourceWindowEnd k w s
  | .seedDone lost t => Sys2Proof.Machine.execSeedDone lost t s
  | .gritStartTimeout => Sys2Proof.Machine.execGritStartTimeout s
  | .reseedDue n byCount => Sys2Proof.Machine.execReseedDue n byCount s
  | .reseedComplete n => Sys2Proof.Machine.execReseedComplete n s
  | .genOverdue n byCount => Sys2Proof.Machine.execGenOverdue n byCount s
  | .rngWaitTimeout id n => Sys2Proof.Machine.execRngWaitTimeout id n s
  | .refreshSweep => Sys2Proof.Machine.execRefreshSweep s
  | .slotWipe => Sys2Proof.Machine.execSlotWipe s
  | .journalCommitDone ok => Sys2Proof.Machine.execJournalCommitDone ok s
  -- Scrim
  | .causeReport c unit stays => Sys2Proof.Machine.execCauseReport c unit stays s
  | .wire g b unit => Sys2Proof.Machine.execWire g b unit s
  | .scrCheck => Sys2Proof.Machine.execScrCheck s
  | .autoExit w dev inp => Sys2Proof.Machine.execAutoExit w dev inp s
  | .seamRetransmit auth fails => Sys2Proof.Machine.execSeamRetransmit auth fails s
  -- Plumb
  | .katDone u fail => Sys2Proof.Machine.execKatDone u fail s
  | .unitDrained u => Sys2Proof.Machine.execUnitDrained u s
  | .engKatTimeout u => Sys2Proof.Machine.execEngKatTimeout u s
  | .dailyCycle => Sys2Proof.Machine.execDailyCycle s
  | .plbMarginLow u slack temp => Sys2Proof.Machine.execPlbMarginLow u slack temp s
  | .replanRetry => Sys2Proof.Machine.execReplanRetry s
  -- Further events
  | .mbxDoorbell vf slot bad => Sys2Proof.Machine.execMbxDoorbell vf slot bad s
  | .vbatLoss => Sys2Proof.Machine.execVbatLoss s
  | .vbatApplied => Sys2Proof.Machine.execVbatApplied s
  | .vinRecovery => Sys2Proof.Machine.execVinRecovery s
  | .thermalCapLift => Sys2Proof.Machine.execThermalCapLift s
  | .pcieLinkError kind => Sys2Proof.Machine.execPcieLinkError kind s
  | .pauseExpiry n sub prios => Sys2Proof.Machine.execPauseExpiry n sub prios s
  | .sequenceRestart inp => Sys2Proof.Machine.execSequenceRestart inp s
  | .mramScrub corr unc => Sys2Proof.Machine.execMramScrub corr unc s
  | .drainedMeasurementDone u slack temp => Sys2Proof.Machine.execDrainedMeasurementDone u slack temp s
  | .cycleWaitExpiry => Sys2Proof.Machine.execCycleWaitExpiry s

end Sys2Proof.Machine
end

