-- ==== Sys2Proof/Machine/Micro.lean ====
section
/-!
DEFINITION. The control store as an engine reads it (R210-R213, R215, R218, R224, R225, R249, R269): the 128 bits of a
microword, its slots as the rows that they stand for, and one issue of an engine. The ROM's words are a free value of
Config; patch words are those of the patch RAM.
-/
namespace Sys2Proof.Machine

/-! ## Slots -/

/-- What a command does. -/
abbrev Meaning := State → Host.Outcome State Fault Refusal

/-- What a field of a microword holds: nothing, a row of the command table, an encoding that latches a cause, or a reserved SEQ field. A vector
or memory slot with `inert` does nothing while a fault record is valid (R277). -/
inductive Micro where
  | none
  | row (f : Meaning)
  | bad (cause : Nat) (inert : Bool)
  | badSeq

/-- A slot whose fields must satisfy `ok`. -/
def Micro.when (ok : Bool) (cause : Nat) (f : Meaning) : Micro := if ok then .row f else .bad cause false

/-- The scalar slot (R211). A field that must be 0 and is not latches RESV_SOP as a reserved SOP does (DEDUCED, log entry
111). -/
def scalarSlot (n : Nat) (w : W32) : Micro :=
  let rd := w.extractLsb' 21 5
  let rs1 := w.extractLsb' 16 5
  let rs2 := w.extractLsb' 11 5
  let imm := w.extractLsb' 0 16
  let reg := Micro.when (w.extractLsb' 0 11 == 0) bResvSop
  match w.toNat / 67108864 with
  | 0x00 => .none
  | 0x01 => reg (execMAdd n rd rs1 rs2)
  | 0x02 => reg (execMSub n rd rs1 rs2)
  | 0x03 => reg (execMAnd n rd rs1 rs2)
  | 0x04 => reg (execMOr n rd rs1 rs2)
  | 0x05 => reg (execMXor n rd rs1 rs2)
  | 0x06 => reg (execMSll n rd rs1 rs2)
  | 0x07 => reg (execMSrl n rd rs1 rs2)
  | 0x08 => reg (execMSra n rd rs1 rs2)
  | 0x09 => reg (execMMul n rd rs1 rs2)
  | 0x0A => reg (execMMulhu n rd rs1 rs2)
  | 0x0B => .row (execMAddi n rd rs1 imm)
  | 0x0C => .row (execMAndi n rd rs1 imm)
  | 0x0D => .row (execMOri n rd rs1 imm)
  | 0x0E => .row (execMXori n rd rs1 imm)
  | 0x0F => .when (imm.extractLsb' 8 8 == 0) bResvSop (execMShi n rd rs1 (imm.extractLsb' 6 2) (imm.extractLsb' 0 6))
  | 0x10 => .row (execMLui n rd imm)
  | 0x11 => .when (w.extractLsb' 0 11 == 0 && rd == 0) bResvSop (execMCmp n rs1 rs2)
  | 0x12 => .when (rd == 0) bResvSop (execMCmpi n rs1 imm)
  | 0x13 => .row (execMMfs n rd (imm.extractLsb' 0 8))
  | 0x14 => .row (execMMts n rs1 (imm.extractLsb' 0 8))
  | 0x15 => reg (execMSel n rd rs1 rs2)
  | _ => .bad bResvSop false

/-- VOP 0x01 to 0x3F, in order (R254, R255, R259, R260, R264, R278). -/
def vecOps : List (Nat → VSlot → Meaning) :=
  [execMVadd, execMVsub, execMVand, execMVor, execMVxor, execMVsll, execMVsrl, execMVsra, execMVmul, execMVmulhu, execMVminu, execMVmaxu, execMVmv, execMVcmp,
   execMVclmul, execMVaddq, execMVsubq, execMVmulq, execMVredq, execMVntt, execMVintt, execMVtwid, execMVbmul, execMVunpk, execMVpack, execMVcprs, execMVdcprs,
   execMVcompress, execMVpopc, execMSetvl, execMVmop, execMVmvxv, execMVmvvx, execMSmvxs, execMSmvsx, execMVslidedn, execMVslideup, execMVred, execMVperm,
   execMVbsll, execMVbsrl, execMVbrot, execMVbpopc, execMVbtrn, execMVgfmul, execMVfclr, execMVfrd, execMVaddqS, execMVsubqS, execMVmulqS, execMVnttS,
   execMVinttS, execMVbmulS, execMVxorS, execMVandS, execMVshS, execMVrefS, execMVa2bS, execMVb2aS, execMVcprsS, execMVmeqzS, execMVrecomb, execMVsplit]

/-- The fields of the vector slot (R249). -/
def vecFields (w : W32) : VSlot :=
  { vd := w.extractLsb' 21 5, vs1 := w.extractLsb' 16 5, vs2 := w.extractLsb' 11 5, u := w.extractLsb' 10 1,
    ew := w.extractLsb' 8 2, msk := w.extractLsb' 5 3, fn := w.extractLsb' 0 5 }

/-- The vector slot; `vnop` needs every field 0 (R250, R254). -/
def vectorSlot (n : Nat) (w : W32) : Micro :=
  if w = 0 then .none
  else if w.extractLsb' 26 6 = 0 then .bad bResvSop true
  else
    match vecOps[(w.extractLsb' 26 6).toNat - 1]? with
    | some f => .row (f n (vecFields w))
    | none => .bad bResvSop true

/-- The memory slot (R269): V form for MOP 1-8, X form for 11-14; the others are reserved (R250). -/
def memorySlot (n : Nat) (w : BitVec 24) : Micro :=
  let v : MemV :=
    { vr := w.extractLsb' 15 5, xa := w.extractLsb' 10 5, xb := w.extractLsb' 5 5, msk := w.extractLsb' 2 3,
      nf := w.extractLsb' 0 2 }
  let x : MemX := { rg := w.extractLsb' 15 5, xa := w.extractLsb' 10 5, off := w.extractLsb' 0 10 }
  if w = 0 then .none
  else
    match w.toNat / 1048576 with
    | 1 => .row (execMVle n v)
    | 2 => .row (execMVse n v)
    | 3 => .row (execMVlse n v)
    | 4 => .row (execMVsse n v)
    | 5 => .row (execMVlux n v)
    | 6 => .row (execMVsux n v)
    | 7 => .row (execMVlseg n v)
    | 8 => .row (execMVsseg n v)
    | 11 => .row (execMSld n x)
    | 12 => .row (execMSst n x)
    | 13 => .row (execMXld n x)
    | 14 => .row (execMXst n x)
    | _ => .bad bResvSop true

/-- The Sponge and port slot (R218). -/
def portSlot (n : Nat) (w : W16) : Micro :=
  let p : PSlot := { res := w.extractLsb' 8 4, arg := w.extractLsb' 5 3, vreg := w.extractLsb' 0 5 }
  let xa := w.extractLsb' 7 5
  let xb := w.extractLsb' 2 5
  if w = 0 then .none
  else
    match w.toNat / 4096 with
    | 1 => .row (execMAcq n p)
    | 2 => .row (execMRel n p)
    | 3 => .row (execMLock n p)
    | 4 => .row (execMUnlock n p)
    | 5 => .row (execMSinit n p)
    | 6 => .row (execMSabs n p)
    | 7 => .row (execMSsqz n p)
    | 8 => .row (execMMget n p)
    | 9 => .row (execMBload n p)
    | 10 => .row (execMBstor n p)
    | 11 => .when (w.extractLsb' 0 2 == 0) bPortOp (execMDin n xa xb)
    | 12 => .when (w.extractLsb' 0 2 == 0) bPortOp (execMDout n xa xb)
    | _ => .bad bPortOp false

/-- SEQ, CSEL and NEXT (R213). A field that must be 0 and is not latches RESV_SEQ (DEDUCED, log entry 111). -/
def seqField (n : Nat) (seq : BitVec 4) (csel : BitVec 6) (next : BitVec 14) : Micro :=
  let c := fun (ok : Bool) (f : Meaning) => if ok then Micro.row f else .badSeq
  match seq.toNat with
  | 0 => c (csel == 0) (execMSeq n next)
  | 1 => .row (execMBranch n csel next)
  | 2 => c (csel == 0) (execMCall n next)
  | 3 => c (csel == 0 && next == 0) (execMReturn n)
  | 4 => c (csel == 0) (execMSafe n next)
  | 5 => c (csel == 0 && next == 0) (execMHalt n)
  | 6 => .row (execMDispatch n (csel.extractLsb' 0 5) next)
  | 7 => c (csel == 0) (execMPjump n next)
  | 8 => c (csel == 0) (execMRjump n next)
  | _ => .badSeq

/-- The fields of a microword, its sequencing last (R210). -/
def microFields (n : Nat) (w : W128) : List Micro :=
  [scalarSlot n (w.extractLsb' 72 32), vectorSlot n (w.extractLsb' 40 32), memorySlot n (w.extractLsb' 16 24),
   portSlot n (w.extractLsb' 0 16), seqField n (w.extractLsb' 104 4) (w.extractLsb' 108 6) (w.extractLsb' 114 14)]

/-! ## Issuing -/

/-- The microword that engine `n` fetches (R224, R225). -/
def State.fetchMicro (s : State) (n : Nat) : W128 :=
  let e := s.lath n
  if e.pc.patch then Tbl.get 0 e.patchRam e.pc.addr.toNat else Config.lathRom e.pc.addr

/-- The state that an outcome goes on in. -/
def nextOr (s : State) : Host.Outcome State Fault Refusal → State
  | .next t => t
  | _ => s

/-- One field of a microword of engine `n` takes effect. -/
def runMicro (n : Nat) (s : State) : Micro → State
  | .none => s
  | .row f => nextOr s (f s)
  | .bad b inert =>
    nextOr s (slotRow n s (fun e _ => if inert && e.vfault.valid then s else s.engCause n b))
  | .badSeq => nextOr s (seqRow n false s (fun _ _ x => x.engCause n bResvSeq))

/-- Engine `n` issues the microword at its address, where it runs a job and no microword is under way. -/
def State.issue (s : State) (n : Nat) : State :=
  match s.jobOn .lath n with
  | some j =>
    if j.st = .running ∧ (s.lath n).running = true ∧ (s.lath n).stage = {} then
      (microFields n (s.fetchMicro n)).foldl (runMicro n) s
    else s
  | none => s

/-- Every engine issues one microword. -/
def issueAll : List Nat → State → State
  | [], s => s
  | n :: t, s => issueAll t (s.issue n)

end Sys2Proof.Machine
end

