-- ==== Sys2Proof/Machine/Tick.lean ====
section
/-!
DEFINITION. What one step does when no command waits: a CLK_SLOW tick of 40 ns while the compute die runs, in which every Lath
engine with a job issues one microword, or one cycle of XTAL32 while only the custody die has a supply (R512, R553, log
entries 1 and 111).
-/
namespace Sys2Proof.Machine

/-- CLK_SLOW ticks as RTC counts: 32 768 Hz beside 25 MHz. -/
def rtcOf (clk : W64) : Nat := clk.toNat * 512 / 390625

/-- A millisecond has passed: the transaction timeout runs down (R130), and the ages of the seeded generators rise. -/
def State.msTick (s : State) : State :=
  { s with
    mbx := { s.mbx with txn := s.mbx.txn.map (fun t => { t with remain := t.remain - 1 }) }
    grt := { s.grt with gens := Tbl.map {} (fun _ g => if g.st = .ok then { g with ageMs := satInc g.ageMs } else g) s.grt.gens } }

/-- A Lath Quad mask generator fills its buffer at one word for each CLK_FAB cycle, 32 in a tick (R222, R405). -/
def Gen.refill (k : Nat) (g : Gen) : Gen :=
  if 28 ≤ k ∧ k < 37 ∧ g.st = .ok then
    { g with fill := min 64 (g.fill + 32), generated := g.generated + BitVec.ofNat 64 (min 64 (g.fill + 32) - g.fill) }
  else g

def State.refill (s : State) : State :=
  { s with grt := { s.grt with gens := Tbl.map {} Gen.refill s.grt.gens } }

def State.tick (s0 : State) : State :=
  if s0.computeOn then
    let s := (issueAll (List.range 36) s0).refill
    let n := s.clk + 1
    let s1 := { s with clk := n, bkp := { s.bkp with rtc := s.bkp.rtc + BitVec.ofNat 64 (rtcOf n - rtcOf s.clk) } }
    if n.toNat % 25000 = 0 then s1.msTick else s1
  else if s0.pwr.vin || s0.pwr.vbat then { s0 with bkp := { s0.bkp with rtc := s0.bkp.rtc + 1 } }
  else s0

end Sys2Proof.Machine
end

