-- ==== Sys2Proof/Safety.lean ====
section
/-!
DEFINITION. What counts as a safe run: every step goes on, whatever commands arrive between two steps. After it (namespace Spec) the
vocabulary of the statements: when a command runs, how it is answered, when a job or a microword is at its turn. After it (namespace Spec) the
vocabulary of the statements: when a command runs, how it is answered, when a job or a microword is at its turn. After it (namespace Spec) the
vocabulary of the statements: when a command runs, how it is answered, when a job or a microword is at its turn. After it (namespace Spec) the
vocabulary of the statements: when a command runs, how it is answered, when a job or a microword is at its turn. After it (namespace Spec) the
vocabulary of the statements: when a command runs, how it is answered, when a job or a microword is at its turn. After it (namespace Spec) the
vocabulary of the statements: when a command runs, how it is answered, when a job or a microword is at its turn.
-/
namespace Sys2Proof.Safety
open Sys2Proof.Machine

/-- The host, a link partner, the board or the environment sends a command: it joins the end of the queue. -/
def send (c : Instr) (s : State) : State := { s with pending := s.pending ++ [c] }

/-- States that the block can reach from `s`, by steps and by commands sent to it. -/
inductive Reaches : State → State → Prop where
  | refl (s : State) : Reaches s s
  | step {s t u : State} : Reaches s t → Machine.step t = .next u → Reaches s u
  | send {s t : State} (c : Instr) : Reaches s t → Reaches s (send c t)

/-- A step of the block stops. -/
def Stops (s : State) : Prop := ∀ t, Machine.step s ≠ .next t

/-- `p` holds in every state that the block reaches from reset. -/
def Always (p : State → Prop) : Prop := ∀ s, Reaches State.reset s → p s

end Sys2Proof.Safety

namespace Sys2Proof.Spec
open Sys2Proof.Machine

/-- The life-cycle words are eight and hold every bit of `bits`. -/
abbrev HoldsBits (bits : List W64) (l : List W64) : Prop :=
  l.length = 8 ∧ ∀ i : Nat, bits.getD i 0 ||| l.getD i 0 = l.getD i 0

/-- Horrov carries out the frame `h` now: it is the one to start (R118, R121), over SMBus with a right PEC and no other
request open (R141, R143), the mode of the device lets the command be answered (R139, R144, R478, R483, R523), the frame fits
the catalogue's row `ci` (R124, R126, R127, R137), and it is not staged. -/
abbrev Runs (s : State) (h : Hdr) (ci : CmdInfo) : Prop :=
  s.notNow h = none ∧ ¬ (h.iss = .smb ∧ s.smbDead = true) ∧ (s.startCmd h.iss).modeErr h.iss ci = none ∧ (s.startCmd h.iss).frameErr h ci = none ∧ (h.stage = true → h.iss = .smb)

/-- The state in which the command of `h` is RUNNING. -/
abbrev running (s : State) (h : Hdr) : State := s.startCmd h.iss

/-- The command that was started in state `x` has had its effect `y` and is answered with ST_OK and the results `res`
(R119); Horrov goes on with the next frame. -/
abbrev answered (h : Hdr) (x y : State) (res : List Byte) : Host.Outcome State Fault Refusal :=
  .next (serveBad 300 (y.answer h.iss (x.okOf h res)))

/-- The command has had its effect `y` and stays RUNNING until its end is known; Horrov goes on with the next frame. -/
abbrev waiting (y : State) : Host.Outcome State Fault Refusal := .next (serveBad 300 y)

/-- The effect `y` of an inline or budget command is applied at a commit epoch of its own (R135); admissions and pauses are
decided again. -/
abbrev atEpoch (y : State) : State := ({ y with mbx := { y.mbx with epoch := y.mbx.epoch + 1 } }).dispatchAll.flowAll

/-- The function that a command names: a VF's frame always speaks of the VF itself. -/
abbrev target (h : Hdr) (arg : Nat) : Nat := match h.iss with
  | .vf n => n
  | _ => arg

/-- The queue that a command names: its number, or for a VF the queue at that slot of its own. -/
abbrev targetQueue (x : State) (h : Hdr) (arg : Nat) : Option Nat := match h.iss with
  | .vf v => ((x.queuesOf v).find? (fun kq => kq.2.slot == arg)).map (fun kq => kq.1)
  | _ => if arg ≤ 4095 then some arg else none

/-- The host's buffer `out` holds `bytes`: one write of the device over the link, none for no bytes. -/
abbrev filled (x : State) (out : Buf) (bytes : List Byte) : State :=
  if bytes.isEmpty then x else x.wakeLink.emit (.bufOut 0 out.addr bytes)

/-- The SEQ from which `dev.log` goes on: that of the first record left over, or the next one to be written. -/
abbrev nextSeq (x : State) (l : List LogRec) : Nat := match l.head? with
  | some r => r.seq.toNat
  | none => (x.mram.logSeq + 1).toNat

/-- Page `p` of function `f` is open to the host, and it is that of queue `q` (R39, R51, R77). -/
abbrev Page (s : State) (f p q : Nat) : Prop :=
  s.pcie.linkUp = true ∧ s.barOpen f = true ∧ s.queueAt f p = some q ∧ (f = 0 → p ≤ 4095 ∧ s.mbx.undercoat = false) ∧
    (f ≠ 0 → p ≤ 15)

/-- Job `j` runs on its engine, on its last part, with opcode `op`: it is not to be aborted (R231, R402), and its function may
read host memory (R51). -/
abbrev JobRuns (s : State) (id : JobId) (op : Nat) (j : Job) : Prop :=
  s.findJob id = some j ∧ j.desc.op = op ∧ j.st = .running ∧ (j.desc.isHybrid = true → j.part ≠ 0) ∧ j.abort = none ∧
    (s.fn j.fn).bme = true

/-- The state in which job `j` has its input: the read of its lists wakes the link (R46). -/
abbrev fetched (s : State) (j : Job) : State := if j.desc.inLen = 0 then s else s.wakeLink

/-- The words that the generators `gens` deliver in turn, and the state after it; none where one of them is not OK (R417). -/
def drawn : State → List Nat → Option (List W512 × State)
  | s, [] => some ([], s)
  | s, g :: t =>
    if s.rngWaits g = false ∧ s.rngErr g = none then
      (drawn (s.drawFrom g).2 t).map (fun p => ((s.drawFrom g).1 :: p.1, p.2))
    else none

/-- The words that Lath job `j` draws with its input read: one from each part of `pre` and from its Quad's mask generator where it
runs masked; and the state after them, in which all its mask words count and each was a tenure (R237, R313, R417). -/
def maskDrawn (s : State) (j : Job) (pre : List Nat) : Option (List W512 × State) :=
  (drawn (fetched s j) (pre ++ j.maskGen)).map (fun p => (p.1, if j.level = 0 then p.2
    else (p.2.drawMany (28 + j.engine / 4) (j.maskWords - 1)).tenures (j.engine / 4) (j.engine % 4) 7 j.maskWords))

/-- The words of a Hawk job in state `x`: `own` for its values, and those of its randomisation (R391, R393, R396). -/
def hawkDrawn (x : State) (j : Job) (own : Nat) : Option (List W512 × State) :=
  drawn x (List.replicate (own + j.blindWords) genDevice)

/-- The pool generator is seeded and has not failed (R372). -/
abbrev PoolSeeded (s : State) : Prop := s.rngWaits genPool = false ∧ s.rngErr genPool = none

/-- The outcome `o` is that job `j` ends with ST_OK in state `y`: its result keys `keys` are allocated, their handles stand first
in RESULT, and `rest` follows (R217, R308, R439). -/
abbrev Delivers (o : Host.Outcome State Fault Refusal) (y : State) (j : Job) (out : List Byte) (keys : List KeySpec)
    (rest : List Byte) : Prop :=
  ∀ ks z, y.allocKeys keys = some (ks, z) → o = .next (z.endJob j.id { status := stOk, out := out, result := z.handles ks ++ rest })

/-- Engine `n` issues the microwords of job `j` (R216), and no other slot of this one waits (R210). -/
abbrev Issues (s : State) (n : Nat) (j : Job) : Prop :=
  n < 36 ∧ s.jobOn .lath n = some j ∧ j.st = .running ∧ (s.lath n).stage.stall = false

/-- Engine `n` issues, its Sponge port works on none of the V registers `reads` (R219), and no fault record is valid (R277). -/
abbrev Ready (s : State) (n : Nat) (j : Job) (reads : List Nat) : Prop :=
  Issues s n j ∧ (s.lath n).vBusy reads = false ∧ (s.lath n).vfault.valid = false

/-- The staged list of V register `d` for an element operation (R247): each active element is `g i`, each other one stays. -/
abbrev newElems (e : Lath) (k d : Nat) (g : Nat → W32) (l : List W32) : Prop :=
  l.length = 256 ∧ ∀ i < 256, elt l i = if e.r.vstart ≤ i ∧ i < e.r.vl ∧ e.maskBit k i = true then g i else elt (e.vr d) i

/-- The state in which the microword at engine `n` has issued and what its slots staged stands in the registers (R210, R232). -/
abbrev committed (s : State) (n : Nat) (safe : Bool) : State := (s.updLath n (fun e => e.issue safe)).updLath n Lath.commit

/-- A share-mode microword passes the checks of R262 and R263: its FN bits, its groups, and the rest of its encoding. -/
abbrev ShareReady (s : State) (n : Nat) (j : Job) (v : VSlot) (fnBits : Nat) (dst : Option Nat) (srcs plain : List Nat) : Prop :=
  Ready s n j (srcs.flatMap (groupOf v.g) ++ plain) ∧ v.fnIn fnBits = true ∧ v.groupsOk (s.lath n) dst srcs = true

/-- Engine `n` can draw `k` words of its Quad's mask generator: none is needed, or no claim stands at the generator's rank or above,
the generator is seeded and has not failed, and no other requester has it locked (R222, R238, R243). -/
abbrev MayDraw (s : State) (n : Nat) (e : Lath) (k : Nat) : Prop :=
  k = 0 ∨ (e.rankBad 7 false = false ∧ s.rngErr (maskGenOf n) = none ∧ s.rngWaits (maskGenOf n) = false ∧
    s.lockedOut (n / 4) (n % 4) [7] = false)

/-- The `k` mask words that engine `n` draws, and the state after the draw: the words leave the generator's buffer, and each is a
tenure of the generator (R222, R265). -/
def maskWords (s : State) (n k : Nat) : List W512 × State :=
  if k = 0 then ([], s)
  else ((s.drawWords (maskGenOf n) k).1,
    ((s.drawWords (maskGenOf n) k).2.updGen (maskGenOf n) (fun g => g.unbuffer k)).tenures (n / 4) (n % 4) 7 k)

/-- The shuffle state is due: at levels 1 and 2, at the first share-mode microword of a job or after 64 more (R266). -/
abbrev shuffleDue (e : Lath) : Prop := e.jobLevel ≠ 0 ∧ e.shufLeft = 0

/-- The generator words that a share-mode microword draws: those of `w` 32-bit words per element, and one for a shuffle state. -/
abbrev shareWords (e : Lath) (w : Nat) : Nat := (w * e.r.vl + 15) / 16 + if shuffleDue e then 1 else 0

/-- A share-mode microword that takes `w` fresh words per element draws: `ws` are the fresh words, and in state `x` the shuffle state
stands as R266 says. -/
abbrev ShareDraws (s : State) (n : Nat) (e : Lath) (w : Nat) (ws : List W32) (x : State) : Prop :=
  MayDraw s n e (shareWords e w) ∧ ∀ l y, maskWords s n (shareWords e w) = (l, y) →
    ws = (if shuffleDue e then (words32 l).drop 16 else words32 l) ∧ x = y.updLath n (fun z =>
      { z with shufLeft := if shuffleDue e then 63 else z.shufLeft - 1
               shuffle := if shuffleDue e then BitVec.ofNat 128 (vecNat ((words32 l).take 4)) else z.shuffle })

end Sys2Proof.Spec
end

