-- ==== Sys2Proof/Certificates/Slice0/Obligations.lean ====
section
/-!
DEFINITION. The statements for the provers, over the vocabulary of Safety.lean. Each docstring says what its statement states and
which rules of the spec, or which entries of the assumption log, it rests on. A statement that gives exec its next state as an equation
says at the same time what the command leaves unchanged: everything that the equation does not name.
-/
open Sys2Proof Sys2Proof.Machine Sys2Proof.Spec

/-- For every state whose queue is not empty, step is exec of the command at the front, on the state with the rest of the
queue. The queue is the model's own (log entry 12, DESIGN CHOICE), so this is a statement about the model's form.
Rests on log entries 1 and 12. -/
def Obligations.StepRunsFrontCommand : Prop :=
  ∀ (s : State) (c : Instr) (rest : List Instr), s.pending = c :: rest → step s = exec c { s with pending := rest }

/-- With no command waiting a step is one tick (log entries 1 and 111, DESIGN CHOICE). It answers a next state and the
queue stays empty. While the compute die is out of reset the 25 MHz time advances by one; where no Lath engine has a
job to issue microwords of, the mask generators fill their buffers, the RTC follows the time, and at each 25 000th
tick the millisecond work is done besides. With the die held the time stands; without a supply nothing changes, and
with one only the RTC counts. Rests on log entries 1 and 111 (DESIGN CHOICE). -/
def Obligations.EmptyQueueTicks : Prop :=
  ∀ s : State, s.pending = [] →
    ∃ t, step s = .next t ∧ t.pending = [] ∧
      (s.computeOn = true → t.clk = s.clk + 1) ∧ (s.computeOn = false → t.clk = s.clk) ∧
      (s.computeOn = false → s.pwr.vin = false → s.pwr.vbat = false → t = s) ∧
      (s.computeOn = false → (s.pwr.vin = true ∨ s.pwr.vbat = true) →
        t = { s with bkp := { s.bkp with rtc := s.bkp.rtc + 1 } }) ∧
      (s.computeOn = true → (∀ n, n < 36 → s.jobOn .lath n = none) → ∀ y, y = { s.refill with
          clk := s.clk + 1, bkp := { s.bkp with rtc := s.bkp.rtc + BitVec.ofNat 64 (rtcOf (s.clk + 1) - rtcOf s.clk) } } →
        t = if (s.clk + 1).toNat % 25000 = 0 then y.msTick else y)

/-- For every command and every state: when exec answers a next state, the queue and the 25 MHz time are those from
before. Commands come from outside and time passes between them (log entries 1 and 12, DESIGN CHOICE). Rests on log
entries 1 and 12 (DESIGN CHOICE). -/
def Obligations.CommandsLeaveQueueAndTime : Prop :=
  ∀ (c : Instr) (s t : State), exec c s = .next t → t.pending = s.pending ∧ t.clk = s.clk

/-- Programming only sets bits. When the eight life-cycle words are eight and hold every bit of `bits`, they are eight and
hold every bit of `bits` after every step of the block that answers a next state, whatever the step is: a start, a
loss of power, a tamper response, a transition or a tick. Rests on R472. -/
def Obligations.LifeCycleBitsStay : Prop :=
  ∀ (bits : List W64) (s t : State), HoldsBits bits s.otp.lcw → step s = .next t → HoldsBits bits t.otp.lcw

/-- The invariant of LifeCycleBitsStay holds at State.reset: there are eight life-cycle words, and they are zero, the
BLANK part that the model's reset state is (log entry 5, DESIGN CHOICE). Rests on R472, log entry 5 (DESIGN CHOICE). -/
def Obligations.LifeCycleBitsAtReset : Prop :=
  HoldsBits [] State.reset.otp.lcw ∧ State.reset.otp.lcw = List.replicate 8 0

/-- The device has 36 Lath engines. The microwords seq, add, vadd, vaddq.s, vle, xst, acq and din at an engine number of
36 or more stop with the model's one fault, noSuchEngine, in every state and with every operand (log entry 83, DESIGN
CHOICE). Rests on R203, log entry 83 (DESIGN CHOICE). -/
def Obligations.MicrowordBeyondEnginesStops : Prop :=
  ∀ (n : Nat) (s : State), 36 ≤ n →
    (∀ next, exec (.mSeq n next) s = .fault .noSuchEngine) ∧
    (∀ rd a b, exec (.mAdd n rd a b) s = .fault .noSuchEngine) ∧
    (∀ v, exec (.mVadd n v) s = .fault .noSuchEngine) ∧ (∀ v, exec (.mVaddqS n v) s = .fault .noSuchEngine) ∧
    (∀ m, exec (.mVle n m) s = .fault .noSuchEngine) ∧ (∀ m, exec (.mXst n m) s = .fault .noSuchEngine) ∧
    (∀ p, exec (.mAcq n p) s = .fault .noSuchEngine) ∧ (∀ a b, exec (.mDin n a b) s = .fault .noSuchEngine)

/-- A status command that Horrov carries out (Runs: its mode, frame and sender fit its catalogue row) changes nothing, and
is answered ST_OK with the results of its row, packed in the order given there: dev.info, dev.status, flt.status,
pwr.telemetry, grt.status, tmp.status, lcy.status, fw.info and eng.status of the device; fn.info, que.info,
txn.status, port.status, sa.status and key.info of one object, with a function or queue that is not there reported as
such. Rests on R137, R153, R181, R466, R482, R552, R558, R598, R603, R654, R655. -/
def Obligations.StatusCommandsAnswer : Prop :=
  (∀ (s x : State) (h : Hdr), x = running s h →
    (Runs s h { vf := true, smb := true, basic := true, primer := true, scrap := true } →
      exec (.devInfo h) s = answered h x x (pack [.u 2 Config.deviceCode.toNat, .u 1 Config.stepping.toNat, .u 1 x.lcy.st,
        .u 4 x.fwVersion.toNat, .u 4 Config.lathRomVer.toNat, .u 4 x.puttyVer.toNat, .b (w256Bytes x.deviceId)])) ∧
    (Runs s h { smb := true, basic := true, primer := true, scrap := true } →
      exec (.devStatus h) s = answered h x x (pack ([.u 1 x.pwr.st.code, .u 1 x.grt.st.code,
        .u 1 (x.inServiceOf .render).length, .u 1 (x.inServiceOf .lath).length, .u 1 (x.inServiceOf .hawk).length,
        .u 1 (sparesOf x 0).length, .u 1 (sparesOf x 36).length, .u 1 (sparesOf x 72).length,
        .u 2 x.boot.reason.toNat, .u 4 x.tmp.sticky.toNat, .u 4 x.causeSummary] ++
        if h.level = 1 then [.u 8 (bitmap (x.inServiceOf .render)), .u 8 (bitmap (x.inServiceOf .lath)),
          .u 8 (bitmap (x.inServiceOf .hawk))] else []))) ∧
    (Runs s h { smb := true } →
      exec (.fltStatus h) s = answered h x x (pack [.u 2 x.flt.lb, .u 2 x.flt.free, .u 2 x.flt.granted, .u 2 x.flt.inTransit,
        .u 1 (if x.flt.limit then 1 else 0)])) ∧
    (Runs s h { smb := true, basic := true, len := 1, lenX := 1 } →
      (∀ rail ≤ 7, exec (.pwrTelemetry h rail) s = answered h x x (pack (x.railRes rail))) ∧
      exec (.pwrTelemetry h 0xFF) s = answered h x x (pack (allPages.flatMap x.railRes))) ∧
    (Runs s h { smb := true, basic := true } →
      exec (.grtStatus h) s = answered h x x (pack ([.u 1 x.healthy,
        .u 1 ((List.range 38).filter (fun n => (x.gen n).st == .ok)).length] ++
        (List.range 8).map (fun i => .u 4 (x.src i).fails.toNat)))) ∧
    (Runs s h { smb := true, basic := true } →
      exec (.tmpStatusCmd h) s = answered h x x (pack [.u 4 x.tmp.sticky.toNat, .u 1 x.tmp.last, .u 8 x.tmp.lastStamp.toNat])) ∧
    (Runs s h { smb := true, basic := true, primer := true, scrap := true } →
      exec (.lcyStatusCmd h) s = answered h x x (pack [.u 1 x.lcy.st, .u 1 x.lcyPending, .u 4 x.lcy.scope.toNat])) ∧
    (Runs s h { smb := true, basic := true, primer := true } →
      exec (.fwInfo h) s = answered h x x (pack [.u 1 x.bootRec.active, .u 4 x.boot.verA.toNat, .u 4 x.boot.verB.toNat,
        .u 1 x.boot.startFails])) ∧
    (Runs s h { smb := true, basic := true, len := 2, lenX := 2 } → ∀ kind idx u, engArg kind idx = .ok u →
      exec (.engStatus h kind idx) s = answered h x x (pack [.u 1 (x.unit u).st.code, .u 1 (x.unit u).step,
        .u 2 (i16 (if 97 ≤ u then (x.unit u).insitu else (x.unit u).drained))]))) ∧
  (∀ (s x : State) (h : Hdr), x = running s h →
    (Runs s h { vf := true, len := 1, lenX := 1 } → ∀ arg v, v = target h arg → 
      exec (.fnInfo h arg) s = answered h x x (pack (
        if v = 0 then [.u 1 (x.fn 0).gen.toNat, .u 1 1, .u 2 0, .u 2 x.pfJobs, .u 1 (x.queuesOf 0).length, .u 4 0]
        else if (x.fn v).st = .absent then [.u 1 0, .u 1 0, .u 2 0, .u 2 0, .u 1 0, .u 4 0]
        else [.u 1 (x.fn v).gen.toNat, .u 1 (x.fn v).st.code, .u 2 (x.fn v).quota, .u 2 (x.fn v).dispatched,
          .u 1 (x.queuesOf v).length, .u 4 (x.fn v).perm.toNat]))) ∧
    (Runs s h { vf := true, len := 2, lenX := 2 } → ∀ arg q, targetQueue x h arg = some q →
      exec (.queInfo h arg) s = answered h x x (pack (
        if (x.queue q).assigned then [.u 1 (x.queue q).st.code, .u 1 (x.queue q).cls, .u 1 (x.queue q).slot,
          .u 1 (x.queue q).sizeLog2, .u 2 (x.queue q).pi.toNat, .u 2 (x.queue q).ci.toNat]
        else [.u 1 0, .u 1 0, .u 1 0xFF, .u 1 0, .u 2 0, .u 2 0]))) ∧
    (Runs s h {} → ∀ t, x.mbx.txn = some t →
      exec (.txnStatus h) s = answered h x x (pack [.u 4 t.id.toNat, .u 4 t.staged.length, .u 4 t.remain])) ∧
    (Runs s h {} → x.mbx.txn = none → exec (.txnStatus h) s = answered h x x (pack [.u 4 0, .u 4 0, .u 4 0])) ∧
    (Runs s h { smb := true, len := 1, lenX := 1 } → ∀ port ≤ 15,
      exec (.portStatus h port) s = answered h x x (pack [.u 1 (x.pair (port % 8)).mode, .u 1 (x.portState port),
        .u 1 (x.lanesUp port), .u 8 (x.portCount port cFecCorr), .u 8 (x.portCount port cFecUncorr)])) ∧
    (Runs s h { len := 4, lenX := 4 } → ∀ dir a, dir ≤ 1 → a ≤ 16383 → (x.sa dir a).present = true →
      exec (.saStatus h dir a) s = answered h x x (pack (
        [.u 1 ((x.sa dir a).roleByte dir (x.sa dir a).current), .u 1 ((x.sa dir a).roleByte dir (x.sa dir a).staged),
         .u 1 ((x.sa dir a).roleByte dir (x.sa dir a).draining), .u 1 ((x.sa dir a).resAn (x.sa dir a).current).toNat,
         .u 1 ((x.sa dir a).resAn (x.sa dir a).staged).toNat, .u 1 ((x.sa dir a).resAn (x.sa dir a).draining).toNat,
         .u 8 (match (x.sa dir a).current with
               | some i => ((x.sa dir a).ep i).nextPn.toNat
               | none => 0)]))) ∧
    (Runs s h { vf := true, len := 8, lenX := 8 } → ∀ key k, x.handleSlot h.iss.fn key = .ok k →
      exec (.keyInfo h key) s = answered h x x (pack [.u 1 (x.slot k).usage.code, .u 2 (x.slot k).alg.toNat, .u 1 (x.slot k).fn,
        .u 1 (x.slot k).gen.toNat, .u 1 (x.slot k).origin.code])))

/-- dev.log and key.list write records into the host's buffer, as many as it has room for, and answer with their number
and the place from which the next call goes on; over SMBus at most 7 log records stand in the answer itself; INDEX
FFFF 0000h gives the device's trust block. key.attest answers with COUNTER, the measurements and the KMAC256 of
challenge, DEVICE_ID, measurements and COUNTER under the attestation secret; without one it answers ST_HANDLE_INVALID.
Nothing else changes. Rests on R143, R465, R466, R540. -/
def Obligations.ListAndAttestationCommandsAnswer : Prop :=
  (∀ (s x : State) (h : Hdr) (out : Buf), x = running s h →
    (∀ (first : W32) (l : List LogRec), l = x.mram.log.filter (fun r => decide (first.toNat ≤ r.seq.toNat)) →
      (Runs s h { smb := true, basic := true, len := 4, lenX := 4 } → h.iss = .smb → ∀ k, k = min 7 l.length →
        exec (.devLog h first out) s =
          answered h x x (pack [.u 4 k, .u 4 (nextSeq x (l.drop k))] ++ (l.take k).flatMap LogRec.bytes)) ∧
      (Runs s h { smb := true, basic := true, len := 24, lenX := 24, buf := true, bufX := true } → h.iss ≠ .smb →
        out.mbz = 0 → out.err = none → ∀ k, k = min l.length (out.len.toNat / 32) →
        exec (.devLog h first out) s =
          answered h x (filled x out ((l.take k).flatMap LogRec.bytes)) (pack [.u 4 k, .u 4 (nextSeq x (l.drop k))]))) ∧
    (Runs s h { len := 24, lenX := 24, buf := true, bufX := true } → out.mbz = 0 → out.err = none →
      (∀ first, first ≤ 131071 → 24 ≤ out.len.toNat → ∀ l k, l = x.listed first → k = min l.length (out.len.toNat / 24) →
        exec (.keyList h first out) s = answered h x (filled x out ((l.take k).flatMap (fun i => x.listEntry i)))
          (pack [.u 4 k, .u 4 ((l.drop k).headD 131072)])) ∧
      (1640 ≤ out.len.toNat →
        exec (.keyList h 0xFFFF0000 out) s = answered h x (filled x out x.dtkBlock) (pack [.u 4 1, .u 4 0])))) ∧
  (∀ (s x : State) (h : Hdr) (challenge : W256), x = running s h →
    Runs s h { len := 32, lenX := 32 } →
    (∀ secret, x.system 8196 = some secret → x.rngWaits genPool = false → x.rngErr genPool = none →
      exec (.keyAttest h challenge) s = answered h x (x.drawMany genPool attestWords) (leBytes 8 x.image.counter.toNat ++ x.measure ++
        fit 64 (Config.kmac256 secret (w256Bytes challenge ++ w256Bytes x.deviceId ++ x.measure ++
          leBytes 8 x.image.counter.toNat) 512 (ascii "FQATTEST-01")))) ∧
    (x.system 8196 = none → exec (.keyAttest h challenge) s = .next (serveBad 300 (x.answer h.iss (x.respOf h (stHandleInvalid, 0))))))

/-- Without an open transaction. fn.quota EVEN shares the quota among the VFs that it counts, ZERO takes every VF's quota
away, a VF's own quota and permission change at once, or at the end of its FLR or of its drain; a queue is bound to a
function and a slot, given back, or moved to another class; a class gets the weight and masks of its profile, or those
named. A port mode needs its pair disabled; port.enable trains the pair once the engines and the budget suffice, and
is answered when the pair's standing grant is held; a pair that is enabled already stays so; port.disable and
flt.budget take effect. The port and budget commands take a commit epoch of their own. Nothing else changes. Rests on
R66-R69, R96-R101, R149, R152, R559, R561, R655. -/
def Obligations.StageableCommandsTakeEffectAtOnce : Prop :=
  (∀ (s x : State) (h : Hdr), x = running s h → h.stage = false → x.mbx.txn = none →
    (Runs s h { t := true, len := 2, lenX := 4 } →
      (h.level = 0 → x.countedVfs ≠ [] → ∀ v q,
        ∀ y, y = setQuotas (fun _ => 0) x.drainVfs (setQuotas (fun _ => min 4096 (61440 / x.countedVfs.length)) x.countedVfs x) →
        exec (.fnQuota h 0 v q) s = answered h x y (leBytes 4 y.quotaSum)) ∧
      (h.level = 0 → ∀ v q y, y = setQuotas (fun _ => 0) ((List.map (fun kf => kf.1) x.pcie.fns).filter (fun v => v != 0)) x →
        exec (.fnQuota h 1 v q) s = answered h x y (leBytes 4 y.quotaSum)) ∧
      (h.level = 1 → ∀ p v q sum, v ≠ 0 → (x.fn v).st ≠ .absent → q ≤ 4096 → sum = x.quotaSum - (x.fn v).quotaSet + q →
        sum ≤ 61440 → exec (.fnQuota h p v q) s = answered h x
          (x.updFn v (fun f => if f.st = .flr ∨ f.reenable = true then { f with pendQuota := some q }
            else { f with quota := q, pendQuota := none }))
          (leBytes 4 sum))) ∧
    (Runs s h { t := true, len := 8, lenX := 8 } → ∀ v p, v ≠ 0 → (x.fn v).st ≠ .absent →
      exec (.fnPerm h v p) s =
        answered h x (x.updFn v (fun f => if f.st = .flr ∨ f.reenable = true then { f with pendPerm := some p }
          else { f with perm := p })) []) ∧
    (Runs s h { t := true, len := 5, lenX := 5 } → ∀ q f slot c, q ≤ 4095 → (x.queue q).assigned = false →
      x.awaits q = none → (f = 0 ∨ (x.fn f).st ≠ .absent) → slot ≤ (if f = 0 then 63 else 15) → c ≤ 15 →
      x.slotTaken f slot = false →
      exec (.queAssign h q f slot c) s = answered h x (
        if f ≠ 0 ∧ (x.fn f).flr = true then
          x.updFn f (fun y => { y with pendQueues := y.pendQueues ++ [.queAssign q f slot c] })
        else x.updQueue q (fun _ => { assigned := true, fn := f, slot := slot, cls := c })) []) ∧
    (Runs s h { t := true, len := 2, lenX := 2 } → ∀ q, q ≤ 4095 → (x.queue q).assigned = true → (x.queue q).st = .disabled →
      x.inFlight q = false → x.awaits q = none → (x.queue q).leaving = false →
      exec (.queRelease h q) s = answered h x ((x.updQueue q (fun _ => {})).updFn (x.queue q).fn (fun y =>
        { y with vecs := Tbl.upd {} y.vecs (x.queue q).slot (fun w => { w with pend := false }) })) []) ∧
    (Runs s h { t := true, len := 2, lenX := 48 } → ∀ c ≤ 15, ∀ w (m0 m1 m2 m3 m4 : W64),
      (h.level = 0 → ∀ ms, exec (.queClass h c 0 w ms) s = answered h x (x.setCls c { weight := 1 }) [] ∧
        exec (.queClass h c 1 w ms) s = answered h x (x.setCls c { weight := 1, bulk := true }) [] ∧
        exec (.queClass h c 2 w ms) s = answered h x (x.setCls c { weight := 8 }) []) ∧
      (h.level = 1 → 1 ≤ w → w ≤ 255 → ∀ p, exec (.queClass h c p w [m0, m1, m2, m3, m4]) s =
        answered h x (x.setCls c { weight := w, masks := some [m0, m1, m2, m3, m4] }) [])) ∧
    (Runs s h { t := true, len := 3, lenX := 3 } → ∀ q c, q ≤ 4095 → (x.queue q).assigned = true → c ≤ 15 → x.awaits q = none →
      (x.queue q).leaving = false → exec (.queMove h q c) s = answered h x (x.updQueue q (fun u => { u with cls := c })) [])) ∧
  (∀ (s x : State) (h : Hdr), x = running s h → h.stage = false → x.mbx.txn = none →
    (Runs s h { t := true, len := 2, lenX := 24, bufX := true } → ∀ n, n ≤ 7 → (x.pair n).enabled = false →
      (h.level = 0 → ∀ p m (b : Buf), p ≤ 5 → m = p % 3 →
        exec (.portMode h n p b) s = answered h x (atEpoch (x.updPair n (fun r =>
          { r with modeSet := true, mode := m, proto := if 3 ≤ p then BitVec.ofNat 8 (2 ^ subCount m - 1) else 0, fc := 2,
                   pfcMask := 0xFF, steer := 0, unctrl := if 3 ≤ p then 2 else 1, maxFrame := 9216, beadEtype := 0x88B5,
                   xoff := 512 / subCount m / 2, xon := 512 / subCount m * 3 / 8, txPol := 0, rxPol := 0 }))) []) ∧
      (h.level = 1 → ∀ p (b : Buf), b.mbz = 0 → b.err = none → b.data.length = 32 → portParamErr b.data = none →
        exec (.portMode h n p b) s = answered h x (atEpoch (x.updPair n (fun r =>
          { r with modeSet := true, mode := fieldLe b.data 0 1, proto := b.data.getD 1 0, fc := fieldLe b.data 2 1,
                   pfcMask := b.data.getD 3 0, steer := fieldLe b.data 4 1, unctrl := b.data.getD 5 0,
                   maxFrame := fieldLe b.data 6 2, beadEtype := BitVec.ofNat 16 (fieldLe b.data 8 2),
                   xoff := fieldLe b.data 10 2, xon := fieldLe b.data 12 2, txPol := b.data.getD 14 0,
                   rxPol := b.data.getD 15 0 }))) [])) ∧
    (Runs s h { t := true, len := 1, lenX := 1 } → ∀ n, n ≤ 7 → ∀ k, h.iss = .pf k →
      ((x.pair n).enabled = false → (x.pair n).modeSet = true → x.held = false → x.lcy.prepared = false →
        x.pwr.st ≠ .dustEntry → x.grt.st ≠ .unseeded → ∀ y z, y = x.enablePair n → z = atEpoch y →
        y.enabledDirs.length ≤ y.rndPool.length → y.standingSum + wipeReserve ≤ x.flt.target →
        (z.standingHeld n = true → exec (.portEnable h n) s = answered h x z []) ∧
        (z.standingHeld n = false → exec (.portEnable h n) s =
          waiting { z with mbx := { z.mbx with waitEnable := z.mbx.waitEnable ++ [(k, h.seq, n)] } })) ∧
      ((x.pair n).enabled = true → (atEpoch x).standingHeld n = true →
        exec (.portEnable h n) s = answered h x (atEpoch x) []) ∧
      exec (.portDisable h n) s = answered h x (atEpoch (x.disablePair n)) []) ∧
    (Runs s h { t := true, len := 1, lenX := 10 } →
      (h.level = 0 → ∀ p tokens l t caps, p ≤ 3 → t = [1280, 1600, 960, 640].getD p 0 → x.standingSum + wipeReserve ≤ t →
        l = (0xFFFF : Nat) →
        exec (.fltBudget h p tokens caps) s = answered h x (atEpoch { x with flt := ({ x.flt with
          profile := p, configured := t, capRender := l, capLath := l, capHawk := l, capSponge := l }).settle }) []) ∧
      (h.level = 1 → ∀ p tokens c0 c1 c2 c3, 640 ≤ tokens → tokens ≤ 1600 → x.standingSum + wipeReserve ≤ tokens →
        (∀ c ∈ [c0, c1, c2, c3], c = 0xFFFF ∨ (16 ≤ c ∧ c ≤ 1600)) →
        exec (.fltBudget h p tokens [c0, c1, c2, c3]) s = answered h x (atEpoch { x with flt := ({ x.flt with
          profile := 4, configured := tokens, capRender := c0, capLath := c1, capHawk := c2, capSponge := c3 }).settle }) [])))

/-- Without an open transaction the commands on SAs take effect at a commit epoch of their own: a context is created on a
sub-port of its protocol, an epoch is staged, a staged epoch becomes current and the current one drains, a context is
deleted, and the overlap and drain times are set. Rests on R170-R181. -/
def Obligations.SaCommandsTakeEffect : Prop :=
  ∀ (s x : State) (h : Hdr), x = running s h → h.stage = false → x.mbx.txn = none →
    (Runs s h { t := true, len := 6, lenX := 24, bufX := true } → ∀ dir a, dir ≤ 1 → a ≤ 16383 → (x.sa dir a).present = false →
      (h.level = 0 → ∀ pb suite (b : Buf), x.subMissing pb = false → suite ≤ 5 → x.protoFits pb suite = true →
        (suite < 4 → dir = 1 → x.rxClash (pb % 8) (pb / 8) Sa.wild = false) →
        exec (.saCreate h dir a pb suite b) s = answered h x (atEpoch (x.addSa dir a
          { suite := suite, pair := pb % 8, sub := pb / 8, flags := if 4 ≤ suite then 0x01 else if dir = 0 then 0x0A else 0x48,
            window := if 4 ≤ suite ∧ dir = 1 then 128 else 0,
            pnWarn := if suite ≤ 1 then 0xC0000000 else 0xC000000000000000 })) []) ∧
      (h.level = 1 → ∀ pb su (b : Buf) y, b.mbz = 0 → b.err = none → effSaCreateParams dir a b.data x = .ok (y, []) →
        exec (.saCreate h dir a pb su b) s = answered h x (atEpoch y) [])) ∧
    (Runs s h { t := true, len := 16, lenX := 48 } → ∀ dir a key an pn ssci salt z, dir ≤ 1 → a ≤ 16383 → z = x.sa dir a → z.present = true →
      z.staged = none → z.draining = none →
      ∀ (staged : BitVec 2 → W64 → W32 → BitVec 96 → Prop), staged = (fun n p c w =>
        ∀ k bytes kw hk r i e, x.checkHandle 0 key (if dir = 0 then .enc else .dec) (fun v => v == suiteAlg z.suite) = .ok k →
          bytes = x.keyBytes k → kw = BitVec.ofNat 256 (ofLe (bytes.take (suiteKey z.suite))) →
          hk = Config.ghashKey (bytes.take (suiteKey z.suite)) → r = x.draw.1 → i = (if z.ep0.st = .empty then 0 else 1) →
          e = ({ st := .staged, serial := x.rdr.epochCount + 1, an := n, spi := if z.isEsp then c else 0
                 ssci := if isXpn z.suite then c else 0
                 salt := if z.isEsp then BitVec.ofNat 96 (ofLe (slice bytes (suiteKey z.suite) 4)) else w
                 nextPn := if z.isEsp ∧ dir = 1 then p - 1 else p, key0 := kw ^^^ r.setWidth 256, key1 := r.setWidth 256
                 h0 := hk ^^^ (r >>> 256).setWidth 128, h1 := (r >>> 256).setWidth 128, slot := key } : Epoch) →
          exec (.saStage h dir a key an pn ssci salt) s = answered h x (atEpoch
            ((({ x.draw.2 with rdr := { x.draw.2.rdr with epochCount := x.draw.2.rdr.epochCount + 1 } } : State).updSa dir a (fun v =>
              v.updEp i (fun _ => e))).epochRef key)) [if z.isEsp then 0xFF else n.setWidth 8]) →
      (h.level = 0 → z.suite ≤ 1 → staged ((z.current.map (fun c => (z.ep c).an + 1)).getD 0) 1 0 0) ∧
      (h.level = 1 → pn ≠ 0 → pn.toNat < pnLimit z.suite z.flags →
        (z.isEsp = true → ssci ≠ 0 → x.spiUsed z.pair z.sub ssci = false → salt = 0 → staged 0 pn ssci salt) ∧
        (z.isEsp = false → an.toNat ≤ 3 → z.current.map (fun i => (z.ep i).an) ≠ some (BitVec.ofNat 2 an.toNat) →
          (isXpn z.suite = false → salt = 0) → staged (BitVec.ofNat 2 an.toNat) pn ssci salt))) ∧
    (Runs s h { t := true, len := 4, lenX := 4 } → ∀ dir a, dir ≤ 1 → a ≤ 16383 → (x.sa dir a).present = true →
      (∀ i, (x.sa dir a).staged = some i → ∀ y,
        y = (match (x.sa dir a).current with
          | some c => x.updSa dir a (fun z => z.updEp c (fun e =>
              { e with st := if dir = 0 then .draining else .drainAccept, tCommit := x.clk, overlap := x.rdr.overlap,
                       drain := x.rdr.drain }))
          | none => x) →
        exec (.saCommit h dir a) s = answered h x
          (atEpoch (y.updSa dir a (fun z => z.updEp i (fun e => { e with st := .current })))) [(x.sa dir a).resAn (some i)]) ∧
      exec (.saDelete h dir a) s = answered h x (atEpoch (x.deleteSa dir a)) []) ∧
    (Runs s h { t := true, len := 1, lenX := 8 } →
      (h.level = 0 → ∀ o d, exec (.saTimers h 0 o d) s = answered h x (atEpoch { x with rdr := { x.rdr with overlap := 2000, drain := 3000 } }) [] ∧
        exec (.saTimers h 1 o d) s = answered h x (atEpoch { x with rdr := { x.rdr with overlap := 200, drain := 500 } }) []) ∧
      (h.level = 1 → ∀ p o d, 10 ≤ o → o ≤ 60000 → o ≤ d → d ≤ 600000 →
        exec (.saTimers h p o d) s = answered h x (atEpoch { x with rdr := { x.rdr with overlap := o, drain := d } }) []))

/-- A transaction opens under a TXN_ID of its own, is dropped by a rollback or at its timeout, and is committed in two
steps: the commit checks the staged commands and waits, and the commit epoch applies every one of them, ends the locks
and answers with the number of the epoch and of the commands. A command with STAGE 1 that is checked against the state
that the earlier staged ones will produce is added to the transaction and answered STAGED with its index; before the
commit it has no effect but the reference that a key it names gets. Shown for fn.perm, sa.delete and port.disable.
Rests on R131-R136. -/
def Obligations.TransactionsCollectAndCommit : Prop :=
  (∀ (s x : State) (h : Hdr), x = running s h →
    (Runs s h { len := 4, lenX := 4 } → x.mbx.txn = none → ∀ ms, ms ≤ 60000 → ∀ id, id = x.mbx.nextTxn →
      exec (.txnBegin h ms) s = answered h x { x with mbx := { x.mbx with
        txn := some { id := id, remain := if ms = 0 then 5000 else ms }, nextTxn := if id + 1 = 0 then 1 else id + 1,
        expired := [] } } (leBytes 4 id.toNat)) ∧
    (Runs s h {} → ∀ t, x.mbx.txn = some t → t.id = h.txn →
      (∀ n y, h.iss = .pf n → applyAll 0 t.staged x = .ok y → exec (.txnCommit h) s =
        waiting { x with mbx := { x.mbx with pend := some { slot := n, seq := h.seq, cmds := t.staged } } }) ∧
      exec (.txnRollback h) s = answered h x x.endTxn (leBytes 4 t.staged.length)) ∧
    (∀ t, s.mbx.txn = some t → s.mbx.pend = none → ∀ y, y = s.endTxn →
      exec .txnTimeout s = .next (({ y with mbx := { y.mbx with expired := y.mbx.expired ++ [t.id] } }).report 642 0)) ∧
    (s.mbx.pend = none → exec .commitEpoch s = .next { s with mbx := { s.mbx with epoch := s.mbx.epoch + 1 } }) ∧
    (∀ p y z, s.mbx.pend = some p → p.done = none → applyAll 0 p.cmds { s with mbx := { s.mbx with pend := none } } = .ok y →
      z = ({ y with mbx := { y.mbx with epoch := y.mbx.epoch + 1 } }).endTxn.dispatchAll.flowAll →
      (z.commitReady p.cmds = true → exec .commitEpoch s = .next (serveBad 300 (({ z with mbx := { z.mbx with pend := none } }).answerPf p.slot
        { gen := (z.fn 0).gen, seq := p.seq, results := pack [.u 8 (y.mbx.epoch + 1).toNat, .u 4 p.cmds.length] }))) ∧
      (z.commitReady p.cmds = false →
        exec .commitEpoch s = .next { z with mbx := { z.mbx with pend := some { p with done := some (y.mbx.epoch + 1) } } }))) ∧
  (∀ (s x : State) (h : Hdr) (t : Txn), x = running s h → x.mbx.txn = some t → t.id = h.txn → t.staged.length < 32768 →
    h.stage = true → h.iss ≠ .smb → s.canStartCmd h.iss = true →
    ∀ (ci : CmdInfo) (c : TCmd) (y z : State) (res : List Byte), x.modeErr h.iss ci = none → x.frameErr h ci = none →
      applyAll 0 t.staged x = .ok y → applyT c y = .ok (z, res) → ∀ w : State,
      w = { markTxn true [c] x with mbx := { (markTxn true [c] x).mbx with txn := some { t with staged := t.staged ++ [c] } } } →
      s.runT h ci (.ok c) = serveBad 300 (w.answer h.iss { x.okOf h res with staged := true, detail := BitVec.ofNat 32 t.staged.length }) ∧
      (∀ v p, ci = { t := true, len := 8, lenX := 8 } → c = .fnPerm v p → exec (.fnPerm h v p) s = .next (s.runT h ci (.ok c))) ∧
      (∀ d a, ci = { t := true, len := 4, lenX := 4 } → c = .saDelete d a → exec (.saDelete h d a) s = .next (s.runT h ci (.ok c))) ∧
      (∀ n, ci = { t := true, len := 1, lenX := 1 } → c = .portDisable n → exec (.portDisable h n) s = .next (s.runT h ci (.ok c))))

/-- key.free releases the run of a key that nothing refers to; the removal of a persistent one is committed in the
background, and its LMS/HSS state is wiped. key.import opens the blob under the wrapping key and allocates the key.
key.update waits for the commit of a record that passes every check. An idle, unkeyed hash context is written to the
host as its record, and ctx.free gives an idle context back. Rests on R364, R367, R440, R459, R463. -/
def Obligations.KeyCommandsTakeEffect : Prop :=
  ∀ (s x : State) (h : Hdr), x = running s h →
    (Runs s h { vf := true, len := 8, lenX := 8 } → ∀ key k, x.handleSlot h.iss.fn key = .ok k → (x.slot k).epochRefs = 0 →
      (x.slot k).txn = false → (x.slot k).origin ≠ .owner → (x.slot k).origin ≠ .root →
      exec (.keyFree h key) s = answered h x
        (if (x.slot k).persist then ((x.releaseRun k).updHss k (fun e => e.dropTree)).requestCommit { drops := [k] }
         else x.releaseRun k) []) ∧
    (Runs s h { len := 32, lenX := 32, buf := true, bufX := true } → ∀ usage alg wrap (blob : Buf) k n key y a,
      x.checkHandle 0 wrap .wrap (fun a => a == 0x0500) = .ok k → blob.mbz = 0 → blob.err = none →
      blobOk usage alg blob.data = true → algImport alg = true → n = fieldLe blob.data 8 2 →
      Config.gcmOpen (x.keyBytes k) (slice blob.data 12 12) (blob.data.take 24 ++ w256Bytes x.deviceId) (slice blob.data 24 n)
        (slice blob.data (24 + n) 16) = some key → Config.keyValid alg key = true → x.rngCmdErr = none →
      x.allocKey { usage := usageOf usage, alg := alg, level := fieldLe blob.data 5 1, fn := 0, origin := .imported,
                   data := fit n key } = (some a, y) →
      exec (.keyImport h usage alg wrap blob) s = answered h x y (leBytes 8 (y.handleOf a).toNat)) ∧
    (Runs s h { len := 16, lenX := 16, buf := true, bufX := true } → ∀ (rec : Buf) c n, rec.mbz = 0 → rec.err = none →
      h.iss = .pf n → x.updCheck rec.data = .ok c → x.tmp.erased = none →
      exec (.keyUpdate h rec) s = waiting (x.requestCommit { c with mbx := some (n, h.seq) })) ∧
    (Runs s h { vf := true, expertOnly := true, len := 24, lenX := 24, buf := true, bufX := true } → ∀ n (out : Buf),
      (h.iss.fn = 0 ∨ (x.fn h.iss.fn).perm.getLsbD 1 = true) → out.mbz = 0 → out.err = none → 400 ≤ out.len.toNat →
      x.ctxIdle h.iss.fn n = true → (x.ctx n).keyed = false → (x.ctx n).exportRec ≠ [] →
      exec (.hashExport h n out) s =
        answered h x (x.wakeLink.emit (.bufOut h.iss.fn out.addr (x.ctx n).exportRec)) (leBytes 4 400)) ∧
    (Runs s h { vf := true, len := 2, lenX := 2 } → ∀ n, x.ctxIdle h.iss.fn n = true →
      exec (.ctxFree h n) s = answered h x (x.updCtx n (fun _ => {})) [])

/-- An image that passes its checks is written into a slot that does not hold the running one, and is noted as passed when
it reads back; fw.activate makes a passed slot pending in the boot record; fw.recover writes the slot to be recovered,
makes it pending and asks for the reset; a Putty set that passes its checks is loaded into one engine after another.
Rests on R227, R595-R597. -/
def Obligations.FirmwareCommandsTakeEffect : Prop :=
  ∀ (s x : State) (h : Hdr), x = running s h →
    (Runs s h { len := 24, lenX := 24, buf := true, bufX := true } → ∀ k (b : Buf), k ≤ 1 → k ≠ x.boot.image → b.mbz = 0 →
      b.err = none → x.imageErr b.data true = none →
      exec (.fwStage h k b true) s = answered h x
        ((x.putSlot k (some (Image.ofBytes b.data))).noteCheck k true (Image.ofBytes b.data).version) []) ∧
    (Runs s h { len := 1, lenX := 1 } → ∀ k, k ≤ 1 → x.slotPassed k = true →
      x.seamDown = false →
      exec (.fwActivate h k) s = answered h x
        (x.writeBoot (fun r => { r with pending := if k = r.active then 0 else k + 1 })) []) ∧
    (Runs s h { len := 16, lenX := 16, buf := true, bufX := true } → ∀ (b : Buf) n, h.iss = .pf n → b.mbz = 0 → b.err = none →
      x.puttyErr b.data 0 b.data.length = none → x.seamDown = false →
      exec (.fwPutty h b) s =
        waiting ((x.raisePutty (Putty.ofBytes b.data).ver).loadPutty (Putty.ofBytes b.data) (some (n, h.seq)))) ∧
    (Runs s h { basic := true, len := 16, lenX := 16, buf := true, bufX := true } → ∀ (b : Buf) i y, b.mbz = 0 → b.err = none →
      x.lcy.st ≠ 0xFF → x.imageErr b.data true = none → i = Image.ofBytes b.data →
      y = ((x.putSlot x.recoverSlot (some i)).noteCheck x.recoverSlot true i.version).writeBoot (fun r =>
        if x.boot.reason = 0x0205 then { pending := x.recoverSlot + 1, fwMinSvn := i.svn }
        else { r with pending := x.recoverSlot + 1 }) →
      exec (.fwRecover h b true) s =
        answered h x { y with boot := { y.boot with startFails := 0, recoverReset := true } } [])

/-- A transition request that passes its checks waits, RUNNING, for the commit that carries the transition out; a debug
token that passes its checks is counted against replay, closes the open scope, prepares the device where the new scope
needs it, and opens the scope, with DEBUG_OPEN; a token of scope 0 opens none; a state without tokens answers all
scopes. Rests on R475, R476, R484, R486. -/
def Obligations.LifeCycleCommandsTakeEffect : Prop :=
  ∀ (s x : State) (h : Hdr) (b : Buf), x = running s h →
    Runs s h { len := 16, lenX := 16, buf := true, bufX := true } →
    (∀ n w c, h.iss = .pf n → b.mbz = 0 → b.err = none → x.lifeErr b.data = none →
      exec (.lcyAdvance h b w c) s = waiting (x.requestCommit { mbx := some (n, h.seq), life := some {
        dst := fieldLe b.data 7 1
        owner := if fieldLe b.data 7 1 = 3 then BitVec.ofNat 256 (fieldLe b.data 48 32) else 0
        wordFails := w, candFails := c } })) ∧
    (x.lcy.st < 2 → exec (.lcyDebug h b) s = answered h x x (pack [.u 4 0x7F, .u 8 0xFFFFFFFFFFFFFFFF])) ∧
    (2 ≤ x.lcy.st → b.mbz = 0 → b.err = none → x.tokenErr b.data = none → x.seamDown = false →
      ∀ (scope hi : Nat) (y z : State), scope = fieldLe b.data 8 4 → hi = fieldLe b.data 64 8 →
        y = (x.writeAnchorBy (fun a => if x.lcy.st = 3 then { a with ownerDseq := BitVec.ofNat 64 (fieldLe b.data 48 8) }
          else { a with vendorDseq := BitVec.ofNat 64 (fieldLe b.data 48 8) })).closeDebug →
        z = (if scope &&& 0x70 ≠ 0 then y.prepareScope (scope &&& 0x40 != 0) else y) →
        exec (.lcyDebug h b) s = answered h x (if scope = 0 then z
          else { z with lcy := { z.lcy with scope := BitVec.ofNat 7 scope, notAfter := BitVec.ofNat 64 hi } }.report 672 0)
          (pack [.u 4 scope, .u 8 hi]))

/-- A clearing record that passes its checks is applied when the anchor write verifies, and is answered ST_MRAM_FAIL where
it does not; a detector test answers whether the detector saw the stimulus, reports one that did not, and raises the
alarm that remains after it where the source is on and watches. Rests on R507-R511. -/
def Obligations.TamperCommandsTakeEffect : Prop :=
  ∀ (s x : State) (h : Hdr), x = running s h → x.seamDown = false →
    (Runs s h { len := 16, lenX := 16, buf := true, bufX := true } → ∀ b : Buf, b.mbz = 0 → b.err = none →
      x.clearErr b.data = none →
      exec (.tmpClear h b true) s = answered h x (x.applyClear b.data) [] ∧
      exec (.tmpClear h b false) s = .next (serveBad 300 ((x.report 134 0).fail h (stMramFail, 0)))) ∧
    (Runs s h { len := 1, lenX := 1 } → ∀ source, source ≤ 17 → ∀ (detected : Bool) (y : State),
      y = (if detected then x else x.report 133 0) → y.seamDown = false →
        exec (.tmpTest h source detected false) s = answered h x y [if detected then 1 else 0] ∧
        exec (.tmpTest h source detected true) s = answered h x
          (if y.srcOn source = true ∧ y.watches source = true then
            ({ y with tmp := { y.tmp with inAlarm := setBit y.tmp.inAlarm source } }).alarm source else y)
          [if detected then 1 else 0])

/-- dev.expert opens and closes the expert window; scr.config sets the profile, or the rank of one cause and the quiet
time; pwr.state begins the entry to DUSTSHEET while no pair is enabled, no transaction open and no transition pending;
pwr.wake arms or disarms the RTC alarm. scr.clear clears the named cause, or every cause, where its reporter is normal
and no start holds it; the cause leaves the records too, and a held record left without any cause is closed. Rests on
R128, R530, R541, R570, R574. -/
def Obligations.DeviceAndScrimCommandsTakeEffect : Prop :=
  (∀ (s x : State) (h : Hdr), x = running s h →
    (Runs s h { len := 1, lenX := 1 } →
      exec (.devExpert h 0) s = answered h x { x with mbx := { x.mbx with expert := false } } [] ∧
      exec (.devExpert h 1) s = answered h x { x with mbx := { x.mbx with expert := true } } []) ∧
    (Runs s h { len := 1, lenX := 8 } →
      (h.level = 0 → ∀ p c r q, p ≤ 2 → exec (.scrConfig h p c r q) s = answered h x
        { x with scr := { x.scr with profile := p, ranks := [], quietMs := if p = 1 then 0 else 1000 } } []) ∧
      (h.level = 1 → ∀ p c r q, ((c = 0xFFFF ∧ r = 0xFF) ∨ scrRankErr c r = none) → (q = 0 ∨ (100 ≤ q ∧ q ≤ 60000)) → ∀ y,
        y = x.fixRanks → exec (.scrConfig h p c r q) s = answered h x
          { y with scr := { y.scr with
            profile := 3, quietMs := q,
            ranks := if r = 0xFF then y.scr.ranks else Tbl.set none y.scr.ranks c (some r) } } []) ∧
      (x.mbx.txn = none → x.lcy.pending = false → (∀ n < 8, (x.pair n).enabled = false) → ∀ p t ms,
        (h.level = 0 → p = 0) → (h.level = 1 → t = 2 ∧ 100 ≤ ms ∧ ms ≤ 3600000) → h.level ≤ 1 →
        exec (.pwrState h p t ms) s = answered h x { x with pwr := { x.pwr with
          st := .dustEntry, ap := 0, dustMs := if h.level = 1 then ms else 1000, wakes := 0 } } [])) ∧
    (Runs s h { len := 8, lenX := 8 } → ∀ alarm : W64, ∀ y,
      y = { x with bkp := { x.bkp with rtcAlarm := if alarm.toNat ≤ x.bkp.rtc.toNat then 0 else alarm } } →
      exec (.pwrWake h alarm) s = answered h x (if alarm.toNat ≤ x.bkp.rtc.toNat ∧ alarm ≠ 0 then y.wake 0 else y) [])) ∧
  (∀ (s x : State) (h : Hdr), x = running s h → Runs s h { len := 2, lenX := 2 } → ∀ cause, cause ≤ 767 ∨ cause = 0xFFFF →
    ∀ l y z, l = (if cause = 0xFFFF then List.range 768 else [cause]).filter (fun c => x.clearable c) →
      y = clrCauses (l.filter (fun c => (x.cause (c / 32)).getLsbD (c % 32))) x →
      z = { y with scr := { y.scr with
        recs := y.scr.recs.map (fun r => r.without l), devRec := y.scr.devRec.map (fun r => r.without l) } } →
      exec (.scrClear h cause) s = answered h x (closeEmpty (z.scr.recs ++ z.scr.devRec.toList) z) [])

/-- grt.kat records its target, its result and its count: a test that passes is answered ST_OK; the one of the conditioner
that fails stops Grit, the one of a generator that fails puts it and its child into FAIL, with ST_RNG_FAIL and the
number of healthy sources. eng.retire retires a unit, or marks it to be retired when its drain ends; eng.kat queues a
test or joins the one that waits; eng.margin begins a re-plan; port.recal trains a lane's sub-port again. The last
three stay RUNNING until what they wait for. Rests on R423, R424, R603, R612, R615, R616, R620. -/
def Obligations.GritAndEngineCommandsTakeEffect : Prop :=
  (∀ (s x : State) (h : Hdr), x = running s h → Runs s h { len := 1, lenX := 1 } → ∀ target, target ≤ 19 →
    (exec (.grtKat h target true) s = answered h x { x with grt := { x.grt with
      katTarget := target, katResult := 1, katCount := satInc x.grt.katCount } } []) ∧
    (∀ y z n, y = { x with grt := { x.grt with katTarget := target, katResult := 2, katCount := satInc x.grt.katCount } } →
      n = (if target = 19 then 18 else target - 1) →
      z = (if target = 0 then ({ y with grt := { y.grt with condFailed := true } }).gritFail
        else if n < 9 then (((failGens .kat [n, genChild n] y).report 195 n).setFeed n true)
        else (failGens .kat [n, genChild n] y).report 195 n) →
      exec (.grtKat h target false) s = .next (serveBad 300 (z.answer h.iss (z.respOf h (stRngFail, z.healthy)))))) ∧
  (∀ (s x : State) (h : Hdr), x = running s h →
    (Runs s h { expertOnly := true, lenX := 2 } → ∀ kind idx u y, engArg kind idx = .ok u → (x.unit u).st ≠ .retired →
      y = (if (x.unit u).st = .draining then x.updUnit u (fun z => { z with retireDue := true })
        else if 97 ≤ u then x.retireQuadCore (u - 97) 3 else x.retireUnit u 3) →
      exec (.engRetire h kind idx) s = answered h x y [BitVec.ofNat 8 (sparesOf y u).length]) ∧
    (∀ n, h.iss = .pf n →
      (Runs s h { len := 2, lenX := 2 } → ∀ kind idx u, engArg kind idx = .ok u → (x.unit u).st ≠ .retired →
        ((∀ t ∈ x.plb.testq, ¬ (t.unit = u ∧ t.purpose = .kat)) → x.requested < 64 →
          exec (.engKat h kind idx) s = waiting ({ x with plb := { x.plb with testq := x.plb.testq ++
            [({ unit := u, waiters := [(n, h.seq)] } : TestEnt)] } }).serveQueue) ∧
        ((∃ t ∈ x.plb.testq, t.unit = u ∧ t.purpose = .kat) →
          exec (.engKat h kind idx) s = waiting { x with plb := { x.plb with testq := x.plb.testq.map (fun t =>
            if t.unit == u && t.purpose == .kat then { t with waiters := t.waiters ++ [(n, h.seq)] } else t) } })) ∧
      (Runs s h {} → ∀ y, y = { x with plb := { x.plb with waitMargin := some (n, h.seq) } } →
        exec (.engMargin h) s = waiting (if x.plb.phase = 0 then y.beginPlan false else y)) ∧
      (Runs s h { len := 3, lenX := 3 } → ∀ port lane sub y, port ≤ 15 → lane ≤ 3 → (x.pair (port % 8)).enabled = true →
        x.locked [.pair (port % 8)] = false → sub = lane / lanesPer (x.pair (port % 8)).mode →
        y = ((x.updSub port sub (fun p => { p with st := .training, lanes := 0 })).faultsSince x (port % 8)).flowAll →
        exec (.portRecal h port lane 1) s =
          waiting { y with mbx := { y.mbx with waitRecal := y.mbx.waitRecal ++ [(n, h.seq, port, sub)] } })))

/-- An op-family command of the PF whose descriptor passes its checks becomes a job of Horrov's own queue; the mailbox
goes on with the next command, and the answer follows with the end of the job. A NOP or FENCE is answered at once with
its record. Rests on R138. -/
def Obligations.OpFamilyCommandsBecomeJobs : Prop :=
  ∀ (s x : State) (h : Hdr) (n : Nat) (d : Desc) (li lo : SglRead) (gi so : List SglEnt) (y : State),
    x = running s h → Runs s h { len := 64, lenX := 64 } → h.iss = .pf n → (s.fn 0).d3hot = false →
    ((s.fn 0).bme = true ∨ (d.flags.getLsbD 1 = false ∧ d.flags.getLsbD 2 = false)) →
    y = { x with que := { x.que with horrovIdx := x.que.horrovIdx + 1 } } → y.commonErr 0 d false li lo = .ok (gi, so) →
    (d.isNop = true → exec (.opFamily h d.opcode d li lo) s = waiting (y.answerPf n
      { gen := (y.fn 0).gen, seq := h.seq, results := ({ gen := (y.fn 0).gen, tag := d.tag } : Comp).bytes })) ∧
    (d.isNop = false → ∀ z, y.dispatchDesc { q := horrovQ, idx := x.que.horrovIdx } 0 horrovCls d so (some (n, h.seq)) =
        .ok (some z) →
      exec (.opFamily h d.opcode d li lo) s = waiting { z with mbx := { z.mbx with running := 0 } })

/-- A 32-bit read of a counter that clears on a read returns it and leaves it 0. RND_SAEV gives the oldest SA event and
takes it, and 0 when empty, which arms the next signal; EVQ_REC_LO gives and takes the record of the highest rank and
latches its upper half for EVQ_REC_HI. A 32-bit read of the lower half of a 64-bit register latches the upper half; a
diagnostic window is read only while the expert level is enabled, and otherwise returns 0 and is recorded; an aligned
offset without a register, and a size other than 4 or 8, return 0 and are recorded; a function whose registers cannot
be reached answers Unsupported Request. Rests on R9, R12, R14, R15, R36, R51, R74, R204, R537-R539. -/
def Obligations.RegisterReadsAnswerTheHost : Prop :=
  (∀ (s : State),
    (s.pcie.linkUp = true → s.barOpen 0 = true →
      exec (.pcieErrCntRead 0) s = .next ({ s with pcie := { s.pcie with rxErr := 0 } }.readReply 0 s.pcie.rxErr.toNat) ∧
      exec (.pcieErrCntRead 1) s = .next ({ s with pcie := { s.pcie with replay := 0 } }.readReply 0 s.pcie.replay.toNat) ∧
      exec (.pcieErrCntRead 2) s = .next ({ s with pcie := { s.pcie with recovery := 0 } }.readReply 0 s.pcie.recovery.toNat) ∧
      exec (.pcieErrCntRead 3) s =
        .next ({ s with pcie := { s.pcie with cplTimeout := 0 } }.readReply 0 s.pcie.cplTimeout.toNat) ∧
      exec (.pcieErrCntRead 4) s = .next ({ s with pcie := { s.pcie with poison := 0 } }.readReply 0 s.pcie.poison.toNat) ∧
      exec (.pcieErrCntRead 5) s = .next ({ s with pcie := { s.pcie with ur := 0 } }.readReply 0 s.pcie.ur.toNat) ∧
      exec .spgYieldCntRead s = .next ({ s with spg := { s.spg with yieldCnt := 0 } }.readReply 0 s.spg.yieldCnt.toNat) ∧
      exec .bndFullCntRead s = .next ({ s with bnd := { s.bnd with fullCnt := 0 } }.readReply 0 s.bnd.fullCnt.toNat) ∧
      exec .fltWaitCntRead s = .next ({ s with flt := { s.flt with waitCnt := 0 } }.readReply 0 s.flt.waitCnt.toNat) ∧
      exec .fltLimitCntRead s = .next ({ s with flt := { s.flt with limitCnt := 0 } }.readReply 0 s.flt.limitCnt.toNat) ∧
      exec .rndSaevStatRead s = .next ({ s with rdr := { s.rdr with saevLost := 0 } }.readReply 0
        (bits 16 16 s.rdr.saevLost.toNat + bits 0 11 s.rdr.saev.length)) ∧
      exec .evqStatusRead s = .next ({ s with scr := { s.scr with lost := 0 } }.readReply 0
        (bit 31 (decide (256 ≤ s.scr.evq.length)) + bit 30 s.scr.overrun + bits 16 9 s.scr.evq.length + s.scr.lost.toNat))) ∧
    (∀ f p q, Page s f p q → exec (.queJobsCntRead f p) s =
      .next ((s.updQueue q (fun x => { x with jobsCnt := 0 })).readReply f (s.queue q).jobsCnt.toNat))) ∧
  (∀ (s : State), s.pcie.linkUp = true → s.barOpen 0 = true →
    (∀ e t, s.rdr.saev = e :: t → exec .rndSaevRead s =
      .next ({ s with rdr := { s.rdr with saev := t, saevOverflow := false } }.readReply 0 (e.view s.rdr.saevOverflow))) ∧
    (s.rdr.saev = [] → exec .rndSaevRead s = .next ({ s with rdr := { s.rdr with saevArmed := true } }.readReply 0 0)) ∧
    (∀ e, evqBest s.scr.evq = some e → exec .evqRecLoRead s =
      .next ({ s with scr := { s.scr with evq := s.scr.evq.erase e, hiLatch := BitVec.ofNat 64 e.hi } }.readReply 0 e.lo)) ∧
    (s.scr.evq = [] → exec .evqRecLoRead s = .next ({ s with scr := { s.scr with hiLatch := 0 } }.readReply 0 0)) ∧
    exec .evqRecHiRead s = .next (s.readReply 0 s.scr.hiLatch.toNat)) ∧
  (∀ (s : State), s.pcie.linkUp = true →
    (∀ f o v, s.barOpen f = true → o % 4 = 0 → (f ≠ 0 ∨ inWindow o = false ∨ s.mbx.expert = true) → s.reg f o = .w64 v →
      exec (.reg64LowRead f o) s = .next (((s.readEffect f o).updFn f (fun x =>
        { x with upper := Tbl.set none x.upper o (some (BitVec.ofNat 32 (v / 2 ^ 32))) })).readReply f (v % 2 ^ 32))) ∧
    (∀ o size, s.barOpen 0 = true → inWindow o = true → s.mbx.undercoat = false → size = 4 ∨ size = 8 → o % size = 0 →
      (s.mbx.expert = false → exec (.expertWindowRead o size) s = .next ((s.readReply 0 0).report 34 0)) ∧
      (∀ v, s.mbx.expert = true → s.reg 0 o = .w32 v → size = 4 → exec (.expertWindowRead o size) s = .next (s.readReply 0 v)) ∧
      (∀ v, s.mbx.expert = true → s.reg 0 o = .w64 v → size = 8 → exec (.expertWindowRead o size) s = .next (s.readReply 0 v))) ∧
    (∀ f o, s.barOpen f = true → o % 8 = 0 → (f ≠ 0 ∨ inWindow o = false ∨ s.mbx.expert = true) → s.reg f o = .hole →
      exec (.unmappedRead { f := f, off := o, size := 4, space := .bar0 }) s = .next ((s.readReply f 0).report 33 f)) ∧
    (∀ f o size, s.barOpen f = true → size ≠ 4 → size ≠ 8 → ∀ b, b = .bar0 ∨ b = .bar2 →
      exec (.unmappedRead { f := f, off := o, size := size, space := b }) s = .next ((s.readReply f 0).report 32 f)) ∧
    (∀ f o size b, s.barOpen f = false → b = .bar0 ∨ b = .bar2 →
      exec (.unmappedRead { f := f, off := o, size := size, space := b }) s = .next (s.emit (.readUr f))))

/-- Configuration space answers with the identity of the part, the BARs of the device and of the VFs, the SR-IOV values
and the system page size (the places of the fields are those of log entry 99, PRESUMED: the model's, not the spec's);
a function in FLR or not ready answers Request Retry Status, and one that does not exist Unsupported Request.
ARONG_RSP returns the status, SEQ, STATE and results of a request that is done, bytes 0-3 with STATUS 0 before that,
and ST_NOT_READY where nothing answers. Rests on R43, R48, R50, R52, R54, R64, R142, R144, log entry 99 (PRESUMED). -/
def Obligations.ConfigurationAndResponseReads : Prop :=
  ∀ (s : State),
    (s.pcie.linkUp = true →
      (s.cfgOpen 0 = true → ∀ o v,
        (o = 0x00 ∧ v = 0x64002E5B) ∨ (o = 0x2C ∧ v = 0x22092E5B) ∨ (o = 0x10 ∧ v = barLow 26 (s.fn 0).bar0) ∨
          (o = 0x14 ∧ v = barHigh (s.fn 0).bar0) ∨ (o = 0x18 ∧ v = barLow 16 (s.fn 0).bar2) ∨
          (o = 0x1C ∧ v = barHigh (s.fn 0).bar2) ∨ (o ∈ [0x20, 0x24, 0x30] ∧ v = 0) ∨ (o = 0x15C ∧ v = 0x00FF00FF) ∨
          (o = 0x164 ∧ v = 0x00010001) ∨ (o = 0x16C ∧ v = 7) ∨ (o = 0x170 ∧ v = s.pcie.pageSize) ∨
          (o = 0x174 ∧ v = barLow 16 s.pcie.vfBar0) ∨ (o = 0x17C ∧ v = barLow 14 s.pcie.vfBar2) →
        exec (.unmappedRead { f := 0, off := o, size := 4, space := .cfg }) s =
          .next (s.emit (.readData 0 (BitVec.ofNat 64 (v : W32).toNat)))) ∧
      (∀ f, f ≠ 0 → s.cfgOpen f = true → ∀ o v, (o = 0x00 ∧ v = 0xFFFFFFFF) ∨ (o = 0x2C ∧ v = 0x22092E5B) ∨
          (o ∈ [0x10, 0x14, 0x18, 0x1C, 0x20, 0x24, 0x30] ∧ v = 0) →
        exec (.unmappedRead { f := f, off := o, size := 4, space := .cfg }) s =
          .next (s.emit (.readData f (BitVec.ofNat 64 (v : W32).toNat)))) ∧
      (∀ f o size, f = 0 ∨ (s.fn f).st ≠ .absent → (s.fn f).flr = true ∨ (s.fn f).rrs = true →
        exec (.unmappedRead { f := f, off := o, size := size, space := .cfg }) s = .next (s.emit (.cfgRetry f))) ∧
      (∀ f o size, f ≠ 0 → (s.fn f).st = .absent →
        exec (.unmappedRead { f := f, off := o, size := size, space := .cfg }) s = .next (s.emit (.readUr f)))) ∧
    (s.smbMute = false → ∀ f o size,
      (s.smbDead = true → exec (.unmappedRead { f := f, off := o, size := size, space := .arongRsp }) s =
        .next (s.emit (.smbus (leBytes 2 stNotReady.toNat ++ [s.mbx.smbSeq, 2])))) ∧
      (s.smbDead = false → s.mbx.smbState = 2 →
        exec (.unmappedRead { f := f, off := o, size := size, space := .arongRsp }) s =
          .next (s.emit (.smbus (leBytes 2 s.mbx.smbStatus.toNat ++ [s.mbx.smbSeq, 2] ++ s.mbx.smbResults)))) ∧
      (s.smbDead = false → s.mbx.smbState ≠ 2 →
        exec (.unmappedRead { f := f, off := o, size := size, space := .arongRsp }) s =
          .next (s.emit (.smbus [0, 0, s.mbx.smbSeq, s.mbx.smbState])))) ∧
    (s.smbMute = true → ∀ f o size,
      exec (.unmappedRead { f := f, off := o, size := size, space := .arongRsp }) s = .next (s.emit .smbusNack))

/-- A host write to a register without a row of its own changes that register: MBX_IRQ_EN, DEV_EVENT, EVQ_IRQ and
PWR_STATUS of the PF; the ring configuration of a DISABLED queue; the MSI-X message data; the fields of configuration
space. A function in FLR or not ready answers a configuration write with Request Retry Status. Rests on R9, R54, R57,
R64, R82. -/
def Obligations.RegisterWritesTakeEffect : Prop :=
  ∀ (s : State), s.pcie.linkUp = true →
    (s.barOpen 0 = true → ∀ v : W64, let w : W32 := v.setWidth 32
      exec (.regWrite (.bar 0 0x01100010 4 v)) s = .next { s with mbx := { s.mbx with irqEn := w.getLsbD 0 } } ∧
      exec (.regWrite (.bar 0 0x01200010 4 v)) s =
        .next { s with pcie := { s.pcie with event := s.pcie.event &&& ~~~ (w.setWidth 4) } } ∧
      exec (.regWrite (.bar 0 0x01203000 4 v)) s =
        .next { s with scr := { s.scr with evqIrqEn := w.getLsbD 16, evqLevel := w.toNat % 512 } } ∧
      exec (.regWrite (.bar 0 0x0120A000 4 v)) s =
        .next (if w.getLsbD 25 then { s with pwr := { s.pwr with abandoned := false } } else s)) ∧
    (∀ f p q v, Page s f p q → (s.queue q).st = .disabled →
      exec (.regWrite (.bar f (0x1000 * p + 0x18) 4 v)) s =
        .next (s.updQueue q (fun x => { x with sizeLog2 := (v.setWidth 32).toNat % 16 })) ∧
      exec (.regWrite (.bar f (0x1000 * p + 0x20) 8 v)) s = .next (s.updQueue q (fun x => { x with base := v &&& ~~~ 0x3F })) ∧
      exec (.regWrite (.bar f (0x1000 * p + 0x28) 8 v)) s = .next (s.updQueue q (fun x => { x with ciwb := v &&& ~~~ 0x7 }))) ∧
    (∀ f k v, s.barOpen f = true → k < (if f = 0 then 128 else 17) →
      exec (.regWrite (.bar2 f (16 * k + 8) 4 v)) s =
        .next (s.updFn f (fun x => { x with vecs := Tbl.upd {} x.vecs k (fun e => { e with data := v.setWidth 32 }) }))) ∧
    (∀ f v, s.cfgOpen f = true →
      exec (.regWrite (.cfg f .memSpace v)) s = .next (s.updFn f (fun x => { x with mse := v % 2 == 1 })) ∧
      exec (.regWrite (.cfg f .pmeEnable v)) s = .next (s.updFn f (fun x => { x with pmeEn := v % 2 == 1 })) ∧
      (v ≤ 2 → exec (.regWrite (.cfg f .maxPayload v)) s = .next (s.updFn f (fun x => { x with maxPayload := v }))) ∧
      (v ≤ 5 → exec (.regWrite (.cfg f .maxRead v)) s = .next (s.updFn f (fun x => { x with maxRead := v })))) ∧
    (∀ f fld v, f = 0 ∨ (s.fn f).st ≠ .absent → (s.fn f).flr = true ∨ (s.fn f).rrs = true →
      exec (.regWrite (.cfg f fld v)) s = .next (s.emit (.cfgRetry f)))

/-- A doorbell queues the frame of a FREE slot, and one that names no such slot is recorded; a 1 written to DONE frees the
slots that are done; a command at its time limit is undone and answered ST_ABORTED, DETAIL 5, or ST_MRAM_FAIL where
its write to MRAM waits for VIN; the reset of the SMBus interface by a clock held low leaves the device as it is.
Rests on R117, R120, R123, R547, R634. -/
def Obligations.MailboxEventsTakeEffect : Prop :=
  ∀ s : State,
    (s.mbx.ready = true → ∀ slot bad,
      (s.barOpen 0 = true → 1 ≤ slot → slot ≤ 15 → (s.mslot slot).st = .free → ∀ y,
        y = s.updMslot slot (fun m => { m with st := .queued, bad := bad <|> m.badCmd slot }) →
        exec (.mbxDoorbell 0 slot bad) s =
          .next (serveBad 300 { y with mbx := { y.mbx with order := y.mbx.order ++ [slot] } }).activity) ∧
      (s.barOpen 0 = true → (slot = 0 ∨ 15 < slot ∨ (s.mslot slot).st ≠ .free) → exec (.mbxDoorbell 0 slot bad) s = .next (s.report 38 0)) ∧
      (∀ v, v ≠ 0 → s.mbx.undercoat = false → s.barOpen v = true →
        ((s.vmbx v).slot.st = .free → exec (.mbxDoorbell v slot bad) s =
          .next (serveBad 300 (s.updVmbx v (fun m =>
            { m with slot := { m.slot with st := .queued, bad := bad <|> m.slot.badCmd (16 + v) } }))).activity) ∧
        ((s.vmbx v).slot.st ≠ .free → exec (.mbxDoorbell v slot bad) s = .next (s.report 38 v)))) ∧
    (∀ mask, s.barOpen 0 = true → exec (.mbxDoneClear mask) s = .next { s with mbx := { s.mbx with
      slots := Tbl.map {} (fun n m => if mask.getLsbD n && m.st == .done then { m with st := .free } else m) s.mbx.slots } }) ∧
    (∀ v, s.barOpen v = true → exec (.vmbDoneClear v) s = .next (s.updVmbx v (fun m =>
      if m.slot.st = .done then { m with slot := { m.slot with st := .free } } else m))) ∧
    (∀ (h : Hdr) n, h.iss = .pf n → n ≠ 0 → s.mbx.running = n → s.lifeRuns n = false →
      (s.mramWaits n = false → exec (.cmdTimeLimit h) s = .next (serveBad 300
        ((s.undoCmd n).answerPf n { status := stAborted, gen := (s.fn 0).gen, seq := h.seq, detail := 5 }))) ∧
      (s.mramWaits n = true → exec (.cmdTimeLimit h) s = .next (serveBad 300
        ((s.undoCmd n).answerPf n { status := stMramFail, gen := (s.fn 0).gen, seq := h.seq })))) ∧
    exec .smbusTimeout s = .next s

/-- A write of QUE_PI posts entries and takes those that the push window holds, or stops the queue on an overflow; on a
queue that is not ACTIVE it is recorded. A write into the push window is kept. EN starts a DISABLED queue, in ERROR
where its ring is not configured, and clearing it stops the queue; a queue that has stopped is DISABLED; an entry that
has not started is held and released again; the moderation fields and timer act on its interrupt. Rests on R81-R83,
R91, R93, R97, R98, R111. -/
def Obligations.QueueWritesTakeEffect : Prop :=
  ∀ (s : State) (f p q : Nat), s.barOpen f = true → s.queueAt f p = some q →
    (∀ v, (s.queue q).st = .active →
      (idxDist (s.queue q).ci v ≤ (s.queue q).size → idxDist (s.queue q).pi v ≤ (s.queue q).size →
        exec (.quePiWrite f p v) s =
          .next ((consume q f (s.queue q).pi (List.range (min (idxDist (s.queue q).pi v) 8)) s).updQueue q
            (fun y => { y with pi := v, push := [] })).activity) ∧
      ((s.queue q).size < idxDist (s.queue q).ci v → exec (.quePiWrite f p v) s =
        .next ((s.updQueue q (fun y => { y with st := .error, err := .overflow })).report 448 q))) ∧
    (∀ v, (s.queue q).st ≠ .active → exec (.quePiWrite f p v) s = .next (s.report 36 f)) ∧
    (∀ off data, data.length ∈ [8, 16, 32, 64] → off % data.length = 0 → off + data.length ≤ 512 →
      exec (.pushSlotWrite f p off data) s =
        .next (s.updQueue q (fun y => { y with push := pushWordsAt off data (List.range (data.length / 8)) y.push }))) ∧
    (∀ irq, (s.queue q).en = false → (s.queue q).st = .disabled → ∀ on y,
      on = (fun (st : QState) (err : QErr) => s.updQueue q (fun y => { y with
        en := true, irqEn := irq, pi := 0, ci := 0, fetch := 0, push := [], entries := [], hold := none, inval := .idle,
        st := st, err := err })) →
      y = (if (s.queue q).base = 0 ∨ (s.queue q).sizeLog2 < 3 ∨ 12 < (s.queue q).sizeLog2 then (on .error .config).report 450 q
           else on .active .none) →
      exec (.queueEnable f p irq) s = .next y) ∧
    (∀ irq, (s.queue q).en = true → exec (.queueDisable f p irq) s = .next (s.updQueue q (fun y => if y.en then
      { y with en := false, irqEn := irq, st := .stopping, entries := keepDispatched y.entries, hold := none, inval := .idle }
      else { y with irqEn := irq }))) ∧
    ((s.queue q).st = .stopping → s.queueIdle q = true →
      exec (.queueStopped q) s = .next (s.updQueue q (fun y => { y with st := .disabled }))) ∧
    (∀ i, ((s.queue q).hold = none ∨ (s.queue q).hold = some i) →
      idxDist (s.queue q).ci i < idxDist (s.queue q).ci (s.queue q).pi → (s.queue q).entry i = none →
      exec (.queInvalHold f p i) s =
        .next (s.updQueue q (fun _ => { s.queue q with invalIndex := i, inval := .held, hold := some i }))) ∧
    (∀ i, (s.queue q).hold = some i → exec (.queInvalRelease f p i) s =
      .next (s.updQueue q (fun _ => { s.queue q with invalIndex := i, hold := none, inval := .idle }))) ∧
    (∀ timer count, exec (.queModWrite f p timer count) s =
      .next (s.updQueue q (fun y => { y with timer := timer % 1024, count := count % 256 }))) ∧
    ((s.queue q).modTimer = true → (s.queue q).irqEn = true → 0 < (s.queue q).modPend →
      exec (.queModTimer q) s = .next (s.raiseQueueIrq q))

/-- The next descriptor of an ACTIVE queue is fetched from its place in the ring, or taken from its push slot, and
checked; a failed fetch stops the queue; the next entry in order becomes a job, and a FENCE or NOP is done at its
dispatch; a job that has ended on its engine is completed. Rests on R79, R88, R90, R95, R99, R101, R103. -/
def Obligations.QueueEntriesBecomeJobs : Prop :=
  ∀ (s : State) (q : Nat) (i : W16) (f : Nat), f = (s.queue q).fn →
    ((s.queue q).nextFetch = some i → (s.queue q).st = .active → s.serving f = true → s.pfRoom f = true →
      s.tokenFree f = true → (s.queue q).ahead < 32 →
      (∀ e r, (s.queue q).entry i = some e →
        exec (.descriptorFetch q r) s = .next (s.receive q i e.desc true (.got []) (.got []))) ∧
      ((s.queue q).entry i = none → (s.fn f).bme = true → ∀ x, x = s.wakeLink.emit (.fetch q ((s.queue q).entryAddr i)) →
        (∀ d li lo, exec (.descriptorFetch q (.got d li lo)) s = .next (x.receive q i d false li lo)) ∧
        (∀ e, exec (.descriptorFetch q (.fail e)) s =
          .next (((x.dmaFailed e).updQueue q (fun y => { y with st := .error, err := .fetch })).report 449 q)))) ∧
    (∀ e, s.dispatchable q = some (i, e) →
      (e.desc.isNop = false → s.pfRoom f = true → ∀ y,
        s.dispatchDesc { q := q, idx := i } f (s.queue q).cls e.desc e.outSgl none = .ok (some y) →
        exec (.jobDispatch q) s = .next (y.updQueue q (fun z => z.setEntry i (some { e with st := .dispatched })))) ∧
      (∀ y, y = (s.updQueue q (fun z => z.setEntry i (some { e with st := .dispatched }))).finishEntry f { q := q, idx := i }
          { gen := (s.fn f).gen, tag := e.desc.tag } [] false →
        (e.desc.opcode = 0 → exec (.fence q) s = .next y) ∧ (e.desc.opcode = 1 → exec (.nop q) s = .next y))) ∧
    (∀ id j, s.findJob id = some j → j.st = .ended → s.canComplete j = true →
      exec (.jobEnd id) s = .next ((s.freeHolds j).completeJob j))

/-- A running aead.seal, kem.keygen, rsa.sign or hash.digest job that is to be aborted ends with its abort status at its
next row, and one whose input cannot be read ends with ST_DMA_ERROR. Rests on R105, R231, R402. -/
def Obligations.JobsStopOnAbortAndFailedRead : Prop :=
  ∀ (s : State) (id : JobId) (j : Job), s.findJob id = some j → j.st = .running → j.desc.isHybrid = false →
    (∀ inp st det ok, j.abort = some (st, det) →
      (j.desc.op = 0x10 → exec (.aeadSeal id inp) s = .next (s.endJob id { status := st, detail := det })) ∧
      (j.desc.op = 0x20 → exec (.kemKeygen id inp ok) s = .next (s.endJob id { status := st, detail := det })) ∧
      (j.desc.op = 0x74 → exec (.rsaSign id inp ok) s = .next (s.endJob id { status := st, detail := det })) ∧
      (j.desc.op = 0x60 → exec (.hashDigest id inp) s = .next (s.endJob id { status := st, detail := det }))) ∧
    (∀ e ok, j.abort = none → (s.fn j.fn).bme = true → ∀ y, y = (s.wakeLink.dmaFailed e).failJob id stDmaError e.code →
      (j.desc.op = 0x10 → exec (.aeadSeal id (.fail e)) s = .next y) ∧
      (j.desc.op = 0x20 → exec (.kemKeygen id (.fail e) ok) s = .next y) ∧
      (j.desc.op = 0x74 → exec (.rsaSign id (.fail e) ok) s = .next y) ∧
      (j.desc.op = 0x60 → exec (.hashDigest id (.fail e)) s = .next y))

/-- The lookaside AEAD jobs. The IV is the body's, or with IV_MODE 1 a random one that RESULT returns; the sealed text is
followed by its tag; a tag that does not verify ends the job with ST_AUTH_FAIL and no output. Rests on R195-R197. -/
def Obligations.AeadJobsComplete : Prop :=
  ∀ (s y0 y : State) (id : JobId) (j : Job) (b b0 : List Byte) (ws : List W512) (d : Desc) (key iv res : List Byte) (aad n : Nat),
    d = j.desc → b = fit d.inLen.toNat b0 →
    drawn (fetched s j) ((19 + j.engine / 4) :: (if d.b 57 1 = 1 then [genDevice] else [])) = some (ws, y0) →
    y = y0.drawMany (19 + j.engine / 4) (renderWords (y0.rnd j.engine).fstep b.length - 1) →
    key = aesKey j.key0 → iv = (if d.b 57 1 = 1 then leBytes 12 (ws.getD 1 0).toNat else leBytes 12 (d.b 40 12)) →
    res = (if d.b 57 1 = 1 then iv else []) → aad = d.b 52 4 → n = b.length - d.b 56 1 →
    (JobRuns s id 0x10 j → exec (.aeadSeal id (.got b0)) s = .next (y.endJob id
      { out := fit (b.length - aad) (Config.gcmSeal key iv (b.take aad) (b.drop aad)).1 ++
          fit (d.b 56 1) (Config.gcmSeal key iv (b.take aad) (b.drop aad)).2, result := res })) ∧
    (JobRuns s id 0x11 j →
      (∀ m, Config.gcmOpen key iv (b.take aad) ((b.take n).drop aad) (b.drop n) = some m →
        exec (.aeadOpen id (.got b0)) s = .next (y.endJob id { out := fit (n - aad) m, result := res })) ∧
      (Config.gcmOpen key iv (b.take aad) ((b.take n).drop aad) (b.drop n) = none →
        exec (.aeadOpen id (.got b0)) s = .next (y.failJob id stAuthFail 0))) ∧
    (JobRuns s id 0x12 j → exec (.gmacTag id (.got b0)) s = .next (y.endJob id
      { out := fit (d.b 56 1) (Config.gcmSeal key iv b []).2, result := res })) ∧
    (JobRuns s id 0x13 j →
      (∀ m, Config.gcmOpen key iv (b.take n) [] (b.drop n) = some m →
        exec (.gmacCheck id (.got b0)) s = .next (y.endJob id { out := [], result := res })) ∧
      (Config.gcmOpen key iv (b.take n) [] (b.drop n) = none →
        exec (.gmacCheck id (.got b0)) s = .next (y.failJob id stAuthFail 0)))

/-- A generated key, and an agreed or derived secret, stays in Bond and only its handle is returned; encapsulation returns
its ciphertext, and the own X25519 key of a hybrid job; the Hawk part of a hybrid job leaves its secret in the
transient slot and hands the job on to Lath. Rests on R289-R293, R304, R307. -/
def Obligations.KemJobsComplete : Prop :=
  ∀ (s y : State) (id : JobId) (j : Job) (b b0 : List Byte) (ws : List W512) (d : Desc) (set : Nat),
    d = j.desc → set = d.set → b = fit d.inLen.toNat b0 →
    (JobRuns s id 0x20 j → maskDrawn s j [genDevice] = some (ws, y) → ∀ seed, seed = leBytes 64 (ws.getD 0 0).toNat →
      Delivers (exec (.kemKeygen id (.got b0) true) s) y j (fit (kemSizes set).1 (Config.pubOf 0x20 set seed))
        [j.key .dec (0x1000 + set) .generated seed] []) ∧
    (maskDrawn s j [] = some (ws, y) → ∀ (kin ss ct out sec : List Byte), kin = b.take d.kemIn →
      (if d.isEncaps then Config.pubValid 0x20 set kin = true ∧ ct = fit (kemSizes set).2 (Config.encaps 0x20 set kin (ws.getD 0 0)).1 ∧
          ss = fit 32 (Config.encaps 0x20 set kin (ws.getD 0 0)).2 ∧ out = ct ++ y.ownPub j
       else ct = kin ∧ ss = fit 32 (Config.decaps 0x20 set j.key0 kin) ∧ out = []) → sec = y.kemSecret j b ss ct →
      (JobRuns s id 0x21 j → Delivers (exec (.kemEncaps id (.got b0)) s) y j out [j.key .derive 0x0400 .agreed sec] []) ∧
      (JobRuns s id 0x22 j → Delivers (exec (.kemDecaps id (.got b0)) s) y j out [j.key .derive 0x0400 .agreed sec] []) ∧
      (JobRuns s id 0x23 j → Delivers (exec (.hybEncaps id (.got b0)) s) y j out [j.key .derive 0x0400 .agreed sec] []) ∧
      (JobRuns s id 0x24 j → Delivers (exec (.hybDecaps id (.got b0)) s) y j out [j.key .derive 0x0400 .agreed sec] []) ∧
      (JobRuns s id 0x25 j → ∀ tail n, tail = b.drop (d.kemIn + if d.hyb then 32 else 0) → n = outBytesOf (d.b 48 1) (d.b 49 1) →
        Delivers (exec (.kemRekey id (.got b0)) s) y j out (j.outKeys (d.b 48 1) (d.b 49 1)
          (fit n (Config.kmac256 sec (tail.drop (d.b 52 2)) (8 * n) (tail.take (d.b 52 2))))) [])) ∧
    (s.findJob id = some j → d.isHybrid = true → j.part = 0 → j.st = .running → j.abort = none → (s.fn j.fn).bme = true →
      hawkDrawn s.wakeLink j (if j.ownX.isNone then 1 else 0) = some (ws, y) → ∀ scalar ss x,
      scalar = j.ownX.getD (leBytes 32 (ws.getD 0 0).toNat) → ss = fit 32 (Config.x25519 scalar (slice b d.kemIn 32)) →
      (∃ c ∈ ss, c ≠ 0) →
      x = (match j.transient with
        | some k => y.putTransient k (ss ++ fit 32 (Config.x25519Pub scalar))
        | none => y) →
      exec (.hybridLathPart id (.got b0) true) s = .next (((x.updJob id (fun z =>
        { z with part := 1, kind := .lath, st := .waiting, blocked := 3, grant := lathGrant z.desc.op z.level })).leaveEngine
          j)).checkClasses.assign)

/-- A generated key stays in Bond; a signature stands in the output, and of ML-DSA the number of its iterations in RESULT,
more than 814 ending the job with ST_ABORTED; a signature that does not verify ends its job with ST_VERIFY_FAIL. Rests
on R294-R298, R324-R327. -/
def Obligations.SignatureJobsComplete : Prop :=
  ∀ (s y : State) (id : JobId) (j : Job) (b b0 : List Byte) (ws : List W512) (d : Desc) (set : Nat),
    d = j.desc → set = d.set → b = fit d.inLen.toNat b0 →
    (maskDrawn s j [genDevice] = some (ws, y) → ∀ seed, seed = leBytes 32 (ws.getD 0 0).toNat →
      (JobRuns s id 0x28 j → Delivers (exec (.dsaKeygen id (.got b0) true) s) y j
        (fit (dsaSizes set).1 (Config.pubOf 0x28 set seed)) [j.key .enc (0x1010 + set) .generated seed] []) ∧
      (JobRuns s id 0x40 j → Delivers (exec (.slhKeygen id (.got b0) true) s) y j
        (slhPkSeed set seed ++ fit (slhN set) (Config.pubOf 0x40 set (slhExpand set seed))) [j.key .enc (0x1020 + set) .generated seed] [])) ∧
    (maskDrawn s j [] = some (ws, y) → ∀ (rnd : W512),
      (JobRuns s id 0x29 j → rnd = (if d.b 42 1 = 1 then 0 else ws.getD 0 0) → ∀ k, k = Config.signIters set j.key0 (d.signed b) rnd →
        (k ≤ 814 → exec (.dsaSign id (.got b0) true) s = .next (y.endJob id
          { out := fit (dsaSizes set).2 (Config.sign 0x28 set j.key0 (d.signed b) rnd), result := leBytes 4 k })) ∧
        (814 < k → exec (.dsaSign id (.got b0) true) s = .next (y.failJob id stAborted 5))) ∧
      (JobRuns s id 0x41 j → rnd = (if d.b 42 1 = 1 then BitVec.ofNat 512 (ofLe (slhPkSeed set j.key0))
          else (ws.getD 0 0) % BitVec.ofNat 512 (256 ^ slhN set)) →
        exec (.slhSign id (.got b0) true) s = .next (y.endJob id
          { out := fit (slhSizes set).2 (Config.sign 0x40 set (slhExpand set j.key0) (d.signed b) rnd) }))) ∧
    (∀ pk sg, (JobRuns s id 0x2A j → pk = (dsaSizes set).1 → sg = (dsaSizes set).2 →
        exec (.dsaVerify id (.got b0)) s =
          .next (if Config.verify 0x28 set (b.take pk) (d.signed (b.drop (pk + sg))) (slice b pk sg) then (fetched s j).endJob j.id {}
            else (fetched s j).failJob j.id stVerifyFail 0)) ∧
      (JobRuns s id 0x42 j → pk = (slhSizes set).1 → sg = (slhSizes set).2 →
        exec (.slhVerify id (.got b0)) s =
          .next (if Config.verify 0x40 set (b.take pk) (d.signed (b.drop (pk + sg))) (slice b pk sg) then (fetched s j).endJob j.id {}
            else (fetched s j).failJob j.id stVerifyFail 0)))

/-- A new LMS/HSS key waits for its commit; a signature uses the index taken at dispatch, once that index is reserved, and
RESULT gives the index and what is left; a public key or signature outside the options of R329 does not verify; a
verified reservation record stands in the ring, at once or in the next entry, and raises the limit, and one that fails
ends the jobs that wait for it. HQC and Classic McEliece: McEliece key generation makes at most 64 attempts and RESULT
counts them; a cached key is valid once it is in every Quad; a job that needs a region gets the lowest free place of a
Quad, and a supplied key is then loaded. Rests on R329-R334, R338, R342-R350. -/
def Obligations.LmsAndCodeBasedJobsComplete : Prop :=
  (∀ (s y : State) (id : JobId) (j : Job) (b b0 : List Byte) (ws : List W512) (d : Desc) (set k : Nat),
    d = j.desc → set = d.set → b = fit d.inLen.toNat b0 →
    (JobRuns s id 0x44 j → maskDrawn s j [genDevice] = some (ws, y) → (∀ c ∈ s.commits, c.job ≠ some id) →
      y.lmsSlot = some k → y.lmsCount < 512 → ∀ data, data = leBytes (16 + lmsN set) (ws.getD 0 0).toNat ++ leBytes 9 (d.b 40 9) →
      exec (.lmsKeygen id (.got b0) true) s = .next ((y.updJob id (fun z => { z with res :=
        { out := beBytes 4 (d.b 40 1) ++ beBytes 4 (d.b 41 1) ++ beBytes 4 (d.b 45 1) ++ data.take 16 ++
              fit (lmsN set) (Config.pubOf 0x44 set data), result := leBytes 8 (lmsOf data).total } })).requestCommit
          { puts := [{ slot := k, kind := 3, usage := .enc, alg := BitVec.ofNat 16 (0x1030 + set), level := 1,
                       klen := data.length, data := data }], job := some id })) ∧
    (JobRuns s id 0x45 j → k = j.refs.headD 0 → ∀ q, q = j.hold.getD 0 →
      (((fetched s j).hss k).limit.toNat ≤ q → ∀ ok, exec (.lmsSign id (.got b0) ok) s = .next (fetched s j)) ∧
      (q < ((fetched s j).hss k).limit.toNat → maskDrawn s j [] = some (ws, y) → exec (.lmsSign id (.got b0) true) s = .next (y.endJob id
        { out := fit (lmsOf j.key0).sigLen (Config.sign 0x44 set j.key0 (leBytes 8 q ++ b) (ws.getD 0 0)),
          result := leBytes 8 q ++ leBytes 8 ((lmsOf j.key0).total - max ((fetched s j).hss k).limit.toNat ((fetched s j).hss k).next.toNat) }))) ∧
    (JobRuns s id 0x46 j → ∀ pk sig, pk = b.take (d.b 40 2) → sig = slice b (d.b 40 2) (d.b 44 4) →
      exec (.lmsVerify id (.got b0)) s = .next (
        if hssOptions set pk sig = true ∧ Config.verify 0x44 set pk (b.drop (d.b 40 2 + d.b 44 4)) sig = true then
          (fetched s j).endJob id {} else (fetched s j).failJob id stVerifyFail 0)) ∧
    (∀ r, (s.hss k).writing = some r → (s.hss k).started = true → ∀ x h w, x = clearAhead 1024 s →
      h = { s.hss k with limit := r, writing := none } → w = h.nextWrite (lmsOf (x.keyBytes k)).total →
      (s.seamDown = false →
        (∀ m how, (how = .first ∧ m = x.mram) ∨ (how = .retry ∧ m = x.mram.tearRes) →
          exec (.reservationWriteDone k how) s = .next { x with
            lth := { x.lth with hss := Tbl.set {} x.lth.hss k { h with writing := w, started := w.isSome && !x.pwr.vinWarn } }
            mram := m.putRes k (x.slot k).stamp r })) ∧
      exec (.reservationWriteDone k .fail) s = .next
        (((failAbove k (s.hss k).limit.toNat x.que.jobs { x with mram := x.mram.tearRes.tearRes }).updHss k
          (fun z => { z with writing := none, started := false })).report 130 0)) ∧
    ((s.hss k).rebuilding = true ∨ (s.hss k).waitFrom.isSome = true →
      exec (.lmsRebuildDone k) s = .next (s.updHss k (fun h => { h with rebuilding := false, waitFrom := none })).assign)) ∧
  (∀ (s y : State) (id : JobId) (j : Job) (b b0 : List Byte) (ws : List W512) (d : Desc) (set : Nat),
    d = j.desc → set = d.set → b = fit d.inLen.toNat b0 →
    (maskDrawn s j [genDevice] = some (ws, y) →
      (JobRuns s id 0x48 j → ∀ seed, seed = leBytes 64 (ws.getD 0 0).toNat → Delivers (exec (.hqcKeygen id (.got b0) true) s) y j
        (fit (hqcSizes set).1 (Config.pubOf 0x48 set seed)) [j.key .dec (0x1040 + set) .generated seed] []) ∧
      (JobRuns s id 0x4C j → ∀ n w z seed, mceTry 64 1 y = (some (n, w), z) → seed = leBytes 32 w.toNat →
        Delivers (exec (.mceKeygen id (.got b0) true) s) z j
          (fit (mceSizes set).1 (Config.pubOf 0x4C set seed)) [j.key .dec (0x1050 + set) .generated seed] (leBytes 4 n)) ∧
      (JobRuns s id 0x4C j → ∀ z, mceTry 64 1 y = (none, z) →
        exec (.mceKeygen id (.got b0) true) s = .next (z.failJob id stAborted 5))) ∧
    (maskDrawn s j [] = some (ws, y) →
      (JobRuns s id 0x49 j → Config.pubValid 0x48 set b = true → Delivers (exec (.hqcEncaps id (.got b0)) s) y j
        (fit (hqcSizes set).2 (Config.encaps 0x48 set b (ws.getD 0 0)).1)
        [j.key .derive 0x0400 .agreed (fit 64 (Config.encaps 0x48 set b (ws.getD 0 0)).2)] []) ∧
      (JobRuns s id 0x4A j → Delivers (exec (.hqcDecaps id (.got b0)) s) y j []
        [j.key .derive 0x0400 .agreed (fit 64 (Config.decaps 0x48 set j.key0 b))] []) ∧
      (JobRuns s id 0x4D j → ∀ pk, pk = (match j.hold with
          | some e => ((fetched s j).mceEntry e).pk
          | none => j.key0) → Delivers (exec (.mceEncaps id (.got b0)) s) y j
        (fit (mceSizes set).2 (Config.encaps 0x4C set pk (ws.getD 0 0)).1)
        [j.key .derive 0x0400 .agreed (fit 32 (Config.encaps 0x4C set pk (ws.getD 0 0)).2)] []) ∧
      (JobRuns s id 0x4E j → Delivers (exec (.mceDecaps id (.got b0)) s) y j []
        [j.key .derive 0x0400 .agreed (fit 32 (Config.decaps 0x4C set j.key0 b))] [])) ∧
    (JobRuns s id 0x4F j → ∀ e x, e = j.hold.getD 0 → x = fetched s j → x.cacheInUse set e = false →
      exec (.mceCache id (.got b0)) s = .next (({ x with lth := { x.lth with
        cache := Tbl.set {} x.lth.cache e { x.mceEntry e with loading := false, valid := true, pk := b } } }).endJob id
          { result := leBytes 4 (x.mceEntry e).tag.toNat })) ∧
    (s.findJob id = some j → j.st = .waiting → j.blocked = 1 → ∀ q,
      (d.opcode = 0x45 → ∀ h, ((s.giveHome (j.refs.headD 0)).hss (j.refs.headD 0)).home = some h →
        exec (.regionAlloc id q) s =
          .next (((s.giveHome (j.refs.headD 0)).updJob id (fun x => { x with quad := some h, blocked := 0 })).assign)) ∧
      (d.opcode ≠ 0x45 → (∃ i < 4, s.serves j.cls .lath (4 * q + i) = true) → s.regionRoom j q = true → ∀ p,
        s.regionAt q j.regionSize = some p →
        exec (.regionAlloc id q) s = .next ((({ s with lth := { s.lth with
          regions := s.lth.regions ++ [({ quad := q, base := p, size := j.regionSize, job := id } : Region)] } }).updJob id
            (fun x => { x with quad := some q, blocked := if d.opcode = 0x4D then 2 else 0 })).assign))) ∧
    (s.findJob id = some j → j.st = .waiting → j.blocked = 2 → (s.fn j.fn).bme = true →
      exec (.mceKeyLoaded id (.got b0)) s = .next ((s.wakeLink.updJob id (fun x => { x with blocked := 0, keys := [b] })).assign) ∧
      (∀ e, exec (.mceKeyLoaded id (.fail e)) s = .next ((s.wakeLink.dmaFailed e).failJob id stDmaError e.code))))

/-- A one-shot digest, HMAC or KMAC returns its value, a START leaves the state of its message in a context; KDF output
only enters Bond; a record that is imported becomes a context, and a bad one is a bad descriptor; a job yields its
core to a rival and goes on later. Rests on R358-R360, R366-R375. -/
def Obligations.SpongeJobsComplete : Prop :=
  ∀ (s y : State) (id : JobId) (j : Job) (b b0 : List Byte) (d : Desc) (a n : Nat),
    d = j.desc → a = d.alg → b = fit d.inLen.toNat b0 →
    (JobRuns s id 0x60 j → n = (if algIsXof a then d.b 48 4 else algDigest a) → ∀ pre,
      pre = (if algIsCshake a ∧ 0 < d.b 44 2 + d.b 46 2 then ceilDiv (2 + encStr (d.b 44 2) + encStr (d.b 46 2)) (algBlock a) else 0) →
      exec (.hashDigest id (.got b0)) s = .next ((fetched s j).phase j b (fun c => fit n (Config.digest c.alg c.base c.pre c.absorbed n)) pre 0 0)) ∧
    (PoolSeeded y → y = fetched s j →
      (JobRuns s id 0x62 j → exec (.macHmac id (.got b0)) s = .next (y.phase j b
        (fun c => (hmacOf a c.key c.absorbed).take (d.b 42 2)) 1 (hashUnits a (algBlock a + algDigest a)) (algBlock a))) ∧
      (JobRuns s id 0x63 j → exec (.macKmac id (.got b0)) s = .next (y.phase j b
        (fun c => fit (d.b 42 2) (Config.kmac c.alg c.key c.absorbed (d.b 42 2) c.pre))
        (ceilDiv (2 + encStr 4 + encStr (d.b 46 2)) (algBlock a) + 1) 0 0)) ∧
      (JobRuns s id 0x64 j → ∀ sl ll cl, sl = d.b 50 2 → ll = d.b 52 2 → cl = d.b 54 2 → n = outBytesOf (d.b 48 1) (d.b 49 1) →
        Delivers (exec (.kdfDerive id (.got b0)) s) (y.coreUnits j (kdfUnits a j.keys.flatten.length sl (ll + cl) ll cl n)) j []
          (j.outKeys (d.b 48 1) (d.b 49 1) (kdfBytes a j.keys.flatten (b.take sl) (slice b sl ll) (slice b (sl + ll) cl) n)) [])) ∧
    (JobRuns s id 0x61 j →
      (importFault b = none → j.hold = some n → exec (.hashImport id (.got b0)) s = .next (((fetched s j).updCtx n (fun c =>
        { c with live := true, opcode := 0x60, alg := b.getD 4 0, count := BitVec.ofNat 64 (fieldLe b 8 8),
                 base := slice b 24 200 ++ slice b 8 8, absorbed := slice b 224 (fieldLe b 6 2) })).endJob id
          { result := leBytes 2 n })) ∧
      (∀ o, importFault b = some o → exec (.hashImport id (.got b0)) s = .next ((fetched s j).failJob id stBadDesc (65536 + o)))) ∧
    (s.findJob id = some j → j.kind.isPool = true →
      (j.st = .running → d.op ≠ 0x61 → d.op ≠ 0x64 → s.rivalWaits j = true → s.poolIdle j = false →
        (s.unit (j.kind.unit j.engine)).st ≠ .draining → s.spg.saved.length < 64 → ∀ x,
        x = (s.updJob id (fun x => { x with st := .suspended })).leaveEngine j →
        exec (.poolYield id) s = .next ({ x with
          que := { x.que with jobs := x.que.jobs.filter (fun (z : Job) => z.id != id) ++ x.que.jobs.filter (fun (z : Job) => z.id == id) }
          spg := { x.spg with saved := x.spg.saved ++ [id], yieldCnt := satInc x.spg.yieldCnt } }).assign) ∧
      (j.st = .running → d.op ≠ 0x61 → d.op ≠ 0x64 → s.rivalWaits j = true → s.poolIdle j = false →
        (s.unit (j.kind.unit j.engine)).st ≠ .draining → 64 ≤ s.spg.saved.length →
        exec (.poolYield id) s = .next { s with spg := { s.spg with noSave := true } }) ∧
      (j.st = .suspended → s.held = false → ∀ c r x, s.nextJob j.kind c = some (x, r) → x.id = id → c < 8 →
        (∀ i < c, ∀ p, s.nextJob j.kind i = some p → p.1.id ≠ id) → ∀ z, z = s.takeNext j.kind c x r →
        exec (.poolResume id) s = .next { z with spg := { z.spg with saved := z.spg.saved.filter (fun i => i != id) } }))

/-- An invalid point, and an X25519 result of zero, end with ST_POINT_INVALID; a signature out of its range ends early,
before its equation. RSA and big numbers: public integers out of range end with ST_RANGE, early; bn.modexp and
bn.modmul return the power and the product modulo their modulus, most significant byte first. Rests on R387-R397. -/
def Obligations.HawkJobsComplete : Prop :=
  (∀ (s y : State) (id : JobId) (j : Job) (b b0 : List Byte) (ws : List W512) (d : Desc) (c : Nat),
    d = j.desc → c = d.set → b = fit d.inLen.toNat b0 →
    (
      (hawkDrawn (fetched s j) j 1 = some (ws, y) → JobRuns s id 0x70 j → ∀ priv, priv = privOf c (ws.getD 0 0) → Delivers (exec (.ecKeygen id (.got b0) true) s) y j
        (fit (curvePk c) (if c = 1 then Config.x25519Pub priv else Config.pubOf 0x70 c priv))
        [j.key (if c = 1 then .dec else if c = 2 then .enc else if d.b 40 1 = 0 then .dec else .enc) (0x2000 + c) .generated priv] []) ∧
      (hawkDrawn (fetched s j) j (if c = 2 then 0 else 1) = some (ws, y) → JobRuns s id 0x72 j →
        exec (.ecSign id (.got b0) true) s = .next (y.endJob id
          { out := fit (curveSig c) (Config.sign 0x72 c j.key0 (d.sigOpts ++ b) (if c = 2 then 0 else ws.getD 0 0)) }))) ∧
    (hawkDrawn (fetched s j) j 0 = some (ws, y) → JobRuns s id 0x71 j → ∀ ss,
      ss = (if c = 1 then fit 32 (Config.x25519 j.key0 b) else fit (scalarLen c) (Config.decaps 0x71 c j.key0 b)) →
      ((if c = 1 then ∃ z ∈ ss, z ≠ 0 else Config.pubValid 0x71 c b = true) →
        Delivers (exec (.ecDh id (.got b0) true) s) y j [] [j.key .derive 0x0400 .agreed ss] []) ∧
      (¬ (if c = 1 then ∃ z ∈ ss, z ≠ 0 else Config.pubValid 0x71 c b = true) → ∀ ok,
        exec (.ecDh id (.got b0) ok) s = .next (y.failJob id stPointInvalid 0))) ∧
    (JobRuns s id 0x73 j → ∀ pk sig range, pk = b.take (curvePk c) → sig = slice b (curvePk c) (curveSig c) →
      range = (if c = 2 then Config.inRange 0x73 c sig else ecdsaRange c sig) →
      ∀ x, x = fetched s j →
      exec (.ecVerify id (.got b0)) s = .next (if Config.pubValid 0x73 c pk = false then x.early j stPointInvalid
        else if range = false then x.early j stVerifyFail
        else if Config.verify 0x72 c pk (d.sigOpts ++ b.drop (curvePk c + curveSig c)) sig then x.endJob id {}
        else x.failJob id stVerifyFail 0))) ∧
  (∀ (s y : State) (id : JobId) (j : Job) (b b0 : List Byte) (ws : List W512) (d : Desc) (k el : Nat),
    d = j.desc → k = d.modBits / 8 → el = d.b 48 2 → b = fit d.inLen.toNat b0 →
    (JobRuns s id 0x74 j → hawkDrawn (fetched s j) j (if d.b 40 1 = 0 then 1 else 0) = some (ws, y) →
      exec (.rsaSign id (.got b0) true) s = .next (y.endJob id
        { out := fit k (Config.sign 0x74 d.modBits j.key0 (d.sigOpts ++ b) (if d.b 40 1 = 0 then ws.getD 0 0 else 0)) })) ∧
    (JobRuns s id 0x75 j → ∀ n sig x, x = fetched s j → n = ofBe (b.take k) → sig = slice b (k + el) k →
      exec (.rsaVerify id (.got b0)) s = .next (
        if rsaPubOk d.modBits n (ofBe (slice b k el)) = false ∨ n ≤ ofBe sig then x.early j stRange
        else if Config.verify 0x74 d.modBits (beBytes k (powMod (ofBe sig) n (slice b k el))) (d.sigOpts ++ b.drop (2 * k + el)) []
          then x.endJob id {} else x.failJob id stVerifyFail 0)) ∧
    (JobRuns s id 0x76 j → hawkDrawn (fetched s j) j 1 = some (ws, y) → ∀ n e em, n = ofBe (b.take k) → e = slice b k el →
      em = fit k ((0 : Byte) :: Config.bignum 0x76 d.modBits (d.sigOpts ++ b.drop (k + el)) [] (ws.getD 0 0)) →
      exec (.rsaEncrypt id (.got b0)) s = .next (if rsaPubOk d.modBits n (ofBe e) = false then y.early j stRange
        else y.endJob id { out := beBytes k (powMod (ofBe em) n e) })) ∧
    (JobRuns s id 0x77 j → hawkDrawn (fetched s j) j 0 = some (ws, y) → ∀ bits label ct opts msg, bits = d.modBits →
      label = b.take (d.b 42 2) → ct = b.drop (d.b 42 2) → opts = d.sigOpts ++ label → ofBe ct < rsaMod bits j.key0 →
      msg = (Config.bignum 0x77 bits j.key0 (opts ++ ct) 0).take (bits / 8 - 2 * hashLen (d.b 41 1) - 2) →
      (Config.inRange 0x77 bits (j.key0 ++ opts ++ ct) = true →
        (d.b 50 1 ≠ 1 → exec (.rsaDecrypt id (.got b0) true) s = .next (y.endJob id { out := msg })) ∧
        (d.b 50 1 = 1 → msg.length = d.b 51 1 →
          Delivers (exec (.rsaDecrypt id (.got b0) true) s) y j [] [j.key .derive 0x0400 .agreed msg] [])) ∧
      (Config.inRange 0x77 bits (j.key0 ++ opts ++ ct) = false →
        exec (.rsaDecrypt id (.got b0) true) s = .next (y.failJob id stAuthFail 0))) ∧
    (∀ m a x, x = fetched s j → m = ofBe (b.take k) → a = ofBe (slice b k k) →
      (JobRuns s id 0x78 j → exec (.bnModexp id (.got b0)) s = .next (if m % 2 = 0 ∨ m < 3 ∨ m ≤ a then x.early j stRange
        else x.endJob id { out := beBytes k (powMod a m (b.drop (2 * k))) })) ∧
      (JobRuns s id 0x79 j → ∀ c, c = ofBe (b.drop (2 * k)) →
        exec (.bnModmul id (.got b0)) s = .next (if m % 2 = 0 ∨ m < 3 ∨ m ≤ a ∨ m ≤ c then x.early j stRange
          else x.endJob id { out := beBytes k (a * c % m) }))))

/-- At the end of a microword whose slots write no register twice, what they staged takes effect, and the sequencer goes
on: to NEXT, into and out of a subroutine of at most 16 levels, by the nibble of a register, to the other space; a
safe point takes an abort first, then a preemption where nothing is held or in progress; HALT ends the job. A register
written twice is reported. Where a slot waits, the microword has not issued: what it staged is dropped and the address
stays. Rests on R210, R213-R217, R231, R282. -/
def Obligations.SequencerGoesOn : Prop :=
  ∀ (s y z : State) (n : Nat) (j : Job) (e : Lath) (next : BitVec 14), Issues s n j →
    y = committed s n false → e = y.lath n → z = committed s n true →
    ((s.lath n).stage.conflict = false → e.gap < 4096 →
      exec (.mSeq n next) s = .next (y.goto n (e.here next)) ∧
      (e.r.stack.length < 16 → exec (.mCall n next) s = .next ((y.updLath n (fun x =>
        { x with r := { x.r with stack := e.here (e.pc.addr + 1) :: x.r.stack } })).goto n (e.here next))) ∧
      (16 ≤ e.r.stack.length → exec (.mCall n next) s = .next (y.engCause n bRstack)) ∧
      (∀ a l, e.r.stack = a :: l → exec (.mReturn n) s =
        .next ((y.updLath n (fun x => { x with r := { x.r with stack := l } })).goto n a)) ∧
      (e.r.stack = [] → exec (.mReturn n) s = .next (y.engCause n bRstack)) ∧
      (∀ reg, exec (.mDispatch n reg next) s =
        .next (y.goto n (e.here ((next &&& 0x3FF0) ||| ((e.xr (BitVec.toNat reg)).setWidth 14 &&& 0xF))))) ∧
      exec (.mPjump n next) s = .next (y.goto n { patch := true, addr := next }) ∧
      exec (.mRjump n next) s = .next (y.goto n { patch := false, addr := next })) ∧
    ((s.lath n).stage.conflict = false → (z.lath n).gap < 4096 →
      (∀ st det, j.abort = some (st, det) → exec (.mSafe n next) s = .next (z.endJob j.id { status := st, detail := det })) ∧
      (j.abort = none → ∀ w, w = z.goto n ((z.lath n).here next) → exec (.mSafe n next) s = .next (
        if (z.lath n).preempt = true ∧ (z.lath n).claims = [] ∧ (z.lath n).lock = false ∧ (z.lath n).dma = [] ∧
            (z.lath n).spg = none ∧ (w.jobOn .lath n).isSome = true then w.suspend n j
        else w)) ∧
      exec (.mHalt n) s = .next (z.halt n j)) ∧
    ((s.lath n).stage.conflict = true →
      exec (.mSeq n next) s = .next ((s.updLath n (fun x => x.issue false)).engCause n bWriteConflict)) ∧
    (∀ x, n < 36 → x.jobOn .lath n = some j → j.st = .running → (x.lath n).stage.stall = true →
      exec (.mSeq n next) x = .next (x.updLath n (fun t => { t with stage := {} })))

/-- Each result of a scalar operation goes to X[RD], X0 ignoring it, with the flags that the rule gives: Z and N of a
result, C the carry of an addition and "no borrow" of a subtraction or a comparison; shifts take their amount modulo
64; SHI with kind 3 latches RESV_SOP; mfs reads and mts writes the special registers. Rests on R205, R211, R212. -/
def Obligations.ScalarOperationsStageResults : Prop :=
  ∀ (s : State) (n : Nat) (j : Job) (rd r1 r2 : BitVec 5) (imm : W16) (a b si zi : W64)
    (out : W64 → FlagSet → Host.Outcome State Fault Refusal), Issues s n j →
    a = (s.lath n).xr r1.toNat → b = (s.lath n).xr r2.toNat → si = imm.signExtend 64 → zi = imm.zeroExtend 64 →
    out = (fun v f => .next ((if rd = 0 then s else s.stage n (fun t => { t with x := t.x ++ [(rd.toNat, v)] })).stageF n f)) →
    exec (.mAdd n rd r1 r2) s = out (a + b)
      { z := some (a + b == 0), n := some ((a + b).getLsbD 63), c := some (decide (2 ^ 64 ≤ a.toNat + b.toNat)) } ∧
    exec (.mSub n rd r1 r2) s = out (a - b)
      { z := some (a - b == 0), n := some ((a - b).getLsbD 63), c := some (decide (b.toNat ≤ a.toNat)) } ∧
    exec (.mAnd n rd r1 r2) s = out (a &&& b) (flagsZN (a &&& b)) ∧ exec (.mOr n rd r1 r2) s = out (a ||| b) (flagsZN (a ||| b)) ∧
    exec (.mXor n rd r1 r2) s = out (a ^^^ b) (flagsZN (a ^^^ b)) ∧
    exec (.mSll n rd r1 r2) s = out (a <<< (b.toNat % 64)) (flagsZN (a <<< (b.toNat % 64))) ∧
    exec (.mSrl n rd r1 r2) s = out (a >>> (b.toNat % 64)) (flagsZN (a >>> (b.toNat % 64))) ∧
    exec (.mSra n rd r1 r2) s = out (a.sshiftRight (b.toNat % 64)) (flagsZN (a.sshiftRight (b.toNat % 64))) ∧
    exec (.mMul n rd r1 r2) s = out (a * b) (flagsZN (a * b)) ∧
    (∀ hi, hi = BitVec.ofNat 64 (a.toNat * b.toNat / 2 ^ 64) → exec (.mMulhu n rd r1 r2) s = out hi (flagsZN hi)) ∧
    exec (.mAddi n rd r1 imm) s = out (a + si)
      { z := some (a + si == 0), n := some ((a + si).getLsbD 63), c := some (decide (2 ^ 64 ≤ a.toNat + si.toNat)) } ∧
    exec (.mAndi n rd r1 imm) s = out (a &&& zi) (flagsZN (a &&& zi)) ∧
    exec (.mOri n rd r1 imm) s = out (a ||| zi) (flagsZN (a ||| zi)) ∧
    exec (.mXori n rd r1 imm) s = out (a ^^^ zi) (flagsZN (a ^^^ zi)) ∧
    (∀ k : BitVec 6, exec (.mShi n rd r1 0 k) s = out (a <<< k.toNat) (flagsZN (a <<< k.toNat)) ∧
      exec (.mShi n rd r1 1 k) s = out (a >>> k.toNat) (flagsZN (a >>> k.toNat)) ∧
      exec (.mShi n rd r1 2 k) s = out (a.sshiftRight k.toNat) (flagsZN (a.sshiftRight k.toNat)) ∧
      exec (.mShi n rd r1 3 k) s = .next (s.engCause n bResvSop)) ∧
    exec (.mLui n rd imm) s = out (si <<< 16) {} ∧ exec (.mSel n rd r1 r2) s = out (if (s.lath n).r.z then a else b) {} ∧
    exec (.mCmp n r1 r2) s = .next (s.stageF n
      { z := some (a - b == 0), n := some ((a - b).getLsbD 63), c := some (decide (b.toNat ≤ a.toNat)) }) ∧
    exec (.mCmpi n r1 imm) s = .next (s.stageF n
      { z := some (a - si == 0), n := some ((a - si).getLsbD 63), c := some (decide (si.toNat ≤ a.toNat)) }) ∧
    (∀ (num : Byte) v, (s.lath n).special n num.toNat = some v → exec (.mMfs n rd num) s = .next (s.stageX n rd.toNat v)) ∧
    exec (.mMts n r1 0) s = .next (s.stage n (fun t => { t with vl := t.vl ++ [min a.toNat 256] })) ∧
    exec (.mMts n r1 1) s = .next (s.stage n (fun t => { t with vsMts := some (min a.toNat 255) }))

/-- The integer operations stage V[VD]: every element from VSTART up to VL whose mask bit is set is the operation of
V[VS1] and the second operand, every other element stays as it was; shift amounts count modulo 32. With no element to
process nothing is staged. AND, OR, XOR and MV have a binary form, EW 3, that does the same; FN[0] selects the upper
half of vclmul and the field of vgfmul. With U 1 they work on the packed elements of S registers, at every element.
Rests on R247, R251, R254, R260. -/
def Obligations.VectorIntegerOperations : Prop :=
  (∀ (s : State) (n : Nat) (j : Job) (v : VSlot) (e : Lath) (a b : List W32), e = s.lath n →
    v.u = 0 → a = e.vr v.a → b = e.opB v → ∀ z, z = s.stage n (fun t => { t with vsElem := true }) →
    ∀ (does : Host.Outcome State Fault Refusal → (W32 → W32 → W32) → Prop),
      does = (fun o f => (e.r.vl ≤ e.r.vstart → o = .next (z.stage n (fun t => { t with vClaim := t.vClaim ++ [v.d] }))) ∧
        (e.r.vstart < e.r.vl → ∃ l, newElems e v.msk.toNat v.d (fun i => f (elt a i) (elt b i)) l ∧ o = .next (z.stageV n v.d l))) →
      (Ready s n j v.reads → v.ew = 2 → v.fnIn 16 = true →
        does (exec (.mVadd n v) s) (fun x y => x + y) ∧ does (exec (.mVsub n v) s) (fun x y => x - y) ∧
        does (exec (.mVsll n v) s) (fun x y => x <<< (y.toNat % 32)) ∧ does (exec (.mVsrl n v) s) (fun x y => x >>> (y.toNat % 32)) ∧
        does (exec (.mVsra n v) s) (fun x y => x.sshiftRight (y.toNat % 32)) ∧ does (exec (.mVmul n v) s) (fun x y => x * y) ∧
        does (exec (.mVmulhu n v) s) (fun x y => BitVec.ofNat 32 (x.toNat * y.toNat / 2 ^ 32)) ∧
        does (exec (.mVminu n v) s) (fun x y => if x.toNat ≤ y.toNat then x else y) ∧
        does (exec (.mVmaxu n v) s) (fun x y => if x.toNat ≤ y.toNat then y else x)) ∧
      (Ready s n j v.reads → (v.ew = 2 ∨ (v.ew = 3 ∧ v.msk = 0)) → v.fnIn 16 = true →
        does (exec (.mVand n v) s) (fun x y => x &&& y) ∧ does (exec (.mVor n v) s) (fun x y => x ||| y) ∧
        does (exec (.mVxor n v) s) (fun x y => x ^^^ y)) ∧
      (Ready s n j (if v.xs then [] else [v.b]) → (v.ew = 2 ∨ (v.ew = 3 ∧ v.msk = 0)) → v.fnIn 16 = true → v.vs1 = 0 →
        does (exec (.mVmv n v) s) (fun _ y => y)) ∧
      (Ready s n j v.reads → v.ew = 2 → v.fnIn 17 = true →
        does (exec (.mVclmul n v) s) (fun x y => (clmul x y).extractLsb' (if v.fn.getLsbD 0 then 32 else 0) 32) ∧
        does (exec (.mVgfmul n v) s) (fun x y => if v.fn.getLsbD 0 then gfMul 13 0x201B x y else gfMul 12 0x1009 x y))) ∧
  (∀ (s : State) (n : Nat) (j : Job) (v : VSlot) (e : Lath) (w : Nat) (a b : W64), Ready s n j [] → e = s.lath n →
    v.u = 1 → v.ew ≠ 3 → v.msk = 0 → v.fnIn 16 = true → w = 8 * 2 ^ v.ew.toNat → a = e.sr v.a →
    b = (if v.xs then packedFill w (e.xr v.b) else e.sr v.b) →
    ∀ (does : Host.Outcome State Fault Refusal → VOp → Prop),
      does = (fun o op => o = .next (s.stage n (fun t => { t with s := t.s ++ [(v.d, packedMap w op.eval a b)] }))) →
      does (exec (.mVadd n v) s) .add ∧ does (exec (.mVsub n v) s) .sub ∧ does (exec (.mVand n v) s) .and ∧
      does (exec (.mVor n v) s) .or ∧ does (exec (.mVxor n v) s) .xor ∧ does (exec (.mVsll n v) s) .sll ∧
      does (exec (.mVsrl n v) s) .srl ∧ does (exec (.mVsra n v) s) .sra ∧ does (exec (.mVmul n v) s) .mul ∧
      does (exec (.mVmulhu n v) s) .mulhu ∧ does (exec (.mVminu n v) s) .minu ∧ does (exec (.mVmaxu n v) s) .maxu ∧
      (v.vs1 = 0 → does (exec (.mVmv n v) s) .mv))

/-- Operands are reduced modulo the prime that FN selects, 3329 or 8380417, and so is each result; vredq reduces an
unsigned or a signed word, or to the centred range; vcprs and vdcprs are the compression and decompression of FIPS
203, for 1 to 11 bits. Elements outside VSTART, VL and the mask stay as they were. A transform layer and its inverse
work on whole registers, VL 256, VSTART 0, no mask, and combine the elements that stand 2^k apart; vtwid stages the
twiddle factors of a layer. Rests on R255, R256, R258. -/
def Obligations.VectorModularOperations : Prop :=
  (∀ (s : State) (n : Nat) (j : Job) (v : VSlot) (e : Lath) (a b : List W32) (q : Nat), e = s.lath n →
    v.u = 0 → v.ew = 2 → a = e.vr v.a → b = e.opB v → q = (if v.fn.getLsbD 3 then 8380417 else 3329) →
    ∀ z, z = s.stage n (fun t => { t with vsElem := true }) →
    ∀ (does : Host.Outcome State Fault Refusal → (Nat → W32) → Prop),
      does = (fun o g => (e.r.vl ≤ e.r.vstart → o = .next (z.stage n (fun t => { t with vClaim := t.vClaim ++ [v.d] }))) ∧
        (e.r.vstart < e.r.vl → ∃ l, newElems e v.msk.toNat v.d g l ∧ o = .next (z.stageV n v.d l))) →
      (Ready s n j v.reads → v.fnIn 24 = true →
        does (exec (.mVaddq n v) s) (fun i => w32 (((elt a i).toNat % q + (elt b i).toNat % q) % q)) ∧
        does (exec (.mVsubq n v) s) (fun i => w32 (((elt a i).toNat % q + q - (elt b i).toNat % q) % q)) ∧
        does (exec (.mVmulq n v) s) (fun i => w32 ((elt a i).toNat % q * ((elt b i).toNat % q) % q))) ∧
      (Ready s n j [v.a] → v.fnIn 11 = true → v.vs2 = 0 →
        (v.f % 4 = 0 → does (exec (.mVredq n v) s) (fun i => w32 ((elt a i).toNat % q))) ∧
        (v.f % 4 = 1 → does (exec (.mVredq n v) s) (fun i => w32 ((elt a i).toInt % (q : Int)).toNat)) ∧
        (v.f % 4 = 2 → does (exec (.mVredq n v) s) (fun i => if 2 * ((elt a i).toNat % q) ≤ q - 1 then w32 ((elt a i).toNat % q)
          else BitVec.ofInt 32 (((elt a i).toNat % q : Nat) - (q : Int))))) ∧
      (Ready s n j [v.a] → v.fnIn 15 = true → 1 ≤ v.f % 16 → v.f % 16 ≤ 11 → ∀ d, d = v.f % 16 →
        does (exec (.mVcprs n v) s) (fun i => w32 ((2 ^ (d + 1) * ((elt a i).toNat % 3329) + 3329) / (2 * 3329) % 2 ^ d)) ∧
        does (exec (.mVdcprs n v) s) (fun i => w32 ((2 * 3329 * ((elt a i).toNat % 2 ^ d) + 2 ^ d) / 2 ^ (d + 1))))) ∧
  (∀ (s y : State) (n : Nat) (j : Job) (v : VSlot) (e : Lath) (q k : Nat), e = s.lath n → v.u = 0 → v.ew = 2 → v.msk = 0 →
    e.r.vl = 256 → e.r.vstart = 0 → q = (if v.fn.getLsbD 3 then 8380417 else 3329) → k = v.f % 8 →
    y = s.stage n (fun t => { t with vsElem := true }) →
    (Ready s n j [v.a, v.b] → v.fnIn 15 = true → v.layerOk = true →
      exec (.mVntt n v) s = .next (y.stageV n v.d ((List.range 256).map (fun i => nttElt q k (e.vr v.a) (e.vr v.b) i))) ∧
      exec (.mVintt n v) s = .next (y.stageV n v.d ((List.range 256).map (fun i => inttElt q k (e.vr v.a) (e.vr v.b) i)))) ∧
    (Ready s n j [] → v.layerOk = true → v.vs1 = 0 → v.vs2 = 0 →
      exec (.mVtwid n v) s = .next (y.stageV n v.d
        ((List.range 256).map (fun t => if t < 128 then twiddle q k (v.fn.getLsbD 4) t else 0)))))

/-- Comparisons write mask registers, masks are combined and counted, elements are moved, permuted, slid, packed,
unpacked, compressed and reduced, and setvl sets VL. Binary mode treats the first VL words of a register as one number
of 32 VL bits: it is shifted, rotated, counted, or transposed in blocks of 32 words. Rests on R248, R252-R254, R259,
R260. -/
def Obligations.VectorMovesAndMasks : Prop :=
  (∀ (s : State) (n : Nat) (j : Job) (v : VSlot) (e : Lath) (a b d : List W32) (act : List Nat), e = s.lath n →
    a = e.vr v.a → b = e.vr v.b → d = e.vr v.d → act = e.active v.msk.toNat →
    ∀ (long : Prop), long = (v.u = 0 ∧ v.ew = 2) → ∀ y, y = s.stage n (fun t => { t with vsElem := true }) →
    ∀ (into : (Nat → W32) → State),
      into = (fun g => if e.r.vl ≤ e.r.vstart then y.stage n (fun t => { t with vClaim := t.vClaim ++ [v.d] })
        else y.stageV n v.d (overwrite d act g)) →
    (Ready s n j v.reads → long → v.fnIn 23 = true → v.f % 8 ≤ 5 → v.d < 8 → exec (.mVcmp n v) s =
      .next (if e.r.vl ≤ e.r.vstart then y.stage n (fun t => { t with mClaim := t.mClaim ++ [v.d] })
        else y.stage n (fun t => { t with m := t.m ++ [(v.d, maskOf (fun i => if act.contains i then
        vcond (v.f % 8) (elt a i) (elt (e.opB v) i) else (e.mr v.d).getLsbD i))] }))) ∧
    (Ready s n j [] → long → v.msk = 0 → v.fnIn 7 = true → v.d < 8 → v.a < 8 → v.b < 8 → exec (.mVmop n v) s =
      .next (s.stage n (fun t => { t with m := t.m ++ [(v.d, mop v.f (e.mr v.a) (e.mr v.b))] }))) ∧
    (Ready s n j [] → long → v.msk = 0 → v.fn = 0 → v.a < 8 → v.vs2 = 0 → exec (.mVpopc n v) s =
      .next (s.stageX n v.d (BitVec.ofNat 64 ((List.range e.r.vl).filter (fun i => (e.mr v.a).getLsbD i)).length))) ∧
    (Issues s n j → long → v.msk = 0 → v.fn = 0 → v.vs2 = 0 → ∀ k, k = min (e.xr v.a).toNat 256 → exec (.mSetvl n v) s =
      .next ((s.stage n (fun t => { t with vl := t.vl ++ [k] })).stageX n v.d (BitVec.ofNat 64 k))) ∧
    (Ready s n j [v.a] → long → v.msk = 0 → v.fn = 0 → exec (.mVmvxv n v) s =
      .next (s.stageX n v.d ((elt a ((e.xr v.b).toNat % 256)).setWidth 64))) ∧
    (Ready s n j [] → long → v.msk = 0 → v.fn = 0 → exec (.mVmvvx n v) s =
      .next (s.stageV n v.d (overwrite d [(e.xr v.b).toNat % 256] (fun _ => (e.xr v.a).setWidth 32)))) ∧
    (Ready s n j [] → v.u = 1 → v.ew = 3 → v.msk = 0 → v.fn = 0 →
      exec (.mSmvxs n v) s = .next (s.stageX n v.d (e.sr v.a)) ∧
      exec (.mSmvsx n v) s = .next (s.stage n (fun t => { t with s := t.s ++ [(v.d, e.xr v.a)] }))) ∧
    (Ready s n j [v.a] → long → v.fn = 0 → v.vd ≠ v.vs1 → ∀ k, k = (e.xr v.b).toNat →
      exec (.mVslidedn n v) s = .next (into (fun i => if i + k ≤ 255 then elt a (i + k) else 0)) ∧
      exec (.mVslideup n v) s = .next (into (fun i => if k ≤ i then elt a (i - k) else elt d i))) ∧
    (Ready s n j [v.a, v.b] → long → v.fn = 0 → v.vd ≠ v.vs1 → v.vd ≠ v.vs2 → exec (.mVperm n v) s =
      .next (into (fun i => elt a ((elt b i).toNat % 256)))) ∧
    (Ready s n j [v.a] → long → e.r.vstart = 0 → v.vs2 = 0 →
      (v.fnIn 7 = true → v.f ≤ 4 → exec (.mVred n v) s = .next (s.stageX n v.d (reduce v.f (act.map (fun i => elt a i))))) ∧
      (v.vd ≠ v.vs1 → v.msk ≠ 0 → v.fn = 0 → ∀ l, l = act.map (fun i => elt a i) → exec (.mVcompress n v) s =
        .next (s.stageV n v.d (overwrite d (List.range l.length) (fun i => elt l i)))) ∧
      (v.vd ≠ v.vs1 → v.msk = 0 → ∀ w, w = v.f + 1 → w * e.r.vl ≤ 8192 →
        exec (.mVunpk n v) s = .next (s.stageV n v.d (overwrite d (List.range e.r.vl)
          (fun i => w32 (vecNat a / 2 ^ (w * i) % 2 ^ w)))) ∧
        (∀ x, x = (List.range e.r.vl).foldl (fun acc i => acc + (elt a i).toNat % 2 ^ w * 2 ^ (w * i)) 0 →
          exec (.mVpack n v) s = .next (s.stageV n v.d (overwrite d (List.range ((w * e.r.vl + 31) / 32))
            (fun i => elt (natVec ((w * e.r.vl + 31) / 32) x) i))))))) ∧
  (∀ (s : State) (n : Nat) (j : Job) (v : VSlot) (e : Lath) (a d : List W32) (bits x k : Nat), e = s.lath n → a = e.vr v.a →
    d = e.vr v.d → bits = 32 * e.r.vl → x = vecNat (a.take e.r.vl) → k = (e.xr v.b).toNat →
    (Ready s n j [v.a] → v.u = 0 → v.ew = 3 → v.msk = 0 → v.fn = 0 →
      ∀ (does : Host.Outcome State Fault Refusal → Nat → Prop),
        does = (fun o r => o = .next (s.stageV n v.d (overwrite d (List.range e.r.vl) (fun i => elt (natVec e.r.vl r) i)))) →
        does (exec (.mVbsll n v) s) (if bits ≤ k then 0 else x * 2 ^ k % 2 ^ bits) ∧
        does (exec (.mVbsrl n v) s) (if bits ≤ k then 0 else x / 2 ^ k) ∧
        does (exec (.mVbrot n v) s) ((x * 2 ^ (k % bits) + x / 2 ^ (bits - k % bits)) % 2 ^ bits)) ∧
    (Ready s n j [v.a] → v.u = 0 → v.ew = 3 → v.msk = 0 → v.fn = 0 → v.vs2 = 0 →
      exec (.mVbpopc n v) s = .next (s.stageX n v.d (BitVec.ofNat 64
        ((a.take e.r.vl).foldl (fun acc w => acc + popc (w.setWidth 64)) 0))) ∧
      (v.vd ≠ v.vs1 → e.r.vl % 32 = 0 → exec (.mVbtrn n v) s = .next (s.stageV n v.d (overwrite d (List.range e.r.vl) (fun i =>
        (List.range 32).foldl (fun acc c => if (elt a (32 * (i / 32) + c)).getLsbD (i % 32) then setBit acc c else acc) 0))))))

/-- A fresh sharing of two or three shares holds the value that it was made for, whatever random words it is made of:
Boolean shares XOR to it, and arithmetic shares add up to it modulo the prime. Rests on R261, R264. -/
def Obligations.FreshSharingsHoldTheirValue : Prop :=
  ∀ (q g : Nat) (ws : List W32) (x : Nat → Nat) (i : Nat), (q = 0 ∨ q = 3329 ∨ q = 8380417) → (g = 2 ∨ g = 3) → i < 256 →
    (freshShare q g ws x).length = g ∧
    valueAt q ((freshShare q g ws x).map (fun f => (List.range 256).map f)) i = (if q = 0 then x i % 2 ^ 32 else x i % q)

/-- The share-mode operations that draw no fresh words for their result work share by share; a public operand of an
addition, a subtraction or an exclusive OR enters share 0 only. The others give a fresh sharing of their result: the
AND of two values, the same value refreshed or in the other kind of sharing, a compressed value, all ones where every
element is zero, or the value of a single register. The shuffle state is drawn first where it is due. Rests on
R261-R266. -/
def Obligations.ShareModeOperations : Prop :=
  (∀ (s x : State) (n : Nat) (j : Job) (v : VSlot) (e : Lath) (q : Nat) (ws : List W32), e = s.lath n → q = v.q →
    ShareDraws s n e 0 ws x → ∀ y, y = x.stage n (fun t => { t with vsElem := true }) →
    ∀ (does : Host.Outcome State Fault Refusal → (Nat → W32 → W32 → W32) → Prop),
      does = (fun o f => o = .next (y.stageG n e v.d ((List.range v.g).map (fun k => fun i =>
        f k (elt (e.vr (v.a + k)) i) (if v.pub then elt (e.pubOp v) i else elt (e.vr (v.b + k)) i))))) →
    (ShareReady s n j v 30 (some v.d) v.srcGroups v.srcPlain → v.pubOk = true →
      does (exec (.mVaddqS n v) s) (fun k a b => if v.pub ∧ k ≠ 0 then w32 (a.toNat % q) else w32 ((a.toNat + b.toNat) % q)) ∧
      does (exec (.mVsubqS n v) s) (fun k a b => if v.pub ∧ k ≠ 0 then w32 (a.toNat % q)
        else w32 ((a.toNat % q + q - b.toNat % q) % q)) ∧
      (v.pub = true → does (exec (.mVmulqS n v) s) (fun _ a b => w32 (a.toNat % q * (b.toNat % q) % q)))) ∧
    (ShareReady s n j v 22 (some v.d) v.srcGroups v.srcPlain → v.pubOk = true →
      does (exec (.mVxorS n v) s) (fun k a b => if v.pub ∧ k ≠ 0 then a else a ^^^ b) ∧
      (v.pub = true → does (exec (.mVandS n v) s) (fun _ a b => a &&& b))) ∧
    (∀ (each : Host.Outcome State Fault Refusal → (List W32 → Nat → W32) → Prop),
      each = (fun o f => o = .next (y.stageG n e v.d ((List.range v.g).map (fun k => f (e.vr (v.a + k)))))) →
      (ShareReady s n j v 31 (some v.d) [v.a] [v.b] → v.layerOk = true → e.r.vl = 256 → e.r.vstart = 0 →
        each (exec (.mVnttS n v) s) (fun l i => elt (layer false q (v.f % 8) l (e.vr v.b)) i) ∧
        each (exec (.mVinttS n v) s) (fun l i => elt (layer true q (v.f % 8) l (e.vr v.b)) i)) ∧
      (ShareReady s n j v 16 (some v.d) [v.a] [v.b] → e.r.vl = 256 → e.r.vstart = 0 →
        each (exec (.mVbmulS n v) s) (fun l i => elt (baseMul l (e.vr v.b)) i)) ∧
      (ShareReady s n j v 17 (some v.d) [v.a] [] → ∀ k, k = (e.xr v.b).toNat →
        each (exec (.mVshS n v) s) (fun l i => if 32 ≤ k then 0 else if v.fn.getLsbD 0 then elt l i >>> k else elt l i <<< k))) ∧
    (ShareReady s n j v 25 none [v.a] [] → exec (.mVrecomb n v) s =
      .next (y.stageG n e v.d [fun i => w32 (valueAt v.kindQ (e.shares v.g v.a) i)]))) ∧
  (∀ (s x y : State) (n : Nat) (j : Job) (v : VSlot) (e : Lath) (ws : List W32) (two : Bool) (val : Nat → Nat → Nat), e = s.lath n →
    two = decide (v.g = 2) → val = (fun q i => valueAt q (e.shares v.g v.a) i) → y = x.stage n (fun t => { t with vsElem := true }) →
    ∀ (draws : Nat → Prop), draws = (fun w => ShareDraws s n e w ws x) →
    ∀ (gives : Host.Outcome State Fault Refusal → Nat → (Nat → Nat) → Prop),
      gives = (fun o q f => o = .next (y.stageG n e v.d (freshShare q v.g ws f))) →
    (ShareReady s n j v 22 (some v.d) [v.a, v.b] [] → v.pub = false → v.pubX = false → draws (if two then 1 else 3) →
      gives (exec (.mVandS n v) s) 0 (fun i => (w32 (val 0 i) &&& w32 (valueAt 0 (e.shares v.g v.b) i)).toNat)) ∧
    (ShareReady s n j v 25 (some v.d) [v.a] [] → v.vs2 = 0 → draws (if two then 1 else 3) →
      gives (exec (.mVrefS n v) s) v.kindQ (val v.kindQ)) ∧
    (ShareReady s n j v 24 (some v.d) [v.a] [] →
      (draws (if two then 12 else 36) → gives (exec (.mVa2bS n v) s) 0 (val v.q)) ∧
      (draws (if two then 2 else 6) → gives (exec (.mVb2aS n v) s) v.q (fun i => val 0 i % 2 ^ 24))) ∧
    (ShareReady s n j v 31 (some v.d) [v.a] [] → 1 ≤ v.f % 16 → v.f % 16 ≤ 11 → draws (if two then 14 else 42) →
      gives (exec (.mVcprsS n v) s) 0 (fun i => compress (v.f % 16) (val 3329 i))) ∧
    (ShareReady s n j v 16 (some v.d) [v.a] [] → draws (if two then 2 else 6) →
      gives (exec (.mVmeqzS n v) s) 0 (fun _ => if (List.range e.r.vl).all (fun i => val 0 i == 0) then 2 ^ 32 - 1 else 0)) ∧
    (ShareReady s n j v 25 (some v.d) [] [v.a] → draws (if two then 1 else 2) →
      gives (exec (.mVsplit n v) s) v.kindQ (fun i => valueAt v.kindQ [e.vr v.a] i)))

/-- The loads and stores of V registers whose accesses all pass their checks: a load stages the word at each active
element's address, a store writes it; the forms differ in the addresses: consecutive, strided, indexed, and segments
of up to four fields. The 64-bit loads and stores of an S or an X register, at X[XA] + 8 OFF, least significant byte
first; an access of these that fails a check records its fault instead. Rests on R206, R269-R276. -/
def Obligations.LathMemoryAccesses : Prop :=
  (∀ (s : State) (n : Nat) (j : Job) (m : MemV) (e : Lath) (base : Nat) (act : List Nat), e = s.lath n →
    base = (e.xr m.xa.toNat).toNat → act = e.active m.msk.toNat →
    ∀ (loads stores : Host.Outcome State Fault Refusal → Nat → (Nat → List Nat) → Prop),
      loads = (fun o f ad => e.walk false m.ecc ad act = (act, none) → ∀ bs, bs = beatRequests ad 16 act →
        (s.lockedOut (n / 4) (n % 4) (bs.map (fun b => 8 + b / 8192)) = true → o = .next (s.waitSlot n j)) ∧
        (s.lockedOut (n / 4) (n % 4) (bs.map (fun b => 8 + b / 8192)) = false → ∀ y, y = s.beatTenures (n / 4) (n % 4) bs →
          o = .next ((if act = [] then y.stage n (fun t => { t with vClaim := t.vClaim ++ (List.range f).map (fun k => m.vr.toNat + k) })
            else (List.range f).foldl (fun x k => x.stageV n (m.vr.toNat + k) (overwrite (e.vr (m.vr.toNat + k)) act
              (fun i => BitVec.ofNat 32 (ofLe (y.localRead n ((ad i).getD k 0) 4))))) y).stage n (fun t => { t with vsElem := true })))) →
      stores = (fun o f ad => e.walk true m.ecc ad act = (act, none) → ∀ bs, bs = beatRequests ad 16 act →
        (s.lockedOut (n / 4) (n % 4) (bs.map (fun b => 8 + b / 8192)) = true → o = .next (s.waitSlot n j)) ∧
        (s.lockedOut (n / 4) (n % 4) (bs.map (fun b => 8 + b / 8192)) = false →
          o = .next ((act.foldl (fun x i => (List.range f).foldl (fun y k => localWrite n ((ad i).getD k 0)
            (leBytes 4 (elt (((List.range f).map (fun k => e.vr (m.vr.toNat + k))).getD k []) i).toNat) y) x)
              (s.beatTenures (n / 4) (n % 4) bs)).stage n (fun t => { t with vsElem := true })))) →
    (Ready s n j [] → m.nf = 0 →
      (m.xb = 0 → loads (exec (.mVle n m) s) 1 (fun i => [(base + 4 * i) % 2 ^ 64])) ∧
      loads (exec (.mVlse n m) s) 1 (fun i => [(base + i * (e.xr m.xb.toNat).toNat) % 2 ^ 64])) ∧
    (Ready s n j [m.vr.toNat] → m.nf = 0 →
      (m.xb = 0 → stores (exec (.mVse n m) s) 1 (fun i => [(base + 4 * i) % 2 ^ 64])) ∧
      stores (exec (.mVsse n m) s) 1 (fun i => [(base + i * (e.xr m.xb.toNat).toNat) % 2 ^ 64])) ∧
    (Ready s n j [m.xb.toNat] → m.nf = 0 → m.vr ≠ m.xb →
      loads (exec (.mVlux n m) s) 1 (fun i => [(base + (elt (e.vr m.xb.toNat) i).toNat) % 2 ^ 64])) ∧
    (Ready s n j [m.vr.toNat, m.xb.toNat] → m.nf = 0 →
      stores (exec (.mVsux n m) s) 1 (fun i => [(base + (elt (e.vr m.xb.toNat) i).toNat) % 2 ^ 64])) ∧
    (∀ f, f = m.nf.toNat + 1 → m.nf ≠ 0 → m.xb = 0 → m.vr.toNat + m.nf.toNat ≤ 31 →
      (Ready s n j [] → loads (exec (.mVlseg n m) s) f (fun i => (List.range f).map (fun k => (base + 4 * f * i + 4 * k) % 2 ^ 64))) ∧
      (Ready s n j (groupOf f m.vr.toNat) →
        stores (exec (.mVsseg n m) s) f (fun i => (List.range f).map (fun k => (base + 4 * f * i + 4 * k) % 2 ^ 64))))) ∧
  (∀ (s y : State) (n : Nat) (j : Job) (m : MemX) (e : Lath) (a : Nat) (ecc : Option Nat), e = s.lath n →
    a = ((e.xr m.xa.toNat).toNat + 8 * m.off.toNat) % 2 ^ 64 → ecc = (if m.ecc then some 0 else none) →
    y = s.beatTenures (n / 4) (n % 4) (beatsOf [a]) →
    Ready s n j [] → e.r.vstart = 0 →
    (∀ locked, locked = s.lockedOut (n / 4) (n % 4) ((beatsOf [a]).map (fun b => 8 + b / 8192)) →
      (∀ v : W64, v = BitVec.ofNat 64 (ofLe (s.localRead n a 8)) → e.firstBad false ecc 8 [a] = none →
        exec (.mSld n m) s = .next (if locked then s.waitSlot n j else y.stage n (fun t => { t with s := t.s ++ [(m.rg.toNat, v)] })) ∧
        exec (.mXld n m) s = .next (if locked then s.waitSlot n j else y.stageX n m.rg.toNat v)) ∧
      (e.firstBad true ecc 8 [a] = none →
        exec (.mSst n m) s = .next (if locked then s.waitSlot n j else localWrite n a (leBytes 8 (e.sr m.rg.toNat).toNat) y) ∧
        exec (.mXst n m) s = .next (if locked then s.waitSlot n j else localWrite n a (leBytes 8 (e.xr m.rg.toNat).toNat) y))) ∧
    (∀ c b, e.firstBad false ecc 8 [a] = some (c, b) →
      exec (.mXld n m) s = .next ((if m.rg = 0 then s else s.stage n (fun t => { t with xClaim := t.xClaim ++ [m.rg.toNat] })).memFault n c 0 b) ∧
      exec (.mSld n m) s = .next ((s.stage n (fun t => { t with sClaim := t.sClaim ++ [m.rg.toNat] })).memFault n c 0 b)) ∧
    (∀ c b, e.firstBad true ecc 8 [a] = some (c, b) →
      exec (.mXst n m) s = .next (s.memFault n c 0 b) ∧ exec (.mSst n m) s = .next (s.memFault n c 0 b)))

/-- A store of an S or X register writes its eight bytes at the address X[XA] + 8 OFF, least significant first, and none
outside them: every other byte of the engine's local memory reads as before. A 64-bit load changes no byte. What the
eight bytes read as after the store is stated for a store into scratch. Rests on R206, R269. -/
def Obligations.StoresChangeOnlyTheirBytes : Prop :=
  ∀ (s t : State) (n : Nat) (j : Job) (m : MemX) (e : Lath) (a : Nat), e = s.lath n →
    a = ((e.xr m.xa.toNat).toNat + 8 * m.off.toNat) % 2 ^ 64 → Ready s n j [] → e.r.vstart = 0 →
    s.lockedOut (n / 4) (n % 4) ((beatsOf [a]).map (fun b => 8 + b / 8192)) = false →
    (m.ecc = false → e.firstBad true none 8 [a] = none → ∀ v : W64,
      (exec (.mXst n m) s = .next t ∧ v = e.xr m.rg.toNat) ∨ (exec (.mSst n m) s = .next t ∧ v = e.sr m.rg.toNat) →
        (∀ b, (b < a ∨ a + 8 ≤ b) → t.localByte n b = s.localByte n b) ∧
        (a + 8 ≤ 262144 → ∀ i < 8, t.localByte n (a + i) = BitVec.ofNat 8 (v.toNat / 2 ^ (8 * i)))) ∧
    (m.ecc = false → e.firstBad false none 8 [a] = none → (exec (.mXld n m) s = .next t ∨ exec (.mSld n m) s = .next t) →
      ∀ b, t.localByte n b = s.localByte n b)

/-- A claim opens where no claim of its rank or above is open, and closes with the core state that it held; locks are
taken and released; mask words, key shares, staged results, and the transfers of the job's input and output within
their lengths. Rests on R220-R223, R237, R240, R243. -/
def Obligations.PortOperations : Prop :=
  ∀ (s : State) (n : Nat) (j : Job) (e : Lath) (p : PSlot) (k : Nat), Issues s n j → e = s.lath n → k = p.res.toNat →
    (p.arg = 0 → p.vreg = 0 → 1 ≤ k → k ≤ 15 → k ≠ 7 →
      ((∀ c ∈ e.claims, c < k) → exec (.mAcq n p) s = .next (s.updLath n (fun x => { x with claims := x.claims ++ [k] }))) ∧
      ((∃ c ∈ e.claims, k ≤ c) → exec (.mAcq n p) s = .next (s.engCause n bRank)) ∧
      exec (.mRel n p) s = .next ((s.updLath n (fun x => { x with claims := x.claims.filter (fun c => c ≠ k) })).updQuad (n / 4)
        (fun q => { q with cores := Tbl.erase q.cores (4 * k + n % 4) }))) ∧
    (e.lock = false → exec (.mLock n {}) s = .next (s.updLath n (fun x => { x with lock := true }))) ∧
    exec (.mUnlock n {}) s = .next (s.updLath n (fun x => { x with lock := false })) ∧
    (p.res = 0 → p.arg = 0 → MayDraw s n e ((e.r.vl + 15) / 16) → ∀ l x, maskWords s n ((e.r.vl + 15) / 16) = (l, x) →
      exec (.mMget n p) s = .next (x.stageV n p.vreg.toNat
        (overwrite (e.vr p.vreg.toNat) (List.range e.r.vl) (fun i => elt (words32 l) i)))) ∧
    (∀ g, g = shareCount e.jobLevel → p.res = 0 → p.arg.toNat < 4 → p.vreg.toNat + g ≤ 32 →
      (∀ key w sh ws x, s.bloadKey j p.arg.toNat = some key → w = min 256 ((key.length + 3) / 4) →
        s.drawWords genDevice (g * 16) = (ws, x) → sh = freshShare 0 g (words32 ws) (fun i => fieldLe key (4 * i) 4) →
        exec (.mBload n p) s = .next ((sh.zipIdx.foldl (fun y q => y.stageV n (p.vreg.toNat + q.2)
          (overwrite (e.vr (p.vreg.toNat + q.2)) (List.range w) q.1)) x).stage n (fun t => { t with vl := t.vl ++ [w] }))) ∧
      (e.vBusy (groupOf g p.vreg.toNat) = false → exec (.mBstor n p) s =
        .next (s.updLath n (fun x => { x with bstage := x.bstage.filter (fun b => b.arg ≠ p.arg.toNat) ++
          [({ arg := p.arg.toNat, shares := (groupOf g p.vreg.toNat).map (fun r => (e.vr r).take e.r.vl) } : BStage)] })))) ∧
    (∀ (xa xb : BitVec 5) a off len, a = (e.xr xa.toNat).toNat → off = (e.xr xb.toNat).toNat → len = (e.xr (xb.toNat + 1)).toNat →
      xb ≠ 31 → rangeMapped a len = true →
      (off + len ≤ j.desc.inLen.toNat → e.rangeOpen true a len = true → exec (.mDin n xa xb) s =
        .next (s.updLath n (fun x => { x with dma := x.dma ++ [{ inn := true, addr := a, off := off, len := len }] }))) ∧
      (off + len ≤ j.desc.outLen.toNat → e.rangeOpen false a len = true → exec (.mDout n xa xb) s =
        .next (s.updLath n (fun x => { x with dma := x.dma ++ [{ inn := false, addr := a, off := off, len := len }] }))) ∧
      (j.desc.inLen.toNat < off + len → exec (.mDin n xa xb) s = .next (s.engCause n bPortOp)))

/-- An engine's operations on a Quad Sponge core that it claims, and on its job's data. One operation runs at a time: sabs
takes the words of a register, ssqz fills one when it ends, and the others wait; a masked block draws two mask words;
finished transfers move bytes between the job's input, memory and output, and a failed read is left for the next safe
point. Rests on R218, R219, R221, R302, R322. -/
def Obligations.SpongePortOperations : Prop :=
  ∀ (s : State) (n : Nat) (j : Job) (e : Lath) (p : PSlot) (k r : Nat), Issues s n j → e = s.lath n → k = p.res.toNat → r = p.vreg.toNat →
    (e.spg = none → e.claimsCore k = true →
      (p.vreg = 0 → p.arg.toNat < (if k ≤ 2 then 4 else 3) →
        exec (.mSinit n p) s = .next (s.setCoreState n k { mode := p.arg.toNat })) ∧
      (p.arg.toNat < 2 → ∀ bs w, bs = ((e.vr r).take e.r.vl).flatMap (fun w => leBytes 4 w.toNat) →
        w = (s.coreState n k).blocks k (4 * min 256 e.r.vl) false (p.arg.getLsbD 0) → exec (.mSabs n p) s =
        .next (s.updLath n (fun x => { x with spg := some { core := k, vreg := r, last := p.arg.getLsbD 0, need := w, bytes := bs } }))) ∧
      (p.arg = 0 → (3 ≤ k → 4 * e.r.vl ≤ sha2Bytes (s.coreState n k).mode) → exec (.mSsqz n p) s =
        .next ((s.stage n (fun t => { t with vClaim := t.vClaim ++ [r] })).updLath n (fun x =>
          { x with spg := some { core := k, squeeze := true, vreg := r, len := e.r.vl, need := (s.coreState n k).blocks k (4 * e.r.vl) true false } })))) ∧
    (e.spg.isSome = true → exec (.mSinit n p) s = .next (s.waitSlot n j) ∧ exec (.mSabs n p) s = .next (s.waitSlot n j) ∧
      exec (.mSsqz n p) s = .next (s.waitSlot n j)) ∧
    (∀ o c z y w, e.spg = some o → w = (if e.jobLevel = 0 ∨ (3 ≤ o.core ∧ e.jobOpcode.toNat < 0x40) then 0 else 2 * o.need) →
      (w ≠ 0 → s.rngWaits (maskGenOf n) = false ∧ s.rngErr (maskGenOf n) = none) →
      s.lockedOut (n / 4) (n % 4) (if w = 0 then [o.core] else [o.core, 7]) = false →
      z = (((s.drawMany (maskGenOf n) w).updGen (maskGenOf n) (fun g => g.unbuffer w)).tenures (n / 4) (n % 4) 7 w).tenures
        (n / 4) (n % 4) o.core (if e.jobLevel ≠ 0 ∧ o.core ≤ 2 ∧ 0x40 ≤ e.jobOpcode.toNat then 2 * o.need else o.need) →
      c = z.coreState n o.core → y = z.updLath n (fun x => { x with spg := none }) →
      ∀ (put : QClaim → State), put = (fun d => if (z.lath n).claimsCore o.core then y.setCoreState n o.core d else y) →
      (o.squeeze = false → exec (.spongeOpDone n) s =
        .next (put { c with absorbed := c.absorbed ++ o.bytes, padded := c.padded || o.last })) ∧
      (o.squeeze = true → ∀ out, out = Config.quadSponge o.core c.mode c.absorbed c.padded c.squeezed (4 * o.len) →
        ∀ l, l = (fun (x : Lath) => overwrite (x.vr o.vreg) (List.range o.len) (fun i => BitVec.ofNat 32 (fieldLe out (4 * i) 4))) →
        exec (.spongeOpDone n) s = .next ((put { c with squeezed := c.squeezed + 4 * o.len }).updLath n (fun x =>
          { x with r := { x.r with v := putVec x.r.v o.vreg (l x) } })))) ∧
    (e.dma ≠ [] → (s.fn j.fn).bme = true → ∀ y, y = s.updLath n (fun x => { x with dma := [] }) →
      (∀ b, exec (.dmaDone n (.got b)) s = .next (e.dma.foldl (fun x d => x.dmaOne n j b d) y)) ∧
      (∀ er, exec (.dmaDone n (.fail er)) s = .next ((y.dmaFailed er).updJob j.id (fun x =>
        { x with abort := some (x.abort.getD (stDmaError, BitVec.ofNat 32 er.code)) }))))

/-- A wipe ends and its grant returns; a drain asks for preemption where the save area is free; a suspended job resumes on
a free engine of its Quad; an overlong lock is ended, and the gap without a safe point is reported. An arbitration
round: a locked resource goes to its holder alone; otherwise a requester that has waited for as many rounds as its
limit wins before the others, and then the highest priority, in round-robin order from the last winner. The winner's
waiting ends and is counted as a grant; each loser waits one round more. Rests on R232, R233, R235, R236, R238-R242,
R403. -/
def Obligations.EngineEventsTakeEffect : Prop :=
  (∀ (s : State) (n : Nat),
    (n < 9 → (s.hawk n).st = 5 → ∀ y, y = ((s.releaseGrant .hawk n).returnWipe (EKind.hawk.holder n)).showUnit (72 + n) (s.unit (72 + n)).st →
      exec (.engineWipeDone true n) s = .next (y.checkEnables).assign) ∧
    (n < 36 → (s.lath n).st = .wiping → ∀ y,
      y = (((s.wipeLath n).releaseGrant .lath n).returnWipe (EKind.lath.holder n)).showUnit (36 + n) (s.unit (36 + n)).st →
      exec (.engineWipeDone false n) s = .next (loadLoop 38 y.checkEnables).assign) ∧
    (n < 36 → (s.unit (36 + n)).st = .draining → (s.jobOn .lath n).isSome = true → (s.quad (n / 4)).save = none →
      exec (.preemptRequest n) s = .next (s.updLath n (fun e => { e with preempt := true }))) ∧
    (∀ j r sv, n < 36 → s.nextJob .lath n = some (j, r) → (s.quad (n / 4)).save = some sv → j.st = .suspended → j.id = sv.job →
      s.held = false → ∀ y,
      y = ((s.tenures (n / 4) 5 15 (533 + (sv.dirty.filter (fun c => c.2)).length)).updQuad (n / 4) (fun q => { q with save := none })).updLath n (fun e => { e with
        r := sv.regs, pc := sv.pc, vfault := sv.vfault, scratch := sv.scratch, dirty := sv.dirty, qdirty := sv.qdirty,
        qwin0 := sv.qwin0, qwin1 := sv.qwin1, bstage := sv.bstage, jobLevel := sv.jobLevel, jobOpcode := sv.jobOpcode,
        resumed := true, gap := 0, stage := {}, spg := none, dma := [] }) →
      exec (.jobResume n) s = .next ((y.takeNext .lath n j r).updLath n (fun e => { e with tStart := sv.tStart }))) ∧
    (n < 36 → (s.jobOn .lath n).isSome = true → exec (.safeMiss n) s =
      .next ((s.updLath n (fun e => { e with gap := 4096, maxGap := max e.maxGap 4096 })).engCause n bSafeMiss)) ∧
    (∀ q r, q < 9 → ∀ free, free = (fun (x : State) => x.updQuad q (fun y => { y with
        res := Tbl.map {} (fun _ (a : ArbRes) => if a.locked = some r then { a with locked := none } else a) y.res })) →
      (r < 4 → (s.lath (4 * q + r)).lock = true → (s.jobOn .lath (4 * q + r)).isSome = true → exec (.lockOver q r) s =
        .next ((free (s.updLath (4 * q + r) (fun e => { e with lock := false }))).engCause (4 * q + r) bLockOver)) ∧
      (4 ≤ r → r < 6 → exec (.lockOver q r) s = .next ((free s).report 353 q)))) ∧
  (∀ (s : State) (q k cyc : Nat) (ready rs : List Nat) (qd : Quad) (a a1 : ArbRes), q < 9 → 1 ≤ k → k ≤ 15 → qd = s.quad q →
    a = { (Tbl.get {} qd.res k : ArbRes) with locked := s.arbLock q k (Tbl.get {} qd.res k) } →
    rs = (List.range 6).filter (fun r => ready.contains r) → ∀ w losers, w = s.arbWinner q a rs →
    losers = rs.filter (fun r => some r != w) → a1 = losers.foldl (fun x r => lostRound (qd.wlim.getD r 64) cyc x r) a →
    ∀ st, st = losers.foldl (fun t r => Tbl.upd {} t r (fun (x : ArbStat) =>
      { x with waits := satInc x.waits, longest := satAdd32 x.longest (Tbl.get 0 a1.waitCyc r) })) qd.stats →
    (∀ r, w = some r → exec (.arbRound q k ready cyc) s = .next (s.updQuad q (fun x => { x with
      res := Tbl.set {} x.res k { a1 with cur := some r, last := r, waits := Tbl.set 0 a1.waits r 0, waitCyc := Tbl.set 0 a1.waitCyc r 0,
                                          won := if r < 4 then Tbl.upd 0 a1.won r (fun i => i + 1) else a1.won }
      stats := Tbl.upd {} st r (fun (z : ArbStat) => { z with grants := satInc z.grants }) }))) ∧
    (w = none → exec (.arbRound q k ready cyc) s = .next (s.updQuad q (fun x => { x with
      res := Tbl.set {} x.res k { a1 with cur := none }, stats := st }))))

/-- With VIN present and the device outside DUSTSHEET, each read command answers on the pages that it has: constants, the
status bytes of the page, and the means of the last millisecond as Linear11 or Linear16 words. In DUSTSHEET
STATUS_WORD, READ_VIN and READ_TEMPERATURE_1 still answer. The layout of the status bits is that of log entry 39: the
model's choice, not the spec's. Rests on R551, R552, R572, log entry 39 (DESIGN CHOICE). -/
def Obligations.PmbusReadsAnswer : Prop :=
  ∀ (s : State) (p : Nat) (r : Rail), s.pwr.vin = true → p = s.pwr.page.toNat → r = s.rail p →
    (s.pwr.st ≠ .dustsheet →
      exec (.pmbusPage .read) s = .next (s.emit (.smbus [s.pwr.page])) ∧
      (p ≤ 7 ∨ p = 255 →
        exec (.operation .read) s = .next (s.emit (.smbus [0x80])) ∧
        exec (.capability .read) s = .next (s.emit (.smbus [0xD0])) ∧
        exec (.voutMode .read) s = .next (s.emit (.smbus [0x14])) ∧
        exec (.pmbusRevision .read) s = .next (s.emit (.smbus [0x44])) ∧
        exec (.mfrId .read) s = .next (s.emit (.smbus (6 :: ascii "OROZAR"))) ∧
        exec (.mfrModel .read) s = .next (s.emit (.smbus (12 :: ascii "FQ6400-B2209")))) ∧
      (p ≤ 7 →
        exec (.statusByte .read) s = .next (s.emit (.smbus [s.pmStatus.setWidth 8])) ∧
        exec (.statusVout .read) s = .next (s.emit (.smbus [r.stVout])) ∧
        exec (.statusIout .read) s = .next (s.emit (.smbus [r.stIout])) ∧
        exec (.statusTemperature .read) s = .next (s.emit (.smbus [r.stTemp])) ∧
        exec (.statusInput .read) s = .next (s.emit (.smbus [if p = 7 then s.pwr.stInput else 0])) ∧
        exec (.statusMfrSpecific .read) s = .next (s.emit (.smbus [s.pmMfr])) ∧
        exec (.readIin .read) s = .next (s.emit (.smbus (lin s.pwr.vinMa)))) ∧
      (p ≤ 6 →
        exec (.readVout .read) s = .next (s.emit (.smbus (leBytes 2 (r.mv * 4096 / 1000)))) ∧
        exec (.readIout .read) s = .next (s.emit (.smbus (lin r.ma))) ∧
        exec (.readPout .read) s = .next (s.emit (.smbus (lin (r.mv * r.ma / 1000 : Nat)))) ∧
        (∀ w, r.ocWarn = some w → exec (.ioutOcWarnLimit .read) s = .next (s.emit (.smbus (leBytes 2 w.toNat)))) ∧
        (∀ w, r.otWarn = some w → exec (.otWarnLimit .read) s = .next (s.emit (.smbus (leBytes 2 w.toNat))))) ∧
      (p = 7 →
        exec (.readPin .read) s = .next (s.emit (.smbus (lin (s.pwr.vinMv * s.pwr.vinMa / 1000 : Nat)))) ∧
        (∀ w, s.pwr.vinOvWarn = some w → exec (.vinOvWarnLimit .read) s = .next (s.emit (.smbus (leBytes 2 w.toNat)))) ∧
        (∀ w, s.pwr.vinUvWarn = some w → exec (.vinUvWarnLimit .read) s = .next (s.emit (.smbus (leBytes 2 w.toNat)))))) ∧
    (p ≤ 7 →
      exec (.statusWord .read) s = .next (s.emit (.smbus (leBytes 2 s.pmStatus.toNat))) ∧
      exec (.readVin .read) s = .next (s.emit (.smbus (lin s.pwr.vinMv))) ∧
      exec (.readTemperature1 .read) s = .next (s.emit (.smbus (lin (100 * r.dc)))))

/-- PAGE is written; the warning limits are written within their ranges and compared at once, and a word outside the range
is not taken; CLEAR_FAULTS clears what has ended, of one page or of all. A write of a read-only command, and every
command without VIN, is not acknowledged; a wrong packet error code is refused. New means are stored and compared with
the limits; the Alert Response answers with the device's address while ALERT_N is asserted. Rests on R141, R551, R552,
R572, log entry 39 (DESIGN CHOICE). -/
def Obligations.PmbusWritesTakeEffect : Prop :=
  ∀ (s : State) (p : Nat), p = s.pwr.page.toNat →
    (s.pwr.vin = true → s.pwr.st ≠ .dustsheet →
      (∀ d : W16, (d.setWidth 8).toNat ≤ 7 ∨ d.setWidth 8 = (0xFF : Byte) →
        exec (.pmbusPage (.write d)) s = .next { s with pwr := { s.pwr with page := d.setWidth 8 } }) ∧
      (∀ d : W16, 8 ≤ (d.setWidth 8).toNat → d.setWidth 8 ≠ (0xFF : Byte) → exec (.pmbusPage (.write d)) s = .next s.pmBad) ∧
      (∀ w : W16, p ≤ 6 →
        (0 ≤ lin11 w → lin11 w ≤ railMax p → exec (.ioutOcWarnLimit (.write w)) s =
          .next ((s.updRail p (fun r => { r with ocWarn := some w })).checkLimits p)) ∧
        ((railMax p : Int) < lin11 w → exec (.ioutOcWarnLimit (.write w)) s = .next s.pmBad) ∧
        (60000 ≤ lin11 w → lin11 w ≤ 120000 → exec (.otWarnLimit (.write w)) s =
          .next ((s.updRail p (fun r => { r with otWarn := some w })).checkLimits p)) ∧
        (lin11 w < 60000 ∨ 120000 < lin11 w → exec (.otWarnLimit (.write w)) s = .next s.pmBad)) ∧
      (∀ w : W16, p = 7 →
        (20000 ≤ lin11 w → lin11 w ≤ 41000 → exec (.vinOvWarnLimit (.write w)) s =
          .next (({ s with pwr := { s.pwr with vinOvWarn := some w } } : State).checkLimits p)) ∧
        (lin11 w < 20000 ∨ 41000 < lin11 w → exec (.vinOvWarnLimit (.write w)) s = .next s.pmBad) ∧
        (5700 ≤ lin11 w → lin11 w ≤ 12000 → exec (.vinUvWarnLimit (.write w)) s =
          .next (({ s with pwr := { s.pwr with vinUvWarn := some w } } : State).checkLimits p)) ∧
        (lin11 w < 5700 ∨ 12000 < lin11 w → exec (.vinUvWarnLimit (.write w)) s = .next s.pmBad)) ∧
      (∀ w, p ≤ 7 → exec (.clearFaults (.write w)) s = .next (({ s with pwr := { s.pwr with cml := false } } : State).clearPage p)) ∧
      (∀ w, p = 255 → exec (.clearFaults (.write w)) s = .next (clearPages allPages { s with pwr := { s.pwr with cml := false } })) ∧
      exec (.clearFaults .read) s = .next (s.emit .smbusNack) ∧
      (∀ c ∈ [Instr.operation, .capability, .voutMode, .pmbusRevision, .mfrId, .mfrModel, .statusByte, .statusWord, .statusVout,
          .statusIout, .statusInput, .statusTemperature, .statusMfrSpecific, .readVin, .readIin, .readVout, .readIout,
          .readTemperature1, .readPout, .readPin],
        exec (c .badPec) s = .next s.pmBad ∧ ∀ d, exec (c (.write d)) s = .next (s.emit .smbusNack))) ∧
    (s.pwr.vin = false → ∀ c ∈ [Instr.pmbusPage, .operation, .clearFaults, .capability, .voutMode, .ioutOcWarnLimit, .otWarnLimit,
        .vinOvWarnLimit, .vinUvWarnLimit, .statusByte, .statusWord, .statusVout, .statusIout, .statusInput, .statusTemperature,
        .statusMfrSpecific, .readVin, .readIin, .readVout, .readIout, .readTemperature1, .readPout, .readPin, .pmbusRevision, .mfrId,
        .mfrModel],
      ∀ op, exec (c op) s = .next (s.emit .smbusNack)) ∧
    (s.pwr.vin = true → ∀ n mv ma dc y, n ≤ 7 → y = s.updRail n (fun r => { r with mv := mv, ma := ma, dc := dc }) →
      exec (.telemetrySample n mv ma dc) s = .next ((if n = 7 then { y with pwr := { y.pwr with vinMv := mv, vinMa := ma } }
        else if n = 0 then { y with pwr := { y.pwr with vcoreMeas := mv } } else y).checkLimits n)) ∧
    (s.pwr.vin = true → s.pwr.alert = true → exec .alertResponse s =
      .next (({ s with pwr := { s.pwr with alert := s.pmAny } } : State).emit (.smbus [s.otp.smbAddr ++ (0 : BitVec 1)])))

/-- With the JTAG port alive, an instruction selects its register; EXTEST, CLAMP and HIGHZ drive the balls only while the
device is held in warm reset; a debug instruction selects its debug register only where the open scope has its bit.
Rests on R485, R488, R646. -/
def Obligations.JtagInstructionsSelect : Prop :=
  ∀ (s : State), s.tapOn = true →
    ∀ (sel : Byte → Nat → W32 → Option Nat → State),
      sel = (fun ir dr tdo dbg => { s with jtag := { s.jtag with ir := ir, drive := dr, tdo := tdo, dbg := dbg } }) →
    exec .jIdcode s = .next (sel 0x01 0 0x2640055F none) ∧
    (∀ v, exec (.jSamplePreload v) s = .next { s with jtag := { s.jtag with ir := 0x02, drive := 0, tdo := 0, dbg := none, boundary := v } }) ∧
    (s.boot.resetHeld = true → exec .jExtest s = .next (sel 0x00 1 0 none) ∧ exec .jClamp s = .next (sel 0x04 2 0 none) ∧
      exec .jHighz s = .next (sel 0x05 3 0 none)) ∧
    (s.boot.resetHeld = false → exec .jExtest s = .next (sel 0x00 0 0 none) ∧ exec .jClamp s = .next (sel 0x04 0 0 none) ∧
      exec .jHighz s = .next (sel 0x05 0 0 none)) ∧
    exec .jBypass s = .next (sel 0xFF 0 0 none) ∧
    (∀ dbg : Nat → Option Nat, dbg = (fun b => if s.lcy.scope.getLsbD b then some b else none) →
      exec .jDbgHalt s = .next (sel 0x20 0 0 (dbg 0)) ∧ exec .jDbgDiag s = .next (sel 0x21 0 0 (dbg 1)) ∧
      exec .jDbgTrace s = .next (sel 0x22 0 0 (dbg 2)) ∧ exec .jDbgSerdes s = .next (sel 0x23 0 0 (dbg 3)) ∧
      exec .jDbgLstep s = .next (sel 0x24 0 0 (dbg 4)) ∧ exec .jDbgMram s = .next (sel 0x25 0 0 (dbg 5)) ∧
      exec .jDbgScan s = .next (sel 0x26 0 0 (dbg 6)))

/-- VF Enable creates as many VFs as NumVFs, the page size and ARI allow, and its clearing drains them; an FLR starts, and
completes once nothing of the old generation is left; persistent keys are restored; Bus Master Enable and the
unmasking of vectors let pending messages leave; D3hot holds a function's records, and they are written with its
return to D0, or with Bus Master Enable. A function that is in FLR or not ready answers a configuration request with
Request Retry Status. Rests on R51-R66, R113. -/
def Obligations.FunctionEventsTakeEffect : Prop :=
  ∀ (s : State) (f : Nat) (flush : State → State),
    flush = (fun x => if (x.fn f).d3hot = true ∨ (x.fn f).bme = false then x
      else raiseDue (List.map (fun kq => kq.1) (x.queuesOf f)) (coverAll (List.map (fun kq => kq.1) (x.queuesOf f))
        (writeHeld (x.que.heldRecs.filter (fun r => r.fn == f))
          { x with que := { x.que with heldRecs := x.que.heldRecs.filter (fun r => r.fn != f) } }))) →
    (s.pcie.vfEn = false → s.cfgOpen 0 = true →
      (s.mbx.undercoat = false → s.pcie.pageSize = 1 ∨ s.pcie.pageSize = 2 ∨ s.pcie.pageSize = 4 → ∀ n y, 0 < n →
        n = (if s.pcie.ari then min s.pcie.numVfs 255 else min (min s.pcie.numVfs 255) 7) →
        y = { s with pcie := { s.pcie with vfEn := true, vfLimited := decide (n < s.pcie.numVfs) } } →
        exec .vfEnable s = .next (createVfs (evenQuota n) ((List.range n).map (fun i => i + 1)) (setQuotas (fun _ => 0) y.drainVfs y))) ∧
      (s.mbx.undercoat = false → ¬ (s.pcie.pageSize = 1 ∨ s.pcie.pageSize = 2 ∨ s.pcie.pageSize = 4) → ∀ y : State,
        y = { s with pcie := { s.pcie with vfEn := true, vfLimited := true } } →
        exec .vfEnable s = .next (setQuotas (fun _ => 0) y.drainVfs y)) ∧
      (s.mbx.undercoat = true → exec .vfEnable s =
        .next { s with pcie := { s.pcie with vfEn := true, vfLimited := decide (0 < s.pcie.numVfs) } })) ∧
    (f ≠ 0 → (s.fn f).st = .active → (s.fn f).flr = false → exec (.vfReady f) s = .next (s.updFn f (fun x => { x with rrs := false }))) ∧
    (s.pcie.vfEn = true → s.cfgOpen 0 = true → exec .vfDisable s =
      .next (startFlrs .drain s.vfs { s with pcie := { s.pcie with vfEn := false } }).assign) ∧
    (f ≠ 0 → s.cfgOpen f = true → exec (.flr f) s = .next (s.startFlr f .flr).assign) ∧
    (s.cfgOpen 0 = true → ∀ y, y = (startFlrs .drain s.vfs { s with pcie := { s.pcie with vfEn := false } }).startFlr 0 .flr →
      exec (.flr 0) s = .next ({ y with pcie := { y.pcie with
        ari := false, numVfs := 0, pageSize := 1, vfBar0 := 0, vfBar2 := 0, acs := 0 } } : State).assign) ∧
    (s.pcie.linkUp = true → (f ≠ 0 → (s.fn f).st ≠ .absent) → (s.fn f).flr = true ∨ (s.fn f).rrs = true → ∀ y, y = s.emit (.cfgRetry f) →
      exec (.flr f) s = .next y ∧ exec (.busMasterEnable f) s = .next y ∧ exec (.d3hotEntry f) s = .next y ∧
      (∀ en, exec (.msixUnmask f none en) s = .next y)) ∧
    ((s.fn f).flr = true → s.flrDrained f = true →
      (f = 0 → exec (.flrComplete 0) s = .next (s.updFn 0 (fun y => { y with flr := false, rrs := false }))) ∧
      (f ≠ 0 → ∀ x q y, x = ({ s with
          que := { s.que with
            queues := Tbl.map {} (fun _ (u : Queue) => if u.fn = f ∧ u.leaving = true then {} else u) s.que.queues } } : State) →
        q = (s.fn f).pendQuota.getD (s.fn f).quota →
        y = x.updFn f (fun z => if (s.fn f).st = .drain then
            (if (s.fn f).reenable then ({ gen := z.gen, st := .active, quota := q, perm := z.pendPerm.getD 0, rrs := true } : Fn)
             else ({ gen := z.gen } : Fn))
          else ({ z with flr := false, rrs := false, st := .active, quota := q, perm := z.pendPerm.getD z.perm, pendQuota := none,
                         pendPerm := none, pendQueues := [] } : Fn)) →
        ∀ w, w = (if (s.fn f).st = .drain ∧ (s.fn f).reenable = false then y else applyQueues (s.fn f).pendQueues y) →
        exec (.flrComplete f) s = .next (({ w with pcie := { w.pcie with flrDone := setBit w.pcie.flrDone f } } : State).fnEvent 2))) ∧
    (s.bnd.loaded = true → (s.fn 0).flr = false → s.tmp.erased = none → exec .persistRestore s = .next (loadEntries s.image.dir s)) ∧
    (s.cfgOpen f = true → exec (.busMasterEnable f) s =
      .next (((flush (s.updFn f (fun x => { x with bme := true }))).sendPending f).assign)) ∧
    (s.barOpen f = true → ∀ v en, exec (.msixUnmask f (some v) en) s =
      .next ((s.updFn f (fun x => { x with vecs := Tbl.upd {} x.vecs v (fun w => { w with masked := false }) })).sendPending f)) ∧
    (s.cfgOpen f = true → exec (.msixUnmask f none true) s = .next ((s.updFn f (fun x => { x with msixEn := true })).sendPending f) ∧
      exec (.msixUnmask f none false) s = .next ((s.updFn f (fun x => { x with msixMask := false })).sendPending f)) ∧
    (s.cfgOpen f = true → (s.fn f).d3hot = false → exec (.d3hotEntry f) s =
      .next (s.updFn f (fun x => { x with d3hot := true, pmeSent := false, st := if f = 0 then x.st else .sleep }))) ∧
    ((s.fn f).d3hot = true → exec (.d3hotExit f) s = .next (((flush
      (s.updFn f (fun z => { z with d3hot := false, pmePend := false, st := if f = 0 then z.st else .active }))).sendPending f).assign))

/-- The link goes down, with the effects of an FLR of PF0; it trains at a rate and a width, which is an event where they
change or are below x16 at the full rate, and pending messages leave; it enters L1; its errors are counted; a failed
read ends its job. Rests on R45-R47, R74, R105. -/
def Obligations.LinkEventsTakeEffect : Prop :=
  ∀ (s : State),
    (∀ x y z : State, x = s.report 480 0 → y = (if (x.fn 0).flr then x else x.removeVfs.startFlr 0 .flr) →
      z = ({ y with pcie := { y.pcie with ari := false, numVfs := 0, pageSize := 1, vfBar0 := 0, vfBar2 := 0, acs := 0 } } : State).updFn 0
        (fun w => { w with maxPayload := 0 }) →
      exec .linkDown s = .next ({ z with pcie := { z.pcie with
        linkUp := false, flit := false, inL1 := false, aspmL1 := false } } : State).assign) ∧
    (∀ speed width flit deg y, deg = decide (speed < 5 ∨ width < 16) → y = ({ s with pcie := { s.pcie with
        linkUp := true, speed := speed, width := width, flit := flit || speed == 6, degraded := deg, inL1 := false } } : State) →
      ((deg = true ∨ s.pcie.speed ≠ speed ∨ s.pcie.width ≠ width ∨ s.pcie.degraded = true) →
        exec (.linkChange speed width flit) s = .next ((List.range 256).foldl (fun x f => x.sendPending f) (y.fnEvent 3))) ∧
      (deg = false → s.pcie.speed = speed → s.pcie.width = width → s.pcie.degraded = false →
        exec (.linkChange speed width flit) s = .next ((List.range 256).foldl (fun x f => x.sendPending f) y))) ∧
    (s.pcie.linkUp = true → s.pcie.aspmL1 = true → s.hostWork = false → exec .l1Entry s = .next { s with pcie := { s.pcie with inL1 := true } }) ∧
    (∀ id e j, s.findJob id = some j → j.st = .running ∨ j.st = .paused →
      exec (.dmaReadError id e) s = .next ((s.dmaFailed e).failJob id stDmaError e.code).assign) ∧
    exec (.pcieLinkError 0) s = .next (({ s with pcie := { s.pcie with rxErr := satInc s.pcie.rxErr } } : State).fnEvent 0) ∧
    exec (.pcieLinkError 1) s = .next (({ s with pcie := { s.pcie with replay := satInc s.pcie.replay } } : State).fnEvent 0) ∧
    exec (.pcieLinkError 2) s = .next (({ s with pcie := { s.pcie with recovery := satInc s.pcie.recovery } } : State).fnEvent 0) ∧
    exec (.pcieLinkError 3) s = .next (s.dmaFailed .poisoned)

/-- A frame that arrives is counted and, below 64 bytes or with a bad FCS, dropped; one that passes every check is
classified. PAUSE is refreshed and runs out; overlap windows and drains end; sub-ports come up, lose lock and see a
remote fault; a spare takes a Render assignment over; a mask feed stalls and recovers. Rests on R153, R157, R159,
R161-R163, R179, R191, R193. -/
def Obligations.PortEventsTakeEffect : Prop :=
  ∀ (s : State) (n sub : Nat),
    (∀ corr unc (f : Frame) x, n < 8 → (s.pair n).enabled = true → sub < subCount (s.pair n).mode → s.powered = true →
      ∀ (seen : Nat → State), seen = (fun d => (((s.count (8 * d + n) sub cFecCorr corr).count (8 * d + n) sub cFecUncorr unc).count
        (8 * d + n) sub cFramesIn 1).count (8 * d + n) sub cOctetsIn (octets f.bytes)) →
      (octets f.bytes < 64 → exec (.hostFrameRx n sub corr unc f) s = .next ((seen 0).count n sub cUndersize 1) ∧
        exec (.lineFrameRx n sub corr unc f) s = .next ((seen 1).count (8 + n) sub cUndersize 1)) ∧
      (64 ≤ octets f.bytes → f.fcsOk = false → exec (.hostFrameRx n sub corr unc f) s = .next ((seen 0).count n sub cFcsErr 1) ∧
        exec (.lineFrameRx n sub corr unc f) s = .next ((seen 1).count (8 + n) sub cFcsErr 1)) ∧
      (64 ≤ octets f.bytes → f.fcsOk = true → be16 f.bytes 12 ≠ 0x8808 → (s.pair n).uncontrolled sub f.bytes = false →
        (x = seen 0 → octets f.bytes ≤ (s.pair n).maxFrame → x.forwards n sub = true →
          bufBytes sub none (x.flow n 0) + octets f.bytes ≤ shareBytes (s.pair n).mode →
          exec (.hostFrameRx n sub corr unc f) s = .next (x.classifyTx n sub f.bytes)) ∧
        (x = seen 1 → octets f.bytes ≤ (s.pair n).maxFrame + (if (s.pair n).esp sub then 77 else 32) → x.forwards n sub = true →
          bufBytes sub none (x.flow n 1) + octets f.bytes ≤ shareBytes (s.pair n).mode →
          exec (.lineFrameRx n sub corr unc f) s =
            .next (if (x.pair n).esp sub then x.classifyEsp n sub f.bytes else x.classifySec n sub f.bytes)))) ∧
    (n < 8 → (s.pair n).enabled = true →
      ((s.subPort n sub).pausing ≠ 0 → exec (.pauseRefresh n sub) s =
        .next ((s.emit (.pause n sub (s.subPort n sub).pausing 0xFFFF)).count n sub cPauseOut 1)) ∧
      (∀ prios, exec (.pauseExpiry n sub prios) s =
        .next ((s.updSub n sub (fun x => { x with paused := x.paused &&& ~~~prios })).runFlow n 1))) ∧
    (∀ k, s.flowOf n = some k → exec (.renderFrameDone n) s =
      .next (((s.drawMany (19 + n / 4) (renderWords (s.rnd n).fstep (doneBytes n (s.flow (k / 2) (k % 2))))).setFlow (k / 2) (k % 2)
        (markDone n (s.flow (k / 2) (k % 2)))).runFlow (k / 2) (k % 2))) ∧
    (∀ a i, a < 16384 → i < 2 → ((s.sa 1 a).ep i).st = .drainAccept → exec (.overlapTimer a i) s =
      .next ((s.updSa 1 a (fun y => y.updEp i (fun e => { e with st := .draining }))).saEvent evOverlapEnd 1 i ((s.sa 1 a).evAn i) a)) ∧
    (∀ d a i, d ≤ 1 → a < 16384 → i < 2 → ((s.sa d a).ep i).st = .draining → exec (.drainTimer d a i) s =
      .next ((s.emptySlot d a i).saEvent evRetired d i ((s.sa d a).evAn i) a)) ∧
    (s.subLive n sub = true →
      ((s.subPort n sub).st ≠ .up → s.pwr.sdLock.getLsbD (n / 4) = true → ∀ x,
        x = s.updSub n sub (fun y => { y with st := .up, lanes := lanesPer (s.pair (n % 8)).mode }) →
        exec (.portUp n sub) s = .next ((serveBad 300 (answerRecal n sub x.mbx.waitRecal x)).portChange s n)) ∧
      ((s.subPort n sub).st = .up ∨ (s.subPort n sub).st = .remoteFault →
        exec (.portLockLoss n sub false) s =
          .next (((s.updSub n sub (fun x => { x with st := .localFault, lanes := 0 })).report 288 n).portChange s n) ∧
        exec (.portLockLoss n sub true) s =
          .next ((((s.updSub n sub (fun x => { x with st := .localFault })).report 289 n).report 288 n).portChange s n)) ∧
      ((s.subPort n sub).st = .up → exec (.remoteFault n sub) s =
        .next (((s.updSub n sub (fun x => { x with st := .remoteFault })).report 288 n).portChange s n))) ∧
    (∀ u p d v x, s.rdr.takeover.find? (fun t => t.1 == u) = some (u, p, d) → (s.unit u).st ≠ .draining → p < 8 → s.standingHeld p = true →
      s.spareFor u = some v → x = s.bringIn u v → exec (.renderTakeover u) s =
        .next (((({ x with rdr := { x.rdr with takeover := x.rdr.takeover.filter (fun t => t.1 != u) } } : State).updRnd v (fun r =>
          { r with st := .inline, pair := p, dir := d })).endTakeover u).dispatchAll.flowAll)) ∧
    (n < 9 → exec (.maskFeedStall n true) s =
      .next ((s.updGen (19 + n) (fun g => { g with stalls := satInc g.stalls })).setFeed n true)) ∧
    (n < 9 → (s.gen (19 + n)).st = .ok → exec (.maskFeedStall n false) s = .next (s.setFeed n false))

/-- Float gives its next request what it asks once enough is free, and the holder starts or goes on; an acknowledged
revoke pauses its job; a late revoke and a draw above the grant are reported; FLT_LIMIT_N and the thermal cap lower
the target and raise it again. Rests on R561-R566. -/
def Obligations.FloatEventsTakeEffect : Prop :=
  ∀ (s : State),
    (∀ r, s.flt.nextReq s.flt.reqs = some r → r.size ≤ s.flt.free →
      exec .floatGrant s = .next (({ s with flt := s.flt.give r } : State).granted r)) ∧
    (∀ h j x y, s.flt.grants.any (fun g => g.who == h && g.revoked) = true → x = ({ s with flt := s.flt.ack h } : State) →
      x.jobOf h = some j → j.st = .running →
      y = (if j.kind = .lath then (x.updJob j.id (fun z => { z with st := .paused })).updLath j.engine (fun e => { e with running := false })
        else x.updJob j.id (fun z => { z with st := .paused })) →
      exec (.revokeAck h) s = .next (if j.abort.isSome then y.serveWipe else y)) ∧
    (∀ h, s.flt.grants.any (fun g => g.who == h && g.revoked) = true → exec (.fltRevokeLate h) s = .next (s.report 577 h.unit)) ∧
    (∀ h, s.flt.holds h = true → exec (.fltOverdraw h) s = .next (s.report 576 h.unit)) ∧
    (s.flt.limit = false → exec .fltLimitAssert s = .next (({ s with flt :=
      ({ s.flt with limit := true, limitCnt := satInc s.flt.limitCnt } : Flt).fall } : State).report 517 0)) ∧
    (s.flt.limit = true → exec .fltLimitDeassert s = .next { s with flt := ({ s.flt with limit := false } : Flt).settle }) ∧
    (s.computeOn = true → s.flt.thermal = false → exec .tjWarn s =
      .next (({ s with flt := ({ s.flt with thermal := true } : Flt).fall } : State).reportHeld 515 0)) ∧
    (s.computeOn = true → ∀ x, x = (if s.flt.thermal then s else { s with flt := ({ s.flt with thermal := true } : Flt).fall }) →
      exec .tjCrit s = .next (x.reportHeld 516 0)) ∧
    (s.flt.thermal = true → exec .thermalCapLift s = .next
      ((({ s with flt := ({ s.flt with thermal := false } : Flt).settle } : State).assertCause 515 0 false).assertCause 516 0 false))

/-- A lost phase is counted and caps the tokens below 22 phases; a rail, the root clock, a SerDes or the PCIe reference
clock that fails is reported to its causes; a VIN warning is held, and its end starts the next MRAM commit; VCORE
reaches its target. Rests on R545-R550, R556, R607. -/
def Obligations.RailAndClockEventsTakeEffect : Prop :=
  ∀ (s : State),
    (s.computeOn = true →
      (∀ n x, s.pwr.phases = n + 1 → x = ({ s with pwr := { s.pwr with phases := n } } : State).report 514 0 →
        exec .phaseFault s = .next (if n < 22 then x.capPhases.devStatus else x)) ∧
      (∀ page, page ≤ 6 → exec (.railOor page) s = .next (s.reportHeld 513 page)) ∧
      (∀ b, exec (.rootUnlock b) s = .next (({ s with pwr := { s.pwr with
        rootLock := false, refclkOk := s.pwr.refclkOk && !b } } : State).reportHeld 544 0)) ∧
      (∀ k, k < 4 → exec (.sdUnlock k) s = .next ((faultPorts [4 * k, 4 * k + 1, 4 * k + 2, 4 * k + 3] { s with pwr := { s.pwr with
        sdLock := clrBit s.pwr.sdLock k, sdRefOk := clrBit s.pwr.sdRefOk k } }).flowAll.reportHeld 545 k)) ∧
      exec .pcieRefclkLoss s = .next (({ s with pwr := { s.pwr with pcieRefOk := false } } : State).linkDown)) ∧
    (s.pwr.vin = true → s.pwr.vinWarn = false → ∀ x, x = ({ s with pwr := { s.pwr with vinWarn := true } } : State) →
      exec .vinWarn s = .next (if s.computeOn then x.reportHeld 512 7 else x)) ∧
    (s.pwr.vinWarn = true → exec .vinRecovery s =
      .next (({ s with pwr := { s.pwr with vinWarn := false }
                       lth := { s.lth with hss := Tbl.map {} (fun _ h => { h with started := h.writing.isSome }) s.lth.hss } } :
        State).assertCause 512 7 false).startCommit) ∧
    (∀ x, s.pwr.slewing = true → x = ({ s with pwr := { s.pwr with slewing := false, vcoreMeas := s.pwr.vcoreTarget } } : State).capPhases →
      exec .vcoreSlewDone s = .next (if x.plb.phase = 1 then x.startDerates.goPlan else x))

/-- A cold start resets the compute die and runs the power sequence from P1; a step that reports ready goes on with the
next one, and is tried again three times before its sequence fails; a reset keeps the rails and runs S1-S12 once it is
released, restarts a sequence that has failed, or wakes the device from DUSTSHEET; the loss of VIN turns everything
off. An idle device enters IDLE; the time limit of an entry to DUSTSHEET ends the jobs that still run; the custody die
samples; a wake source ends DUSTSHEET by a start from P5, or abandons the entry; WAKE_N and the RTC alarm are wake
sources. Rests on R499, R545, R546, R569-R581. -/
def Obligations.StartsResetsAndPowerStates : Prop :=
  (∀ (s : State) (inp : StartIn),
    (s.pwr.st = .off ∨ s.pwr.st = .backup → ∀ x, x = s.computeReset .sequencing → exec (.coldStart inp) s = .next (runSeq 10 1 inp
      { x with pwr := { x.pwr with vin := true, vinWarn := false, ovShut := false, fromP5 := false, lastStart := if s.pwr.ovShut then 3 else 0 }
               scr := {}, jtag := {}, grt := {} })) ∧
    (s.pwr.st = .sequencing →
      (∀ k, 1 ≤ k → k ≤ 9 → s.pwr.step = k → exec (.powerStepReady inp) s = .next (runSeq 10 (k + 1) inp (s.powerStep k))) ∧
      (s.pwr.step = 10 → s.boot.resetHeld = false → exec (.powerStepReady inp) s = .next (s.release inp)) ∧
      (∀ k x, 1 ≤ k → k ≤ 9 → s.pwr.step = k → x = ({ s with pwr := { s.pwr with
          lastFail := BitVec.ofNat 8 k, retries := min 3 (s.pwr.tries + 1), tries := s.pwr.tries + 1 } } : State) →
        exec .seqStepTimeout s = .next (if s.pwr.tries < 3 then x else x.failSeq)) ∧
      (s.pwr.step = 0 → exec (.sequenceRestart inp) s = .next (s.reseq inp))) ∧
    (∀ src y, src ≠ .self → y = (fun (h : Bool) => ({ s with boot := { s.boot with resetHeld := h }
                                                             jtag := { s.jtag with drive := jtagDrive s.jtag.ir h } } : State)) →
      (s.computeOn = true → ∀ x, x = (fun h => (y h).computeReset .run) →
        exec (.warmReset src true inp) s = .next { x true with pwr := { (x true).pwr with lastStart := 1 } } ∧
        exec (.warmReset src false inp) s = .next (({ x false with pwr := { (x false).pwr with lastStart := 1 } } : State).runStart inp)) ∧
      (s.computeOn = false → s.pwr.st = .stopped → ∀ h, exec (.warmReset src h inp) s =
        .next (if src = .sysRst then ({ y h with pwr := { (y h).pwr with failRow := 0 } } : State).reseq inp else y h)) ∧
      (s.computeOn = false → s.pwr.st = .dustsheet →
        exec (.warmReset src true inp) s = .next (y true) ∧ exec (.warmReset src false inp) s = .next ((y false).wake 2)) ∧
      (s.computeOn = false → s.pwr.st = .sequencing → s.pwr.step = 10 →
        exec (.warmReset src true inp) s = .next (y true) ∧ exec (.warmReset src false inp) s = .next ((y false).release inp))) ∧
    (∀ x, x = ({ s.computeReset .run with pwr := { (s.computeReset .run).pwr with lastStart := 1 } } : State).runStart inp →
      (s.computeOn = true → s.lcy.resetDue = true ∨ s.boot.recoverReset = true ∨ s.startBoundDue = true →
        exec (.warmReset .self false inp) s = .next x) ∧
      (s.lcy.resetDue = true → exec (.lcReset inp) s = .next x) ∧ (s.boot.recoverReset = true → exec (.fwRecoverReset inp) s = .next x)) ∧
    (s.pwr.st = .run → 1 ≤ s.boot.step → s.boot.step < 12 → s.mbx.ready = false → s.boot.hold = false →
      exec .startTimeout s = .next (s.failedStart 7)) ∧
    (s.boot.hold = true → s.boot.resetHeld = false → exec (.startRetry inp) s =
      .next (({ s with boot := { s.boot with hold := false } } : State).runStart inp)) ∧
    (s.pwr.vin = true → exec .vinLoss s = .next ((s.holdVin false).powerOff false) ∧
      exec .vinOvervoltage s = .next ((s.holdVin true).powerOff true) ∧
      exec .vbatLoss s = .next { s with pwr := { s.pwr with vbat := false } }) ∧
    (s.pwr.vin = false → exec .vbatLoss s = .next { s with pwr := { s.pwr with vbat := false, st := .off }, bkp := {} }) ∧
    (s.pwr.st ≠ .off → exec .vbatApplied s = .next { s with pwr := { s.pwr with vbat := true } }) ∧
    (s.pwr.st = .off → exec .vbatApplied s = .next { s with pwr := { s.pwr with vbat := true, st := .backup }, bkp := {} })) ∧
  (∀ (s : State) (inp : StartIn),
    (s.pwr.st = .run → s.boot.step = 12 → s.mbx.undercoat = false → (List.range 8).all (fun n => !(s.pair n).enabled) = true →
      s.que.jobs.all (fun j => j.st == .ended) = true → s.cmdRunning = false →
      exec .idleEntry s = .next { s with pwr := { s.pwr with st := .idle } }) ∧
    (s.pwr.st = .dustEntry → exec .dustJobTimeout s = .next (endRunning s.que.jobs s).goDust) ∧
    (s.pwr.st = .dustsheet → ∀ x, x = ({ s with pwr := { s.pwr with samples := satInc s.pwr.samples } } : State) →
      exec (.dustSample false) s = .next x ∧ exec (.dustSample true) s = .next (x.wake 4)) ∧
    (s.pwr.wakes ≠ 0 → (s.pwr.st = .dustEntry → exec (.dustWake inp) s = .next s.abandonDust) ∧
      (s.pwr.st = .dustsheet → ∀ x, x = s.computeReset .sequencing → exec (.dustWake inp) s = .next (runSeq 10 5 inp
        { x with pwr := { x.pwr with lastWake := s.pwr.wakes, samples := s.pwr.samples, lastStart := 2, wakeOut := true, fromP5 := true,
                                     dustAlarms := s.pwr.dustAlarms } }))) ∧
    (s.pwr.st = .dustEntry ∨ s.pwr.st = .dustsheet →
      exec .wakeN s = .next { s with pwr := { s.pwr with wakes := setBit s.pwr.wakes 1 } } ∧
      (s.bkp.rtcAlarm ≠ 0 → exec .rtcAlarm s =
        .next { s with bkp := { s.bkp with rtcAlarm := 0 }, pwr := { s.pwr with wakes := setBit s.pwr.wakes 0 } })))

/-- A source's window passes or fails, and the third failure within 2^20 windows disables the source, Grit failing with
fewer than four healthy ones; a seed instantiates an expander or stands by for a reseed, and one lost to Seam is
discarded; reseeds come due, complete, or are overdue and stop the generator until they complete; with Seam down
neither a report nor a seed crosses it; a job that waits too long for a generator ends. Rests on R411-R421. -/
def Obligations.GritEventsTakeEffect : Prop :=
  ∀ (s : State),
    (∀ i, i < 8 → s.grt.started = true → (s.src i).disabled = false →
      (∀ w : WindowTest, w.run < s.otp.cutRep.toNat → w.count < s.otp.cutProp.toNat → exec (.sourceWindowEnd i w) s = .next (s.updSrc i (fun y =>
        if y.passed then { y with window := y.window + 1, bits := y.bits + 1024 } else { y with window := y.window + 1, passed := true }))) ∧
      (∀ w : WindowTest, s.otp.cutRep.toNat ≤ w.run ∨ s.otp.cutProp.toNat ≤ w.count →
        ∀ l off x, l = ((s.src i).recent.filter (fun w => decide ((s.src i).window < w + 1048576))) ++ [(s.src i).window] →
        off = decide (3 ≤ l.length) →
        x = s.updSrc i (fun y => { y with
          window := y.window + 1, fails := satInc y.fails, recent := l, disabled := off, bits := if off then 0 else y.bits }) →
        (x.seamDown = true → exec (.sourceWindowEnd i w) s = .next x) ∧
        (x.seamDown = false → off = false → exec (.sourceWindowEnd i w) s = .next (x.report 192 (38 + i))) ∧
        (x.seamDown = false → off = true → ∀ z, z = (x.report 192 (38 + i)).report 193 (38 + i) →
          exec (.sourceWindowEnd i w) s = .next (if z.sourceLost s.healthy then z.gritFail else z)))) ∧
    (∀ turn l n t x, s.grt.started = true → s.grt.st ≠ .fail → 4 ≤ s.healthy →
      takeBits 144 0 s.grt.turn ((List.range 8).map (fun i => if s.srcHealthy i then (s.src i).bits else 0)) = some (turn, l) →
      s.seedTarget = some n → x = setBits (((List.range 8).filter (fun i => s.srcHealthy i)).map (fun i => (i, l.getD i 0))) s →
      ∀ y, y = ({ x with grt := { x.grt with turn := turn } } : State) → exec (.seedDone true t) s = .next y ∧
        (y.seamDown = true → exec (.seedDone false t) s = .next y) ∧
        (y.seamDown = false → (y.gen n).st = .unseeded → exec (.seedDone false t) s = .next (y.seedPart n t)) ∧
        (y.seamDown = false → (y.gen n).st ≠ .unseeded → exec (.seedDone false t) s = .next (y.updGen n (fun g => { g with fresh := true })))) ∧
    (s.grt.started = true → s.grt.st = .unseeded → s.healthy < 4 → exec .gritStartTimeout s = .next s.gritFail) ∧
    (∀ n, n < 38 → (s.gen n).st = .ok →
      exec (.reseedDue n true) s = .next (s.updGen n (fun g => { g with due := true, requests := 65536 })) ∧
      exec (.reseedDue n false) s = .next (s.updGen n (fun g => { g with due := true, ageMs := 1000 })) ∧
      ((s.gen n).due = true → ∀ byCount y, y = (s.updGen n (fun g => { g.stop .overdue with
          requests := if byCount then 131072 else g.requests, ageMs := if byCount then g.ageMs else 1100 })).report 196 n →
        exec (.genOverdue n byCount) s = .next (if 19 ≤ n ∧ n < 28 then y.setFeed (n - 19) true else y))) ∧
    (∀ n, n < 38 → (s.gen n).due = true → (s.gen n).st = .ok ∨ (s.gen n).st = .fail ∧ (s.gen n).cause = .overdue →
      (n < 19 → (s.gen n).fresh = true → exec (.reseedComplete n) s =
        .next (s.updGen n (fun x => x.seeded (genCap n) true))) ∧
      (19 ≤ n → ∀ p y, p = (if n = 37 then 18 else n - 19) → (s.gen p).st = .ok →
        y = (s.drawFrom p).2.updGen n (fun x => x.seeded 64 true) →
        exec (.reseedComplete n) s = .next (if n < 28 then y.setFeed (n - 19) false else y))) ∧
    (∀ id n j, s.findJob id = some j → j.st = .running ∨ j.st = .paused → j.draws.contains n = true → s.rngWaits n = true →
      exec (.rngWaitTimeout id n) s = .next (s.failJob id stRngNotReady 0))

/-- A sweep refreshes both shares of every slot with one word, and the shares of the SA keys, while the device generator
answers; a slot that no job refers to is wiped; a commit that verifies is applied and answered, one of a transition
ends the transition, and one that fails its retry is not applied; the debug scope closes when its time is over; an
alarm of an enabled source whose detector runs is taken. Rests on R429, R430, R450, R476, R487, R495. -/
def Obligations.CustodyEventsTakeEffect : Prop :=
  ∀ (s : State),
    (s.bnd.paused = false → (s.gen genDevice).st = .ok → ∃ t, exec .refreshSweep s = .next t ∧
      (∀ a e w0 w1 x, (a, e) ∈ s.rdr.sas → w0 = Config.gritWord (s.freeCtr + 2 * a) → w1 = Config.gritWord (s.freeCtr + 2 * a + 1) →
        x = ({ e with ep0 := e.ep0.refresh w0, ep1 := e.ep1.refresh w1 } : Sa) → x ≠ {} → (a, x) ∈ t.rdr.sas) ∧
      (∀ k b, (k, b) ∈ s.bnd.slots → ∀ w, w = Config.gritWord (s.freeCtr + 65536 + k) → ({ b with s0 := b.s0 ^^^ w, s1 := b.s1 ^^^ w } : BSlot) ≠ {} →
        (k, ({ b with s0 := b.s0 ^^^ w, s1 := b.s1 ^^^ w } : BSlot)) ∈ t.bnd.slots) ∧
      t.bnd.sweeps = satInc s.bnd.sweeps ∧ t.freeCtr = s.freeCtr + 65536 + slotCount) ∧
    (s.bnd.paused = true ∨ (s.gen genDevice).st ≠ .ok → exec .refreshSweep s = .next s) ∧
    (∀ k, s.bnd.wipeQ.find? (fun k => (s.slot k).jobRefs == 0) = some k → exec .slotWipe s =
      .next { s.updSlot k (fun b => { serial := b.serial }) with
        bnd := { (s.updSlot k (fun b => { serial := b.serial })).bnd with wipeQ := s.bnd.wipeQ.erase k } }) ∧
    (∀ c t, s.commits = c :: t → c.started = true →
      (∀ src ok, (ok = true → s.seamDown = false ∧ s.pwr.vinWarn = false) → s.tmp.erased = some src → exec (.journalCommitDone ok) s = .next (s.failCommit c (stTamperErased, src))) ∧
      (s.tmp.erased = none → exec (.journalCommitDone false) s = .next ((s.failCommit c (stMramFail, 0)).report 130 0)) ∧
      (s.tmp.erased = none → s.seamDown = false → s.pwr.vinWarn = false → ∀ l, c.life = some l →
        exec (.journalCommitDone true) s = .next ((({ s with commits := t } : State).endLife l c.mbx).startCommit)) ∧
      (s.tmp.erased = none → s.seamDown = false → c.life = none → ∀ j m, s.commitImage c = some (j, m) → exec (.journalCommitDone true) s =
        .next ((({ s with commits := t } : State).applyCommit c j m).answerCommit c).startCommit)) ∧
    (s.lcy.scope ≠ 0 → 2 ≤ s.lcy.st → s.lcy.notAfter.toNat < rtcSeconds s → exec .debugExpire s = .next s.closeDebug) ∧
    (∀ i, s.srcOn i = true → s.watches i = true →
      exec (.tamperAlarm i true) s =
        .next (({ s with tmp := { s.tmp with inAlarm := setBit s.tmp.inAlarm i } } : State).alarm i) ∧
      exec (.tamperAlarm i false) s =
        .next (({ s with tmp := { s.tmp with inAlarm := clrBit s.tmp.inAlarm i } } : State).alarm i))

/-- A pair that goes to error is reported and held while it stays there, one of a Lath engine with the effects that its
cause has on the engine; a broken wire and a disagreement of the collector's copies are reported; a quiet record
closes by itself, up to seven in an hour, and the eighth becomes a cause of its own; a Seam transfer that fails is
sent again and after the fourth failure holds the device; a scrub reports what it has corrected and what it could not.
The causes of the custody die do not arrive while Seam is down. Rests on R514-R517, R525, R532, R534, R535, R650. -/
def Obligations.ScrimEventsTakeEffect : Prop :=
  ∀ (s : State), s.scrimOn = true →
    (∀ c unit b, s.seamDown = true → c / 32 = 4 → exec (.causeReport c unit b) s = .next s) ∧
    (∀ c unit, s.seamDown = false ∨ c / 32 ≠ 4 → s.scr.asserted.contains (c, unit) = false → causeKnown c = true → c % 32 ≠ 31 →
      ∀ f, f = (fun (x : State) => if c / 32 = 10 ∧ c % 32 ≤ 12 ∧ unit < 36 then x.engCause unit (c % 32) else x.report c unit) →
      exec (.causeReport c unit true) s = .next (f (s.assertCause c unit true)).beforeReady ∧
      exec (.causeReport c unit false) s = .next ((f s).repeated c unit).beforeReady) ∧
    (∀ c unit, s.seamDown = false ∨ c / 32 ≠ 4 → s.scr.asserted.contains (c, unit) = true →
      exec (.causeReport c unit true) s = .next s ∧
      exec (.causeReport c unit false) s = .next ((s.assertCause c unit false).repeated c unit)) ∧
    (∀ g b unit, (causeBits g).contains b = true → exec (.wire g b unit) s = .next
      (((s.assertCause (32 * g + 31) unit true).occur { cause := 32 * g + 31, unit := unit, rank := wireRank g, wire := some b }).beforeReady)) ∧
    exec .scrCheck s = .next (s.report 1 0).beforeReady ∧
    (∀ w dev inp r, s.recordOf w dev = some r → 4 ≤ r.rank → r.rank < 6 → s.scr.terminal = false → s.scr.quietMs ≠ 0 →
      r.nums.contains 5 = false →
      (r.startBound = false → s.allQuiet r = true → s.exitsInHour < 7 → exec (.autoExit w dev inp) s = .next (s.countExit.closeRec r true)) ∧
      (r.startBound = true → s.exitsInHour < 7 → exec (.autoExit w dev inp) s = .next (s.countExit.warmReset inp s.boot.resetHeld)) ∧
      ((r.startBound = true ∨ s.allQuiet r = true) → 7 ≤ s.exitsInHour →
        exec (.autoExit w dev inp) s = .next ((s.latchCause 5).mergeInto r { cause := 5, rank := 4 }))) ∧
    (∀ n, 0 < n → n < 4 →
      exec (.seamRetransmit false n) s = .next ((seamAgain 96 n s).closeRetry { group := 3, unit := 0 }).beforeReady ∧
      exec (.seamRetransmit true n) s = .next ((seamAgain 97 n s).closeRetry { group := 3, unit := 0 }).beforeReady) ∧
    (∀ n auth x, 4 ≤ n → x = (seamAgain (if auth then 97 else 96) 4 s).reportHeld 98 0 → exec (.seamRetransmit auth n) s =
      .next ({ x with mram := { x.mram with seamFail := some x.bkp.rtc } } : State).beforeReady) ∧
    (∀ a b, s.seamDown = true → exec (.mramScrub a b) s = .next s) ∧
    (∀ a b, s.seamDown = false → exec (.mramScrub 0 0) s = .next s ∧ exec (.mramScrub (a + 1) 0) s = .next (s.report 128 0) ∧
      exec (.mramScrub 0 (b + 1)) s = .next (s.report 129 0) ∧
      exec (.mramScrub (a + 1) (b + 1)) s = .next ((s.report 128 0).report 129 0))

/-- A known-answer test ends, passed or failed, and its waiting commands are answered; a drained unit goes under test; a
wait that is over answers its commands with ST_ABORTED; the daily cycle begins; a low margin starts a re-plan, the
reading of a die monitor is kept, and a re-plan is tried again; a clock generator relocks at the next step; a drained
reading counts within its temperatures, and is taken again outside them. Rests on R605-R615. -/
def Obligations.PlumbEventsTakeEffect : Prop :=
  ∀ (s : State) (u : Nat),
    (∀ es ws, es = s.plb.testq.filter (fun t => t.unit == u && t.purpose == .kat) → ws = es.flatMap (fun t => t.waiters) →
      (s.unit u).st = .test → es.any (fun t => t.active) = true →
      (∀ z, z = ((((answerWaiters stOk 0 ws
          (((s.dropKats u).putResult u 1 0).lateLog u 3 0 es)).endDrain u).closeRetry (recUnit u)).fixRunning).serveQueue →
        exec (.katDone u none) s = .next (if u < 36 then z.dispatchAll.flowAll else z)) ∧
      (∀ v x, x = (answerWaiters stSigFault (BitVec.toNat v) ws (((s.dropKats u).putResult u 2 v.toNat).lateLog u 4 v.toNat es)).fixRunning →
        (x.scr.recs.find? (fun r => r.who == recUnit u && r.rank == 2) = none →
          exec (.katDone u (some v)) s = .next (x.report (selfCheck u) (recUnit u).unit).serveQueue) ∧
        (∀ r, x.scr.recs.find? (fun r => r.who == recUnit u && r.rank == 2) = some r →
          exec (.katDone u (some v)) s = .next (x.failAgain r u).serveQueue))) ∧
    (∀ x t, x = s.serveQueue → x.activeEnt u = some t → (x.unit u).st = .draining → x.noWork u = true →
      (t.purpose = .kat ∨ t.purpose = .measure → exec (.unitDrained u) s =
        .next ((x.setUnit u .test).startRoutine u (t.purpose == .measure)).fixRunning) ∧
      (t.purpose = .derate → exec (.unitDrained u) s = .next (x.setUnit u .test)) ∧
      (t.purpose = .putty → ∀ n p, unitEngine u = some (.lath, n) → x.lth.load = some p →
        exec (.unitDrained u) s = .next (loadLoop 38 (((x.updLath n p.into).dropActive u).endDrain u)).serveQueue)) ∧
    (∀ x es, x = s.serveQueue → es = x.plb.testq.filter (fun t => t.unit == u && t.purpose == .kat) → es.any (fun t => t.active) = false →
      exec (.engKatTimeout u) s = .next (serveBad 300 (answerWaiters stAborted 5 (es.flatMap (fun t => t.waiters))
        { x with plb := { x.plb with testq := x.plb.testq.map (fun t =>
            if t.unit = u ∧ t.purpose = .kat then { t with waiters := [], late := t.late || !t.waiters.isEmpty } else t) } }))) ∧
    (s.boot.step = 12 → s.mbx.undercoat = false → s.pwr.st = .run ∨ s.pwr.st = .idle → exec .dailyCycle s = .next s.startCycle) ∧
    (∀ slack temp, 151 ≤ u → u < 183 → s.boot.step = 12 → exec (.plbMarginLow u slack temp) s = .next (s.putDie (u - 151) slack temp)) ∧
    (∀ slack temp, u < 151 → (s.unit u).st ≠ .retired → s.boot.step = 12 →
      (tempOk temp = true → s105 slack temp < 15 → exec (.plbMarginLow u slack temp) s =
        .next ((s.putInsitu u slack temp).report 608 u).askPlan) ∧
      (¬ (tempOk temp = true ∧ s105 slack temp < 15) → exec (.plbMarginLow u slack temp) s = .next (s.putInsitu u slack temp))) ∧
    (s.plb.retryDue = true → exec .replanRetry s = .next (({ s with plb := { s.plb with retryDue := false } } : State).askPlan)) ∧
    (∀ t f x y, s.activeEnt u = some t → t.purpose = .derate → (s.unit u).st = .test → f = min 2 ((s.unit u).step + 1) →
      x = ((((s.setStep u f).dropActive u).endDrain u).planUnit u (fun p =>
        { p with step := f, tDerate := (s.bkp.rtc >>> 15).setWidth 32 })) →
      y = (x.devLogOther (BitVec.ofNat 16 u) (unitDetail u 1 1 0)).devStatus →
      exec (.clockRelock u) s = .next (({ y with plb := { y.plb with
        derated := y.plb.derated + 1, toDerate := y.plb.toDerate.filter (fun v => v != u) } } : State).goPlan.serveQueue)) ∧
    (∀ t slack temp, s.activeEnt u = some t → t.purpose = .measure → (s.unit u).st = .test →
      (tempOk temp = true → exec (.drainedMeasurementDone u slack temp) s =
        .next (planLoop 3 ((((((s.putDrained u slack temp).putResult u 1 0).dropActive u).endDrain u).fixRunning).serveQueue))) ∧
      (tempOk temp = false → exec (.drainedMeasurementDone u slack temp) s = .next (planLoop 3 (((({ s with plb := { s.plb with
        testq := (s.plb.testq.filter (fun x => !(x.unit == u && x.active))) ++ [{ t with active := false }] } } : State).endDrain
          u).fixRunning).serveQueue)))) ∧
    (s.plb.cycle = true → exec .cycleWaitExpiry s = .next (planLoop 3 { s with plb := { s.plb with
      testq := s.plb.testq.filter (fun t => !(t.purpose == .measure && !t.active)) } }))

/-- vfclr sets LTH_VFAULT to 0, and with FN[0] = 1 also VSTART, when its microword ends; vfrd writes the value of
LTH_VFAULT into X[VD]. Both need VS1 = VS2 = 0 and EW = 2, and vfclr VD = 0: any other encoding latches RESV_SOP. The
premises on what else the microword stages say that no other slot of it writes the same place. States R278. -/
def Obligations.FaultRecordIsReadAndCleared : Prop :=
  ∀ (s : State) (n : Nat) (j : Job) (v : VSlot) (e : Lath), Issues s n j → e = s.lath n → v.u = 0 → v.msk = 0 →
    (v.ew = 2 → v.vs1 = 0 → v.vs2 = 0 →
      (v.vd = 0 → v.fnIn 1 = true → e.stage.fault = none → ∃ t, exec (.mVfclr n v) s = .next t ∧
        ((t.updLath n Lath.commit).lath n).vfault = {} ∧
        (v.fn = 1 → e.stage.vsMts = none → ((t.updLath n Lath.commit).lath n).r.vstart = 0) ∧
        (v.fn = 0 → e.stage.vsMts = none → e.stage.vsClr = false → e.stage.vsElem = false →
          ((t.updLath n Lath.commit).lath n).r.vstart = e.r.vstart)) ∧
      (v.fn = 0 → v.d ≠ 0 → e.stage.x = [] → ∃ t, exec (.mVfrd n v) s = .next t ∧
        ((t.updLath n Lath.commit).lath n).xr v.d = e.vfault.word)) ∧
    (v.ew ≠ 2 ∨ v.vs1 ≠ 0 ∨ v.vs2 ≠ 0 → exec (.mVfclr n v) s = .next (s.engCause n bResvSop) ∧
      exec (.mVfrd n v) s = .next (s.engCause n bResvSop)) ∧
    (v.vd ≠ 0 → exec (.mVfclr n v) s = .next (s.engCause n bResvSop))

/-- vbmul computes, for each pair i of V[VS1] and V[VS2], the product of two polynomials of degree 1 modulo X^2 - gamma_i
and 3 329. FN must be 0: any other FN latches RESV_SOP. The premises on VL, VSTART and the mask are those of R256.
States R257. -/
def Obligations.BaseCaseProducts : Prop :=
  ∀ (s : State) (n : Nat) (j : Job) (v : VSlot) (e : Lath), Ready s n j [v.a, v.b] → e = s.lath n → v.u = 0 → v.ew = 2 → v.msk = 0 →
    e.r.vl = 256 → e.r.vstart = 0 →
    (v.fn = 0 → ∃ l : List W32, l.length = 256 ∧
      exec (.mVbmul n v) s = .next ((s.stage n (fun t => { t with vsElem := true })).stageV n v.d l) ∧
      ∀ i < 128, ∀ a0 a1 b0 b1 g : Nat, a0 = (elt (e.vr v.a) (2 * i)).toNat → a1 = (elt (e.vr v.a) (2 * i + 1)).toNat →
        b0 = (elt (e.vr v.b) (2 * i)).toNat → b1 = (elt (e.vr v.b) (2 * i + 1)).toNat → g = 17 ^ (2 * bitRev 7 i + 1) % 3329 →
        (elt l (2 * i)).toNat = (a0 * b0 + a1 * b1 * g) % 3329 ∧ (elt l (2 * i + 1)).toNat = (a0 * b1 + a1 * b0) % 3329) ∧
    (v.fn ≠ 0 → exec (.mVbmul n v) s = .next (s.engCause n bResvSop))

/-- The results of scr.status: the latched causes, bit g being 1 when SCR_CAUSEg is not 0, the recovery count
SCR_RECOVERY.TOTAL and the event queue fill EVQ_STATUS.FILL. It changes nothing. States R542. -/
def Obligations.ScrimStatusAnswers : Prop :=
  ∀ (s x : State) (h : Hdr), x = running s h → Runs s h { smb := true, basic := true } →
    ∃ m : Nat, (∀ g, m.testBit g = (decide (g < 24) && decide (x.cause g ≠ 0))) ∧
      exec (.scrStatus h) s = answered h x x (leBytes 4 m ++ leBytes 2 x.scr.total.toNat ++ leBytes 2 x.scr.evq.length)

/-- The condition of BRANCH, evaluated after the other slots of the microword have completed: bit 0 of the next address is
the condition that CSEL names. A reserved CSEL latches RESV_COND. States R214. -/
def Obligations.BranchConditions : Prop :=
  ∀ (s y : State) (n : Nat) (j : Job) (e : Lath) (next : BitVec 14), Issues s n j → (s.lath n).stage.conflict = false →
    y = committed s n false → e = y.lath n → e.gap < 4096 →
    ∀ (branches : BitVec 6 → Bool → Prop), branches = (fun csel c => exec (.mBranch n csel next) s =
        .next (y.goto n (e.here (if c then setBit next 0 else clrBit next 0)))) →
      branches 0 true ∧ branches 1 e.r.z ∧ branches 2 (!e.r.z) ∧ branches 3 e.r.n ∧ branches 4 (!e.r.n) ∧ branches 5 e.r.c ∧
      branches 6 (!e.r.c) ∧ branches 7 (decide (e.r.vl = 0)) ∧ branches 8 (decide (∃ i < e.r.vl, (e.mr 0).getLsbD i = true)) ∧
      branches 9 (decide (¬ ∃ i < e.r.vl, (e.mr 0).getLsbD i = true)) ∧ branches 10 e.spg.isNone ∧ branches 11 (decide (e.dma = [])) ∧
      branches 12 (decide ((y.gen (maskGenOf n)).st = .ok)) ∧ branches 13 e.vfault.valid ∧
      (∀ csel : BitVec 6, 14 ≤ csel.toNat → csel.toNat ≤ 31 → exec (.mBranch n csel next) s = .next (y.engCause n bResvCond)) ∧
      (∀ r : BitVec 5, branches (BitVec.ofNat 6 (32 + r.toNat)) ((e.xr r.toNat).getLsbD 0))
end

