-- ==== Sys2Proof/Laws/Table.lean ====
section
/-!
SUPPORT. The sparse table: read after write, and the canonical form that every write keeps.
-/
namespace Sys2Proof

variable {α : Type}

@[simp] theorem Tbl.get_nil (d : α) (k : Nat) : Tbl.get d [] k = d := rfl

theorem Tbl.get_erase_ne (d : α) (t : Tbl α) {k m : Nat} (h : m ≠ k) : Tbl.get d (Tbl.erase t k) m = Tbl.get d t m := by
  induction t with
  | nil => rfl
  | cons p t ih =>
    obtain ⟨i, v⟩ := p
    simp only [Tbl.erase, Tbl.get]
    split
    · rename_i e
      rw [if_neg (by omega), ih]
    · simp only [Tbl.get, ih]

theorem Tbl.get_erase_self (d : α) (t : Tbl α) (k : Nat) : Tbl.get d (Tbl.erase t k) k = d := by
  induction t with
  | nil => rfl
  | cons p t ih =>
    obtain ⟨i, v⟩ := p
    rw [Tbl.erase]
    split
    · exact ih
    · rename_i e
      rw [Tbl.get, if_neg e]
      exact ih

theorem Tbl.get_insert_self (d : α) (t : Tbl α) (k : Nat) (x : α) : Tbl.get d (Tbl.insert t k x) k = x := by
  induction t with
  | nil => simp [Tbl.insert, Tbl.get]
  | cons p t ih =>
    obtain ⟨i, v⟩ := p
    simp only [Tbl.insert]
    split
    · simp [Tbl.get]
    · split
      · simp [Tbl.get]
      · rename_i e
        simp [Tbl.get, e, ih]

theorem Tbl.get_insert_ne (d : α) (t : Tbl α) {k m : Nat} (x : α) (h : m ≠ k) :
    Tbl.get d (Tbl.insert t k x) m = Tbl.get d t m := by
  induction t with
  | nil => simp [Tbl.insert, Tbl.get, h.symm]
  | cons p t ih =>
    obtain ⟨i, v⟩ := p
    simp only [Tbl.insert]
    split
    · simp [Tbl.get, h.symm]
    · split
      · rename_i e
        simp only [Tbl.get, if_neg h.symm, e]
      · simp only [Tbl.get, ih]

variable [DecidableEq α]

theorem Tbl.wfFrom_mono (d : α) {a b : Nat} (h : a ≤ b) {t : Tbl α} (w : Tbl.wfFrom d b t = true) :
    Tbl.wfFrom d a t = true := by
  cases t with
  | nil => rfl
  | cons p t =>
    obtain ⟨i, v⟩ := p
    simp only [Tbl.wfFrom, Bool.and_eq_true, decide_eq_true_eq] at w ⊢
    exact ⟨⟨by omega, w.1.2⟩, w.2⟩

/-- An index below the first listed one reads as the default. -/
theorem Tbl.get_below (d : α) {n k : Nat} (h : k < n) {t : Tbl α} (w : Tbl.wfFrom d n t = true) : Tbl.get d t k = d := by
  induction t generalizing n with
  | nil => rfl
  | cons p t ih =>
    obtain ⟨i, v⟩ := p
    simp only [Tbl.wfFrom, Bool.and_eq_true, decide_eq_true_eq] at w
    rw [Tbl.get, if_neg (by omega)]
    exact ih (by omega) w.2

theorem Tbl.wfFrom_erase (d : α) {n : Nat} {t : Tbl α} (w : Tbl.wfFrom d n t = true) (k : Nat) :
    Tbl.wfFrom d n (Tbl.erase t k) = true := by
  induction t generalizing n with
  | nil => rfl
  | cons p t ih =>
    obtain ⟨i, v⟩ := p
    simp only [Tbl.wfFrom, Bool.and_eq_true, decide_eq_true_eq] at w
    rw [Tbl.erase]
    split
    · exact Tbl.wfFrom_mono d (by omega) (ih w.2)
    · simp only [Tbl.wfFrom, Bool.and_eq_true, decide_eq_true_eq]
      exact ⟨w.1, ih w.2⟩

theorem Tbl.wfFrom_insert (d : α) {n : Nat} {t : Tbl α} (w : Tbl.wfFrom d n t = true) {k : Nat} {x : α} (h : n ≤ k)
    (hx : x ≠ d) : Tbl.wfFrom d n (Tbl.insert t k x) = true := by
  induction t generalizing n with
  | nil => simp [Tbl.insert, Tbl.wfFrom, h, hx]
  | cons p t ih =>
    obtain ⟨i, v⟩ := p
    simp only [Tbl.wfFrom, Bool.and_eq_true, decide_eq_true_eq] at w
    rw [Tbl.insert]
    split
    · simp only [Tbl.wfFrom, Bool.and_eq_true, decide_eq_true_eq]
      exact ⟨⟨h, hx⟩, ⟨⟨by omega, w.1.2⟩, w.2⟩⟩
    · split
      · rename_i e
        simp only [Tbl.wfFrom, Bool.and_eq_true, decide_eq_true_eq]
        exact ⟨⟨h, hx⟩, e ▸ w.2⟩
      · simp only [Tbl.wfFrom, Bool.and_eq_true, decide_eq_true_eq]
        exact ⟨w.1, ih w.2 (by omega)⟩

@[simp] theorem Tbl.wf_nil (d : α) : Tbl.wf d ([] : Tbl α) = true := rfl

/-- A write keeps the canonical form. -/
theorem Tbl.wf_set (d : α) {t : Tbl α} (w : Tbl.wf d t = true) (k : Nat) (x : α) : Tbl.wf d (Tbl.set d t k x) = true := by
  unfold Tbl.set
  split
  · exact Tbl.wfFrom_erase d w k
  · rename_i e
    exact Tbl.wfFrom_insert d w (Nat.zero_le _) e

theorem Tbl.wf_upd (d : α) {t : Tbl α} (w : Tbl.wf d t = true) (k : Nat) (f : α → α) : Tbl.wf d (Tbl.upd d t k f) = true :=
  Tbl.wf_set d w k _

theorem Tbl.wfFrom_map (d : α) (f : Nat → α → α) {n : Nat} {t : Tbl α} (w : Tbl.wfFrom d n t = true) :
    Tbl.wfFrom d n (Tbl.map d f t) = true := by
  induction t generalizing n with
  | nil => rfl
  | cons p t ih =>
    obtain ⟨i, v⟩ := p
    simp only [Tbl.wfFrom, Bool.and_eq_true, decide_eq_true_eq] at w
    rw [Tbl.map]
    split
    · exact Tbl.wfFrom_mono d (by omega) (ih w.2)
    · rename_i e
      simp only [Tbl.wfFrom, Bool.and_eq_true, decide_eq_true_eq]
      exact ⟨⟨w.1.1, e⟩, ih w.2⟩

/-- The value written is the value read. -/
@[simp] theorem Tbl.get_set_self (d : α) (t : Tbl α) (k : Nat) (x : α) : Tbl.get d (Tbl.set d t k x) k = x := by
  unfold Tbl.set
  split
  · rename_i e
    rw [e]
    exact Tbl.get_erase_self d t k
  · exact Tbl.get_insert_self d t k x

/-- A write leaves every other index alone. -/
@[simp] theorem Tbl.get_set_ne (d : α) (t : Tbl α) {k m : Nat} (x : α) (h : m ≠ k) :
    Tbl.get d (Tbl.set d t k x) m = Tbl.get d t m := by
  unfold Tbl.set
  split
  · exact Tbl.get_erase_ne d t h
  · exact Tbl.get_insert_ne d t x h

@[simp] theorem Tbl.get_upd_ne (d : α) (t : Tbl α) {k m : Nat} (f : α → α) (h : m ≠ k) :
    Tbl.get d (Tbl.upd d t k f) m = Tbl.get d t m := Tbl.get_set_ne d t _ h

@[simp] theorem Tbl.get_upd_self (d : α) (t : Tbl α) (k : Nat) (f : α → α) :
    Tbl.get d (Tbl.upd d t k f) k = f (Tbl.get d t k) := Tbl.get_set_self d t k _

end Sys2Proof
end

