-- ==== Sys2Proof/Laws/State.lean ====
section
/-!
SUPPORT. What the named updates of Machine/Ops.lean leave alone: one lemma per update and part of State, true by definition;
and read after write of the tables of State.
-/
namespace Sys2Proof.Machine

/-! `State.updFn` -/

@[simp] theorem State.updFn_que (s : State) (f : Nat) (g : Fn → Fn) : (State.updFn s f g).que = s.que := rfl
@[simp] theorem State.updFn_mbx (s : State) (f : Nat) (g : Fn → Fn) : (State.updFn s f g).mbx = s.mbx := rfl
@[simp] theorem State.updFn_rdr (s : State) (f : Nat) (g : Fn → Fn) : (State.updFn s f g).rdr = s.rdr := rfl
@[simp] theorem State.updFn_lth (s : State) (f : Nat) (g : Fn → Fn) : (State.updFn s f g).lth = s.lth := rfl
@[simp] theorem State.updFn_spg (s : State) (f : Nat) (g : Fn → Fn) : (State.updFn s f g).spg = s.spg := rfl
@[simp] theorem State.updFn_hwk (s : State) (f : Nat) (g : Fn → Fn) : (State.updFn s f g).hwk = s.hwk := rfl
@[simp] theorem State.updFn_grt (s : State) (f : Nat) (g : Fn → Fn) : (State.updFn s f g).grt = s.grt := rfl
@[simp] theorem State.updFn_bnd (s : State) (f : Nat) (g : Fn → Fn) : (State.updFn s f g).bnd = s.bnd := rfl
@[simp] theorem State.updFn_scr (s : State) (f : Nat) (g : Fn → Fn) : (State.updFn s f g).scr = s.scr := rfl
@[simp] theorem State.updFn_flt (s : State) (f : Nat) (g : Fn → Fn) : (State.updFn s f g).flt = s.flt := rfl
@[simp] theorem State.updFn_pwr (s : State) (f : Nat) (g : Fn → Fn) : (State.updFn s f g).pwr = s.pwr := rfl
@[simp] theorem State.updFn_boot (s : State) (f : Nat) (g : Fn → Fn) : (State.updFn s f g).boot = s.boot := rfl
@[simp] theorem State.updFn_plb (s : State) (f : Nat) (g : Fn → Fn) : (State.updFn s f g).plb = s.plb := rfl
@[simp] theorem State.updFn_lcy (s : State) (f : Nat) (g : Fn → Fn) : (State.updFn s f g).lcy = s.lcy := rfl
@[simp] theorem State.updFn_tmp (s : State) (f : Nat) (g : Fn → Fn) : (State.updFn s f g).tmp = s.tmp := rfl
@[simp] theorem State.updFn_bkp (s : State) (f : Nat) (g : Fn → Fn) : (State.updFn s f g).bkp = s.bkp := rfl
@[simp] theorem State.updFn_mram (s : State) (f : Nat) (g : Fn → Fn) : (State.updFn s f g).mram = s.mram := rfl
@[simp] theorem State.updFn_otp (s : State) (f : Nat) (g : Fn → Fn) : (State.updFn s f g).otp = s.otp := rfl
@[simp] theorem State.updFn_commits (s : State) (f : Nat) (g : Fn → Fn) : (State.updFn s f g).commits = s.commits := rfl
@[simp] theorem State.updFn_jtag (s : State) (f : Nat) (g : Fn → Fn) : (State.updFn s f g).jtag = s.jtag := rfl
@[simp] theorem State.updFn_clk (s : State) (f : Nat) (g : Fn → Fn) : (State.updFn s f g).clk = s.clk := rfl
@[simp] theorem State.updFn_freeCtr (s : State) (f : Nat) (g : Fn → Fn) : (State.updFn s f g).freeCtr = s.freeCtr := rfl
@[simp] theorem State.updFn_sent (s : State) (f : Nat) (g : Fn → Fn) : (State.updFn s f g).sent = s.sent := rfl
@[simp] theorem State.updFn_pending (s : State) (f : Nat) (g : Fn → Fn) : (State.updFn s f g).pending = s.pending := rfl

/-! `State.updQueue` -/

@[simp] theorem State.updQueue_pcie (s : State) (q : Nat) (g : Queue → Queue) : (State.updQueue s q g).pcie = s.pcie := rfl
@[simp] theorem State.updQueue_mbx (s : State) (q : Nat) (g : Queue → Queue) : (State.updQueue s q g).mbx = s.mbx := rfl
@[simp] theorem State.updQueue_rdr (s : State) (q : Nat) (g : Queue → Queue) : (State.updQueue s q g).rdr = s.rdr := rfl
@[simp] theorem State.updQueue_lth (s : State) (q : Nat) (g : Queue → Queue) : (State.updQueue s q g).lth = s.lth := rfl
@[simp] theorem State.updQueue_spg (s : State) (q : Nat) (g : Queue → Queue) : (State.updQueue s q g).spg = s.spg := rfl
@[simp] theorem State.updQueue_hwk (s : State) (q : Nat) (g : Queue → Queue) : (State.updQueue s q g).hwk = s.hwk := rfl
@[simp] theorem State.updQueue_grt (s : State) (q : Nat) (g : Queue → Queue) : (State.updQueue s q g).grt = s.grt := rfl
@[simp] theorem State.updQueue_bnd (s : State) (q : Nat) (g : Queue → Queue) : (State.updQueue s q g).bnd = s.bnd := rfl
@[simp] theorem State.updQueue_scr (s : State) (q : Nat) (g : Queue → Queue) : (State.updQueue s q g).scr = s.scr := rfl
@[simp] theorem State.updQueue_flt (s : State) (q : Nat) (g : Queue → Queue) : (State.updQueue s q g).flt = s.flt := rfl
@[simp] theorem State.updQueue_pwr (s : State) (q : Nat) (g : Queue → Queue) : (State.updQueue s q g).pwr = s.pwr := rfl
@[simp] theorem State.updQueue_boot (s : State) (q : Nat) (g : Queue → Queue) : (State.updQueue s q g).boot = s.boot := rfl
@[simp] theorem State.updQueue_plb (s : State) (q : Nat) (g : Queue → Queue) : (State.updQueue s q g).plb = s.plb := rfl
@[simp] theorem State.updQueue_lcy (s : State) (q : Nat) (g : Queue → Queue) : (State.updQueue s q g).lcy = s.lcy := rfl
@[simp] theorem State.updQueue_tmp (s : State) (q : Nat) (g : Queue → Queue) : (State.updQueue s q g).tmp = s.tmp := rfl
@[simp] theorem State.updQueue_bkp (s : State) (q : Nat) (g : Queue → Queue) : (State.updQueue s q g).bkp = s.bkp := rfl
@[simp] theorem State.updQueue_mram (s : State) (q : Nat) (g : Queue → Queue) : (State.updQueue s q g).mram = s.mram := rfl
@[simp] theorem State.updQueue_otp (s : State) (q : Nat) (g : Queue → Queue) : (State.updQueue s q g).otp = s.otp := rfl
@[simp] theorem State.updQueue_commits (s : State) (q : Nat) (g : Queue → Queue) : (State.updQueue s q g).commits = s.commits := rfl
@[simp] theorem State.updQueue_jtag (s : State) (q : Nat) (g : Queue → Queue) : (State.updQueue s q g).jtag = s.jtag := rfl
@[simp] theorem State.updQueue_clk (s : State) (q : Nat) (g : Queue → Queue) : (State.updQueue s q g).clk = s.clk := rfl
@[simp] theorem State.updQueue_freeCtr (s : State) (q : Nat) (g : Queue → Queue) : (State.updQueue s q g).freeCtr = s.freeCtr := rfl
@[simp] theorem State.updQueue_sent (s : State) (q : Nat) (g : Queue → Queue) : (State.updQueue s q g).sent = s.sent := rfl
@[simp] theorem State.updQueue_pending (s : State) (q : Nat) (g : Queue → Queue) : (State.updQueue s q g).pending = s.pending := rfl

/-! `State.updSlot` -/

@[simp] theorem State.updSlot_pcie (s : State) (k : Nat) (g : BSlot → BSlot) : (State.updSlot s k g).pcie = s.pcie := rfl
@[simp] theorem State.updSlot_que (s : State) (k : Nat) (g : BSlot → BSlot) : (State.updSlot s k g).que = s.que := rfl
@[simp] theorem State.updSlot_mbx (s : State) (k : Nat) (g : BSlot → BSlot) : (State.updSlot s k g).mbx = s.mbx := rfl
@[simp] theorem State.updSlot_rdr (s : State) (k : Nat) (g : BSlot → BSlot) : (State.updSlot s k g).rdr = s.rdr := rfl
@[simp] theorem State.updSlot_lth (s : State) (k : Nat) (g : BSlot → BSlot) : (State.updSlot s k g).lth = s.lth := rfl
@[simp] theorem State.updSlot_spg (s : State) (k : Nat) (g : BSlot → BSlot) : (State.updSlot s k g).spg = s.spg := rfl
@[simp] theorem State.updSlot_hwk (s : State) (k : Nat) (g : BSlot → BSlot) : (State.updSlot s k g).hwk = s.hwk := rfl
@[simp] theorem State.updSlot_grt (s : State) (k : Nat) (g : BSlot → BSlot) : (State.updSlot s k g).grt = s.grt := rfl
@[simp] theorem State.updSlot_scr (s : State) (k : Nat) (g : BSlot → BSlot) : (State.updSlot s k g).scr = s.scr := rfl
@[simp] theorem State.updSlot_flt (s : State) (k : Nat) (g : BSlot → BSlot) : (State.updSlot s k g).flt = s.flt := rfl
@[simp] theorem State.updSlot_pwr (s : State) (k : Nat) (g : BSlot → BSlot) : (State.updSlot s k g).pwr = s.pwr := rfl
@[simp] theorem State.updSlot_boot (s : State) (k : Nat) (g : BSlot → BSlot) : (State.updSlot s k g).boot = s.boot := rfl
@[simp] theorem State.updSlot_plb (s : State) (k : Nat) (g : BSlot → BSlot) : (State.updSlot s k g).plb = s.plb := rfl
@[simp] theorem State.updSlot_lcy (s : State) (k : Nat) (g : BSlot → BSlot) : (State.updSlot s k g).lcy = s.lcy := rfl
@[simp] theorem State.updSlot_tmp (s : State) (k : Nat) (g : BSlot → BSlot) : (State.updSlot s k g).tmp = s.tmp := rfl
@[simp] theorem State.updSlot_bkp (s : State) (k : Nat) (g : BSlot → BSlot) : (State.updSlot s k g).bkp = s.bkp := rfl
@[simp] theorem State.updSlot_mram (s : State) (k : Nat) (g : BSlot → BSlot) : (State.updSlot s k g).mram = s.mram := rfl
@[simp] theorem State.updSlot_otp (s : State) (k : Nat) (g : BSlot → BSlot) : (State.updSlot s k g).otp = s.otp := rfl
@[simp] theorem State.updSlot_commits (s : State) (k : Nat) (g : BSlot → BSlot) : (State.updSlot s k g).commits = s.commits := rfl
@[simp] theorem State.updSlot_jtag (s : State) (k : Nat) (g : BSlot → BSlot) : (State.updSlot s k g).jtag = s.jtag := rfl
@[simp] theorem State.updSlot_clk (s : State) (k : Nat) (g : BSlot → BSlot) : (State.updSlot s k g).clk = s.clk := rfl
@[simp] theorem State.updSlot_freeCtr (s : State) (k : Nat) (g : BSlot → BSlot) : (State.updSlot s k g).freeCtr = s.freeCtr := rfl
@[simp] theorem State.updSlot_sent (s : State) (k : Nat) (g : BSlot → BSlot) : (State.updSlot s k g).sent = s.sent := rfl
@[simp] theorem State.updSlot_pending (s : State) (k : Nat) (g : BSlot → BSlot) : (State.updSlot s k g).pending = s.pending := rfl

/-! `State.updPair` -/

@[simp] theorem State.updPair_pcie (s : State) (n : Nat) (g : Pair → Pair) : (State.updPair s n g).pcie = s.pcie := rfl
@[simp] theorem State.updPair_que (s : State) (n : Nat) (g : Pair → Pair) : (State.updPair s n g).que = s.que := rfl
@[simp] theorem State.updPair_mbx (s : State) (n : Nat) (g : Pair → Pair) : (State.updPair s n g).mbx = s.mbx := rfl
@[simp] theorem State.updPair_lth (s : State) (n : Nat) (g : Pair → Pair) : (State.updPair s n g).lth = s.lth := rfl
@[simp] theorem State.updPair_spg (s : State) (n : Nat) (g : Pair → Pair) : (State.updPair s n g).spg = s.spg := rfl
@[simp] theorem State.updPair_hwk (s : State) (n : Nat) (g : Pair → Pair) : (State.updPair s n g).hwk = s.hwk := rfl
@[simp] theorem State.updPair_grt (s : State) (n : Nat) (g : Pair → Pair) : (State.updPair s n g).grt = s.grt := rfl
@[simp] theorem State.updPair_bnd (s : State) (n : Nat) (g : Pair → Pair) : (State.updPair s n g).bnd = s.bnd := rfl
@[simp] theorem State.updPair_scr (s : State) (n : Nat) (g : Pair → Pair) : (State.updPair s n g).scr = s.scr := rfl
@[simp] theorem State.updPair_flt (s : State) (n : Nat) (g : Pair → Pair) : (State.updPair s n g).flt = s.flt := rfl
@[simp] theorem State.updPair_pwr (s : State) (n : Nat) (g : Pair → Pair) : (State.updPair s n g).pwr = s.pwr := rfl
@[simp] theorem State.updPair_boot (s : State) (n : Nat) (g : Pair → Pair) : (State.updPair s n g).boot = s.boot := rfl
@[simp] theorem State.updPair_plb (s : State) (n : Nat) (g : Pair → Pair) : (State.updPair s n g).plb = s.plb := rfl
@[simp] theorem State.updPair_lcy (s : State) (n : Nat) (g : Pair → Pair) : (State.updPair s n g).lcy = s.lcy := rfl
@[simp] theorem State.updPair_tmp (s : State) (n : Nat) (g : Pair → Pair) : (State.updPair s n g).tmp = s.tmp := rfl
@[simp] theorem State.updPair_bkp (s : State) (n : Nat) (g : Pair → Pair) : (State.updPair s n g).bkp = s.bkp := rfl
@[simp] theorem State.updPair_mram (s : State) (n : Nat) (g : Pair → Pair) : (State.updPair s n g).mram = s.mram := rfl
@[simp] theorem State.updPair_otp (s : State) (n : Nat) (g : Pair → Pair) : (State.updPair s n g).otp = s.otp := rfl
@[simp] theorem State.updPair_commits (s : State) (n : Nat) (g : Pair → Pair) : (State.updPair s n g).commits = s.commits := rfl
@[simp] theorem State.updPair_jtag (s : State) (n : Nat) (g : Pair → Pair) : (State.updPair s n g).jtag = s.jtag := rfl
@[simp] theorem State.updPair_clk (s : State) (n : Nat) (g : Pair → Pair) : (State.updPair s n g).clk = s.clk := rfl
@[simp] theorem State.updPair_freeCtr (s : State) (n : Nat) (g : Pair → Pair) : (State.updPair s n g).freeCtr = s.freeCtr := rfl
@[simp] theorem State.updPair_sent (s : State) (n : Nat) (g : Pair → Pair) : (State.updPair s n g).sent = s.sent := rfl
@[simp] theorem State.updPair_pending (s : State) (n : Nat) (g : Pair → Pair) : (State.updPair s n g).pending = s.pending := rfl

/-! `State.updSub` -/

@[simp] theorem State.updSub_pcie (s : State) (p sub : Nat) (g : SubPort → SubPort) : (State.updSub s p sub g).pcie = s.pcie := rfl
@[simp] theorem State.updSub_que (s : State) (p sub : Nat) (g : SubPort → SubPort) : (State.updSub s p sub g).que = s.que := rfl
@[simp] theorem State.updSub_mbx (s : State) (p sub : Nat) (g : SubPort → SubPort) : (State.updSub s p sub g).mbx = s.mbx := rfl
@[simp] theorem State.updSub_lth (s : State) (p sub : Nat) (g : SubPort → SubPort) : (State.updSub s p sub g).lth = s.lth := rfl
@[simp] theorem State.updSub_spg (s : State) (p sub : Nat) (g : SubPort → SubPort) : (State.updSub s p sub g).spg = s.spg := rfl
@[simp] theorem State.updSub_hwk (s : State) (p sub : Nat) (g : SubPort → SubPort) : (State.updSub s p sub g).hwk = s.hwk := rfl
@[simp] theorem State.updSub_grt (s : State) (p sub : Nat) (g : SubPort → SubPort) : (State.updSub s p sub g).grt = s.grt := rfl
@[simp] theorem State.updSub_bnd (s : State) (p sub : Nat) (g : SubPort → SubPort) : (State.updSub s p sub g).bnd = s.bnd := rfl
@[simp] theorem State.updSub_scr (s : State) (p sub : Nat) (g : SubPort → SubPort) : (State.updSub s p sub g).scr = s.scr := rfl
@[simp] theorem State.updSub_flt (s : State) (p sub : Nat) (g : SubPort → SubPort) : (State.updSub s p sub g).flt = s.flt := rfl
@[simp] theorem State.updSub_pwr (s : State) (p sub : Nat) (g : SubPort → SubPort) : (State.updSub s p sub g).pwr = s.pwr := rfl
@[simp] theorem State.updSub_boot (s : State) (p sub : Nat) (g : SubPort → SubPort) : (State.updSub s p sub g).boot = s.boot := rfl
@[simp] theorem State.updSub_plb (s : State) (p sub : Nat) (g : SubPort → SubPort) : (State.updSub s p sub g).plb = s.plb := rfl
@[simp] theorem State.updSub_lcy (s : State) (p sub : Nat) (g : SubPort → SubPort) : (State.updSub s p sub g).lcy = s.lcy := rfl
@[simp] theorem State.updSub_tmp (s : State) (p sub : Nat) (g : SubPort → SubPort) : (State.updSub s p sub g).tmp = s.tmp := rfl
@[simp] theorem State.updSub_bkp (s : State) (p sub : Nat) (g : SubPort → SubPort) : (State.updSub s p sub g).bkp = s.bkp := rfl
@[simp] theorem State.updSub_mram (s : State) (p sub : Nat) (g : SubPort → SubPort) : (State.updSub s p sub g).mram = s.mram := rfl
@[simp] theorem State.updSub_otp (s : State) (p sub : Nat) (g : SubPort → SubPort) : (State.updSub s p sub g).otp = s.otp := rfl
@[simp] theorem State.updSub_commits (s : State) (p sub : Nat) (g : SubPort → SubPort) : (State.updSub s p sub g).commits = s.commits := rfl
@[simp] theorem State.updSub_jtag (s : State) (p sub : Nat) (g : SubPort → SubPort) : (State.updSub s p sub g).jtag = s.jtag := rfl
@[simp] theorem State.updSub_clk (s : State) (p sub : Nat) (g : SubPort → SubPort) : (State.updSub s p sub g).clk = s.clk := rfl
@[simp] theorem State.updSub_freeCtr (s : State) (p sub : Nat) (g : SubPort → SubPort) : (State.updSub s p sub g).freeCtr = s.freeCtr := rfl
@[simp] theorem State.updSub_sent (s : State) (p sub : Nat) (g : SubPort → SubPort) : (State.updSub s p sub g).sent = s.sent := rfl
@[simp] theorem State.updSub_pending (s : State) (p sub : Nat) (g : SubPort → SubPort) : (State.updSub s p sub g).pending = s.pending := rfl

/-! `State.updSa` -/

@[simp] theorem State.updSa_pcie (s : State) (dir a : Nat) (g : Sa → Sa) : (State.updSa s dir a g).pcie = s.pcie := rfl
@[simp] theorem State.updSa_que (s : State) (dir a : Nat) (g : Sa → Sa) : (State.updSa s dir a g).que = s.que := rfl
@[simp] theorem State.updSa_mbx (s : State) (dir a : Nat) (g : Sa → Sa) : (State.updSa s dir a g).mbx = s.mbx := rfl
@[simp] theorem State.updSa_lth (s : State) (dir a : Nat) (g : Sa → Sa) : (State.updSa s dir a g).lth = s.lth := rfl
@[simp] theorem State.updSa_spg (s : State) (dir a : Nat) (g : Sa → Sa) : (State.updSa s dir a g).spg = s.spg := rfl
@[simp] theorem State.updSa_hwk (s : State) (dir a : Nat) (g : Sa → Sa) : (State.updSa s dir a g).hwk = s.hwk := rfl
@[simp] theorem State.updSa_grt (s : State) (dir a : Nat) (g : Sa → Sa) : (State.updSa s dir a g).grt = s.grt := rfl
@[simp] theorem State.updSa_bnd (s : State) (dir a : Nat) (g : Sa → Sa) : (State.updSa s dir a g).bnd = s.bnd := rfl
@[simp] theorem State.updSa_scr (s : State) (dir a : Nat) (g : Sa → Sa) : (State.updSa s dir a g).scr = s.scr := rfl
@[simp] theorem State.updSa_flt (s : State) (dir a : Nat) (g : Sa → Sa) : (State.updSa s dir a g).flt = s.flt := rfl
@[simp] theorem State.updSa_pwr (s : State) (dir a : Nat) (g : Sa → Sa) : (State.updSa s dir a g).pwr = s.pwr := rfl
@[simp] theorem State.updSa_boot (s : State) (dir a : Nat) (g : Sa → Sa) : (State.updSa s dir a g).boot = s.boot := rfl
@[simp] theorem State.updSa_plb (s : State) (dir a : Nat) (g : Sa → Sa) : (State.updSa s dir a g).plb = s.plb := rfl
@[simp] theorem State.updSa_lcy (s : State) (dir a : Nat) (g : Sa → Sa) : (State.updSa s dir a g).lcy = s.lcy := rfl
@[simp] theorem State.updSa_tmp (s : State) (dir a : Nat) (g : Sa → Sa) : (State.updSa s dir a g).tmp = s.tmp := rfl
@[simp] theorem State.updSa_bkp (s : State) (dir a : Nat) (g : Sa → Sa) : (State.updSa s dir a g).bkp = s.bkp := rfl
@[simp] theorem State.updSa_mram (s : State) (dir a : Nat) (g : Sa → Sa) : (State.updSa s dir a g).mram = s.mram := rfl
@[simp] theorem State.updSa_otp (s : State) (dir a : Nat) (g : Sa → Sa) : (State.updSa s dir a g).otp = s.otp := rfl
@[simp] theorem State.updSa_commits (s : State) (dir a : Nat) (g : Sa → Sa) : (State.updSa s dir a g).commits = s.commits := rfl
@[simp] theorem State.updSa_jtag (s : State) (dir a : Nat) (g : Sa → Sa) : (State.updSa s dir a g).jtag = s.jtag := rfl
@[simp] theorem State.updSa_clk (s : State) (dir a : Nat) (g : Sa → Sa) : (State.updSa s dir a g).clk = s.clk := rfl
@[simp] theorem State.updSa_freeCtr (s : State) (dir a : Nat) (g : Sa → Sa) : (State.updSa s dir a g).freeCtr = s.freeCtr := rfl
@[simp] theorem State.updSa_sent (s : State) (dir a : Nat) (g : Sa → Sa) : (State.updSa s dir a g).sent = s.sent := rfl
@[simp] theorem State.updSa_pending (s : State) (dir a : Nat) (g : Sa → Sa) : (State.updSa s dir a g).pending = s.pending := rfl

/-! `State.updRnd` -/

@[simp] theorem State.updRnd_pcie (s : State) (n : Nat) (g : Rnd → Rnd) : (State.updRnd s n g).pcie = s.pcie := rfl
@[simp] theorem State.updRnd_que (s : State) (n : Nat) (g : Rnd → Rnd) : (State.updRnd s n g).que = s.que := rfl
@[simp] theorem State.updRnd_mbx (s : State) (n : Nat) (g : Rnd → Rnd) : (State.updRnd s n g).mbx = s.mbx := rfl
@[simp] theorem State.updRnd_lth (s : State) (n : Nat) (g : Rnd → Rnd) : (State.updRnd s n g).lth = s.lth := rfl
@[simp] theorem State.updRnd_spg (s : State) (n : Nat) (g : Rnd → Rnd) : (State.updRnd s n g).spg = s.spg := rfl
@[simp] theorem State.updRnd_hwk (s : State) (n : Nat) (g : Rnd → Rnd) : (State.updRnd s n g).hwk = s.hwk := rfl
@[simp] theorem State.updRnd_grt (s : State) (n : Nat) (g : Rnd → Rnd) : (State.updRnd s n g).grt = s.grt := rfl
@[simp] theorem State.updRnd_bnd (s : State) (n : Nat) (g : Rnd → Rnd) : (State.updRnd s n g).bnd = s.bnd := rfl
@[simp] theorem State.updRnd_scr (s : State) (n : Nat) (g : Rnd → Rnd) : (State.updRnd s n g).scr = s.scr := rfl
@[simp] theorem State.updRnd_flt (s : State) (n : Nat) (g : Rnd → Rnd) : (State.updRnd s n g).flt = s.flt := rfl
@[simp] theorem State.updRnd_pwr (s : State) (n : Nat) (g : Rnd → Rnd) : (State.updRnd s n g).pwr = s.pwr := rfl
@[simp] theorem State.updRnd_boot (s : State) (n : Nat) (g : Rnd → Rnd) : (State.updRnd s n g).boot = s.boot := rfl
@[simp] theorem State.updRnd_plb (s : State) (n : Nat) (g : Rnd → Rnd) : (State.updRnd s n g).plb = s.plb := rfl
@[simp] theorem State.updRnd_lcy (s : State) (n : Nat) (g : Rnd → Rnd) : (State.updRnd s n g).lcy = s.lcy := rfl
@[simp] theorem State.updRnd_tmp (s : State) (n : Nat) (g : Rnd → Rnd) : (State.updRnd s n g).tmp = s.tmp := rfl
@[simp] theorem State.updRnd_bkp (s : State) (n : Nat) (g : Rnd → Rnd) : (State.updRnd s n g).bkp = s.bkp := rfl
@[simp] theorem State.updRnd_mram (s : State) (n : Nat) (g : Rnd → Rnd) : (State.updRnd s n g).mram = s.mram := rfl
@[simp] theorem State.updRnd_otp (s : State) (n : Nat) (g : Rnd → Rnd) : (State.updRnd s n g).otp = s.otp := rfl
@[simp] theorem State.updRnd_commits (s : State) (n : Nat) (g : Rnd → Rnd) : (State.updRnd s n g).commits = s.commits := rfl
@[simp] theorem State.updRnd_jtag (s : State) (n : Nat) (g : Rnd → Rnd) : (State.updRnd s n g).jtag = s.jtag := rfl
@[simp] theorem State.updRnd_clk (s : State) (n : Nat) (g : Rnd → Rnd) : (State.updRnd s n g).clk = s.clk := rfl
@[simp] theorem State.updRnd_freeCtr (s : State) (n : Nat) (g : Rnd → Rnd) : (State.updRnd s n g).freeCtr = s.freeCtr := rfl
@[simp] theorem State.updRnd_sent (s : State) (n : Nat) (g : Rnd → Rnd) : (State.updRnd s n g).sent = s.sent := rfl
@[simp] theorem State.updRnd_pending (s : State) (n : Nat) (g : Rnd → Rnd) : (State.updRnd s n g).pending = s.pending := rfl

/-! `State.updLath` -/

@[simp] theorem State.updLath_pcie (s : State) (n : Nat) (g : Lath → Lath) : (State.updLath s n g).pcie = s.pcie := rfl
@[simp] theorem State.updLath_que (s : State) (n : Nat) (g : Lath → Lath) : (State.updLath s n g).que = s.que := rfl
@[simp] theorem State.updLath_mbx (s : State) (n : Nat) (g : Lath → Lath) : (State.updLath s n g).mbx = s.mbx := rfl
@[simp] theorem State.updLath_rdr (s : State) (n : Nat) (g : Lath → Lath) : (State.updLath s n g).rdr = s.rdr := rfl
@[simp] theorem State.updLath_spg (s : State) (n : Nat) (g : Lath → Lath) : (State.updLath s n g).spg = s.spg := rfl
@[simp] theorem State.updLath_hwk (s : State) (n : Nat) (g : Lath → Lath) : (State.updLath s n g).hwk = s.hwk := rfl
@[simp] theorem State.updLath_grt (s : State) (n : Nat) (g : Lath → Lath) : (State.updLath s n g).grt = s.grt := rfl
@[simp] theorem State.updLath_bnd (s : State) (n : Nat) (g : Lath → Lath) : (State.updLath s n g).bnd = s.bnd := rfl
@[simp] theorem State.updLath_scr (s : State) (n : Nat) (g : Lath → Lath) : (State.updLath s n g).scr = s.scr := rfl
@[simp] theorem State.updLath_flt (s : State) (n : Nat) (g : Lath → Lath) : (State.updLath s n g).flt = s.flt := rfl
@[simp] theorem State.updLath_pwr (s : State) (n : Nat) (g : Lath → Lath) : (State.updLath s n g).pwr = s.pwr := rfl
@[simp] theorem State.updLath_boot (s : State) (n : Nat) (g : Lath → Lath) : (State.updLath s n g).boot = s.boot := rfl
@[simp] theorem State.updLath_plb (s : State) (n : Nat) (g : Lath → Lath) : (State.updLath s n g).plb = s.plb := rfl
@[simp] theorem State.updLath_lcy (s : State) (n : Nat) (g : Lath → Lath) : (State.updLath s n g).lcy = s.lcy := rfl
@[simp] theorem State.updLath_tmp (s : State) (n : Nat) (g : Lath → Lath) : (State.updLath s n g).tmp = s.tmp := rfl
@[simp] theorem State.updLath_bkp (s : State) (n : Nat) (g : Lath → Lath) : (State.updLath s n g).bkp = s.bkp := rfl
@[simp] theorem State.updLath_mram (s : State) (n : Nat) (g : Lath → Lath) : (State.updLath s n g).mram = s.mram := rfl
@[simp] theorem State.updLath_otp (s : State) (n : Nat) (g : Lath → Lath) : (State.updLath s n g).otp = s.otp := rfl
@[simp] theorem State.updLath_commits (s : State) (n : Nat) (g : Lath → Lath) : (State.updLath s n g).commits = s.commits := rfl
@[simp] theorem State.updLath_jtag (s : State) (n : Nat) (g : Lath → Lath) : (State.updLath s n g).jtag = s.jtag := rfl
@[simp] theorem State.updLath_clk (s : State) (n : Nat) (g : Lath → Lath) : (State.updLath s n g).clk = s.clk := rfl
@[simp] theorem State.updLath_freeCtr (s : State) (n : Nat) (g : Lath → Lath) : (State.updLath s n g).freeCtr = s.freeCtr := rfl
@[simp] theorem State.updLath_sent (s : State) (n : Nat) (g : Lath → Lath) : (State.updLath s n g).sent = s.sent := rfl
@[simp] theorem State.updLath_pending (s : State) (n : Nat) (g : Lath → Lath) : (State.updLath s n g).pending = s.pending := rfl

/-! `State.updQuad` -/

@[simp] theorem State.updQuad_pcie (s : State) (q : Nat) (g : Quad → Quad) : (State.updQuad s q g).pcie = s.pcie := rfl
@[simp] theorem State.updQuad_que (s : State) (q : Nat) (g : Quad → Quad) : (State.updQuad s q g).que = s.que := rfl
@[simp] theorem State.updQuad_mbx (s : State) (q : Nat) (g : Quad → Quad) : (State.updQuad s q g).mbx = s.mbx := rfl
@[simp] theorem State.updQuad_rdr (s : State) (q : Nat) (g : Quad → Quad) : (State.updQuad s q g).rdr = s.rdr := rfl
@[simp] theorem State.updQuad_spg (s : State) (q : Nat) (g : Quad → Quad) : (State.updQuad s q g).spg = s.spg := rfl
@[simp] theorem State.updQuad_hwk (s : State) (q : Nat) (g : Quad → Quad) : (State.updQuad s q g).hwk = s.hwk := rfl
@[simp] theorem State.updQuad_grt (s : State) (q : Nat) (g : Quad → Quad) : (State.updQuad s q g).grt = s.grt := rfl
@[simp] theorem State.updQuad_bnd (s : State) (q : Nat) (g : Quad → Quad) : (State.updQuad s q g).bnd = s.bnd := rfl
@[simp] theorem State.updQuad_scr (s : State) (q : Nat) (g : Quad → Quad) : (State.updQuad s q g).scr = s.scr := rfl
@[simp] theorem State.updQuad_flt (s : State) (q : Nat) (g : Quad → Quad) : (State.updQuad s q g).flt = s.flt := rfl
@[simp] theorem State.updQuad_pwr (s : State) (q : Nat) (g : Quad → Quad) : (State.updQuad s q g).pwr = s.pwr := rfl
@[simp] theorem State.updQuad_boot (s : State) (q : Nat) (g : Quad → Quad) : (State.updQuad s q g).boot = s.boot := rfl
@[simp] theorem State.updQuad_plb (s : State) (q : Nat) (g : Quad → Quad) : (State.updQuad s q g).plb = s.plb := rfl
@[simp] theorem State.updQuad_lcy (s : State) (q : Nat) (g : Quad → Quad) : (State.updQuad s q g).lcy = s.lcy := rfl
@[simp] theorem State.updQuad_tmp (s : State) (q : Nat) (g : Quad → Quad) : (State.updQuad s q g).tmp = s.tmp := rfl
@[simp] theorem State.updQuad_bkp (s : State) (q : Nat) (g : Quad → Quad) : (State.updQuad s q g).bkp = s.bkp := rfl
@[simp] theorem State.updQuad_mram (s : State) (q : Nat) (g : Quad → Quad) : (State.updQuad s q g).mram = s.mram := rfl
@[simp] theorem State.updQuad_otp (s : State) (q : Nat) (g : Quad → Quad) : (State.updQuad s q g).otp = s.otp := rfl
@[simp] theorem State.updQuad_commits (s : State) (q : Nat) (g : Quad → Quad) : (State.updQuad s q g).commits = s.commits := rfl
@[simp] theorem State.updQuad_jtag (s : State) (q : Nat) (g : Quad → Quad) : (State.updQuad s q g).jtag = s.jtag := rfl
@[simp] theorem State.updQuad_clk (s : State) (q : Nat) (g : Quad → Quad) : (State.updQuad s q g).clk = s.clk := rfl
@[simp] theorem State.updQuad_freeCtr (s : State) (q : Nat) (g : Quad → Quad) : (State.updQuad s q g).freeCtr = s.freeCtr := rfl
@[simp] theorem State.updQuad_sent (s : State) (q : Nat) (g : Quad → Quad) : (State.updQuad s q g).sent = s.sent := rfl
@[simp] theorem State.updQuad_pending (s : State) (q : Nat) (g : Quad → Quad) : (State.updQuad s q g).pending = s.pending := rfl

/-! `State.updHawk` -/

@[simp] theorem State.updHawk_pcie (s : State) (n : Nat) (g : Hawk → Hawk) : (State.updHawk s n g).pcie = s.pcie := rfl
@[simp] theorem State.updHawk_que (s : State) (n : Nat) (g : Hawk → Hawk) : (State.updHawk s n g).que = s.que := rfl
@[simp] theorem State.updHawk_mbx (s : State) (n : Nat) (g : Hawk → Hawk) : (State.updHawk s n g).mbx = s.mbx := rfl
@[simp] theorem State.updHawk_rdr (s : State) (n : Nat) (g : Hawk → Hawk) : (State.updHawk s n g).rdr = s.rdr := rfl
@[simp] theorem State.updHawk_lth (s : State) (n : Nat) (g : Hawk → Hawk) : (State.updHawk s n g).lth = s.lth := rfl
@[simp] theorem State.updHawk_spg (s : State) (n : Nat) (g : Hawk → Hawk) : (State.updHawk s n g).spg = s.spg := rfl
@[simp] theorem State.updHawk_grt (s : State) (n : Nat) (g : Hawk → Hawk) : (State.updHawk s n g).grt = s.grt := rfl
@[simp] theorem State.updHawk_bnd (s : State) (n : Nat) (g : Hawk → Hawk) : (State.updHawk s n g).bnd = s.bnd := rfl
@[simp] theorem State.updHawk_scr (s : State) (n : Nat) (g : Hawk → Hawk) : (State.updHawk s n g).scr = s.scr := rfl
@[simp] theorem State.updHawk_flt (s : State) (n : Nat) (g : Hawk → Hawk) : (State.updHawk s n g).flt = s.flt := rfl
@[simp] theorem State.updHawk_pwr (s : State) (n : Nat) (g : Hawk → Hawk) : (State.updHawk s n g).pwr = s.pwr := rfl
@[simp] theorem State.updHawk_boot (s : State) (n : Nat) (g : Hawk → Hawk) : (State.updHawk s n g).boot = s.boot := rfl
@[simp] theorem State.updHawk_plb (s : State) (n : Nat) (g : Hawk → Hawk) : (State.updHawk s n g).plb = s.plb := rfl
@[simp] theorem State.updHawk_lcy (s : State) (n : Nat) (g : Hawk → Hawk) : (State.updHawk s n g).lcy = s.lcy := rfl
@[simp] theorem State.updHawk_tmp (s : State) (n : Nat) (g : Hawk → Hawk) : (State.updHawk s n g).tmp = s.tmp := rfl
@[simp] theorem State.updHawk_bkp (s : State) (n : Nat) (g : Hawk → Hawk) : (State.updHawk s n g).bkp = s.bkp := rfl
@[simp] theorem State.updHawk_mram (s : State) (n : Nat) (g : Hawk → Hawk) : (State.updHawk s n g).mram = s.mram := rfl
@[simp] theorem State.updHawk_otp (s : State) (n : Nat) (g : Hawk → Hawk) : (State.updHawk s n g).otp = s.otp := rfl
@[simp] theorem State.updHawk_commits (s : State) (n : Nat) (g : Hawk → Hawk) : (State.updHawk s n g).commits = s.commits := rfl
@[simp] theorem State.updHawk_jtag (s : State) (n : Nat) (g : Hawk → Hawk) : (State.updHawk s n g).jtag = s.jtag := rfl
@[simp] theorem State.updHawk_clk (s : State) (n : Nat) (g : Hawk → Hawk) : (State.updHawk s n g).clk = s.clk := rfl
@[simp] theorem State.updHawk_freeCtr (s : State) (n : Nat) (g : Hawk → Hawk) : (State.updHawk s n g).freeCtr = s.freeCtr := rfl
@[simp] theorem State.updHawk_sent (s : State) (n : Nat) (g : Hawk → Hawk) : (State.updHawk s n g).sent = s.sent := rfl
@[simp] theorem State.updHawk_pending (s : State) (n : Nat) (g : Hawk → Hawk) : (State.updHawk s n g).pending = s.pending := rfl

/-! `State.updCtx` -/

@[simp] theorem State.updCtx_pcie (s : State) (n : Nat) (g : Ctx → Ctx) : (State.updCtx s n g).pcie = s.pcie := rfl
@[simp] theorem State.updCtx_que (s : State) (n : Nat) (g : Ctx → Ctx) : (State.updCtx s n g).que = s.que := rfl
@[simp] theorem State.updCtx_mbx (s : State) (n : Nat) (g : Ctx → Ctx) : (State.updCtx s n g).mbx = s.mbx := rfl
@[simp] theorem State.updCtx_rdr (s : State) (n : Nat) (g : Ctx → Ctx) : (State.updCtx s n g).rdr = s.rdr := rfl
@[simp] theorem State.updCtx_lth (s : State) (n : Nat) (g : Ctx → Ctx) : (State.updCtx s n g).lth = s.lth := rfl
@[simp] theorem State.updCtx_hwk (s : State) (n : Nat) (g : Ctx → Ctx) : (State.updCtx s n g).hwk = s.hwk := rfl
@[simp] theorem State.updCtx_grt (s : State) (n : Nat) (g : Ctx → Ctx) : (State.updCtx s n g).grt = s.grt := rfl
@[simp] theorem State.updCtx_bnd (s : State) (n : Nat) (g : Ctx → Ctx) : (State.updCtx s n g).bnd = s.bnd := rfl
@[simp] theorem State.updCtx_scr (s : State) (n : Nat) (g : Ctx → Ctx) : (State.updCtx s n g).scr = s.scr := rfl
@[simp] theorem State.updCtx_flt (s : State) (n : Nat) (g : Ctx → Ctx) : (State.updCtx s n g).flt = s.flt := rfl
@[simp] theorem State.updCtx_pwr (s : State) (n : Nat) (g : Ctx → Ctx) : (State.updCtx s n g).pwr = s.pwr := rfl
@[simp] theorem State.updCtx_boot (s : State) (n : Nat) (g : Ctx → Ctx) : (State.updCtx s n g).boot = s.boot := rfl
@[simp] theorem State.updCtx_plb (s : State) (n : Nat) (g : Ctx → Ctx) : (State.updCtx s n g).plb = s.plb := rfl
@[simp] theorem State.updCtx_lcy (s : State) (n : Nat) (g : Ctx → Ctx) : (State.updCtx s n g).lcy = s.lcy := rfl
@[simp] theorem State.updCtx_tmp (s : State) (n : Nat) (g : Ctx → Ctx) : (State.updCtx s n g).tmp = s.tmp := rfl
@[simp] theorem State.updCtx_bkp (s : State) (n : Nat) (g : Ctx → Ctx) : (State.updCtx s n g).bkp = s.bkp := rfl
@[simp] theorem State.updCtx_mram (s : State) (n : Nat) (g : Ctx → Ctx) : (State.updCtx s n g).mram = s.mram := rfl
@[simp] theorem State.updCtx_otp (s : State) (n : Nat) (g : Ctx → Ctx) : (State.updCtx s n g).otp = s.otp := rfl
@[simp] theorem State.updCtx_commits (s : State) (n : Nat) (g : Ctx → Ctx) : (State.updCtx s n g).commits = s.commits := rfl
@[simp] theorem State.updCtx_jtag (s : State) (n : Nat) (g : Ctx → Ctx) : (State.updCtx s n g).jtag = s.jtag := rfl
@[simp] theorem State.updCtx_clk (s : State) (n : Nat) (g : Ctx → Ctx) : (State.updCtx s n g).clk = s.clk := rfl
@[simp] theorem State.updCtx_freeCtr (s : State) (n : Nat) (g : Ctx → Ctx) : (State.updCtx s n g).freeCtr = s.freeCtr := rfl
@[simp] theorem State.updCtx_sent (s : State) (n : Nat) (g : Ctx → Ctx) : (State.updCtx s n g).sent = s.sent := rfl
@[simp] theorem State.updCtx_pending (s : State) (n : Nat) (g : Ctx → Ctx) : (State.updCtx s n g).pending = s.pending := rfl

/-! `State.updCore` -/

@[simp] theorem State.updCore_pcie (s : State) (n : Nat) (g : Core → Core) : (State.updCore s n g).pcie = s.pcie := rfl
@[simp] theorem State.updCore_que (s : State) (n : Nat) (g : Core → Core) : (State.updCore s n g).que = s.que := rfl
@[simp] theorem State.updCore_mbx (s : State) (n : Nat) (g : Core → Core) : (State.updCore s n g).mbx = s.mbx := rfl
@[simp] theorem State.updCore_rdr (s : State) (n : Nat) (g : Core → Core) : (State.updCore s n g).rdr = s.rdr := rfl
@[simp] theorem State.updCore_lth (s : State) (n : Nat) (g : Core → Core) : (State.updCore s n g).lth = s.lth := rfl
@[simp] theorem State.updCore_hwk (s : State) (n : Nat) (g : Core → Core) : (State.updCore s n g).hwk = s.hwk := rfl
@[simp] theorem State.updCore_grt (s : State) (n : Nat) (g : Core → Core) : (State.updCore s n g).grt = s.grt := rfl
@[simp] theorem State.updCore_bnd (s : State) (n : Nat) (g : Core → Core) : (State.updCore s n g).bnd = s.bnd := rfl
@[simp] theorem State.updCore_scr (s : State) (n : Nat) (g : Core → Core) : (State.updCore s n g).scr = s.scr := rfl
@[simp] theorem State.updCore_flt (s : State) (n : Nat) (g : Core → Core) : (State.updCore s n g).flt = s.flt := rfl
@[simp] theorem State.updCore_pwr (s : State) (n : Nat) (g : Core → Core) : (State.updCore s n g).pwr = s.pwr := rfl
@[simp] theorem State.updCore_boot (s : State) (n : Nat) (g : Core → Core) : (State.updCore s n g).boot = s.boot := rfl
@[simp] theorem State.updCore_plb (s : State) (n : Nat) (g : Core → Core) : (State.updCore s n g).plb = s.plb := rfl
@[simp] theorem State.updCore_lcy (s : State) (n : Nat) (g : Core → Core) : (State.updCore s n g).lcy = s.lcy := rfl
@[simp] theorem State.updCore_tmp (s : State) (n : Nat) (g : Core → Core) : (State.updCore s n g).tmp = s.tmp := rfl
@[simp] theorem State.updCore_bkp (s : State) (n : Nat) (g : Core → Core) : (State.updCore s n g).bkp = s.bkp := rfl
@[simp] theorem State.updCore_mram (s : State) (n : Nat) (g : Core → Core) : (State.updCore s n g).mram = s.mram := rfl
@[simp] theorem State.updCore_otp (s : State) (n : Nat) (g : Core → Core) : (State.updCore s n g).otp = s.otp := rfl
@[simp] theorem State.updCore_commits (s : State) (n : Nat) (g : Core → Core) : (State.updCore s n g).commits = s.commits := rfl
@[simp] theorem State.updCore_jtag (s : State) (n : Nat) (g : Core → Core) : (State.updCore s n g).jtag = s.jtag := rfl
@[simp] theorem State.updCore_clk (s : State) (n : Nat) (g : Core → Core) : (State.updCore s n g).clk = s.clk := rfl
@[simp] theorem State.updCore_freeCtr (s : State) (n : Nat) (g : Core → Core) : (State.updCore s n g).freeCtr = s.freeCtr := rfl
@[simp] theorem State.updCore_sent (s : State) (n : Nat) (g : Core → Core) : (State.updCore s n g).sent = s.sent := rfl
@[simp] theorem State.updCore_pending (s : State) (n : Nat) (g : Core → Core) : (State.updCore s n g).pending = s.pending := rfl

/-! `State.updGen` -/

@[simp] theorem State.updGen_pcie (s : State) (n : Nat) (g : Gen → Gen) : (State.updGen s n g).pcie = s.pcie := rfl
@[simp] theorem State.updGen_que (s : State) (n : Nat) (g : Gen → Gen) : (State.updGen s n g).que = s.que := rfl
@[simp] theorem State.updGen_mbx (s : State) (n : Nat) (g : Gen → Gen) : (State.updGen s n g).mbx = s.mbx := rfl
@[simp] theorem State.updGen_rdr (s : State) (n : Nat) (g : Gen → Gen) : (State.updGen s n g).rdr = s.rdr := rfl
@[simp] theorem State.updGen_lth (s : State) (n : Nat) (g : Gen → Gen) : (State.updGen s n g).lth = s.lth := rfl
@[simp] theorem State.updGen_spg (s : State) (n : Nat) (g : Gen → Gen) : (State.updGen s n g).spg = s.spg := rfl
@[simp] theorem State.updGen_hwk (s : State) (n : Nat) (g : Gen → Gen) : (State.updGen s n g).hwk = s.hwk := rfl
@[simp] theorem State.updGen_bnd (s : State) (n : Nat) (g : Gen → Gen) : (State.updGen s n g).bnd = s.bnd := rfl
@[simp] theorem State.updGen_scr (s : State) (n : Nat) (g : Gen → Gen) : (State.updGen s n g).scr = s.scr := rfl
@[simp] theorem State.updGen_flt (s : State) (n : Nat) (g : Gen → Gen) : (State.updGen s n g).flt = s.flt := rfl
@[simp] theorem State.updGen_pwr (s : State) (n : Nat) (g : Gen → Gen) : (State.updGen s n g).pwr = s.pwr := rfl
@[simp] theorem State.updGen_boot (s : State) (n : Nat) (g : Gen → Gen) : (State.updGen s n g).boot = s.boot := rfl
@[simp] theorem State.updGen_plb (s : State) (n : Nat) (g : Gen → Gen) : (State.updGen s n g).plb = s.plb := rfl
@[simp] theorem State.updGen_lcy (s : State) (n : Nat) (g : Gen → Gen) : (State.updGen s n g).lcy = s.lcy := rfl
@[simp] theorem State.updGen_tmp (s : State) (n : Nat) (g : Gen → Gen) : (State.updGen s n g).tmp = s.tmp := rfl
@[simp] theorem State.updGen_bkp (s : State) (n : Nat) (g : Gen → Gen) : (State.updGen s n g).bkp = s.bkp := rfl
@[simp] theorem State.updGen_mram (s : State) (n : Nat) (g : Gen → Gen) : (State.updGen s n g).mram = s.mram := rfl
@[simp] theorem State.updGen_otp (s : State) (n : Nat) (g : Gen → Gen) : (State.updGen s n g).otp = s.otp := rfl
@[simp] theorem State.updGen_commits (s : State) (n : Nat) (g : Gen → Gen) : (State.updGen s n g).commits = s.commits := rfl
@[simp] theorem State.updGen_jtag (s : State) (n : Nat) (g : Gen → Gen) : (State.updGen s n g).jtag = s.jtag := rfl
@[simp] theorem State.updGen_clk (s : State) (n : Nat) (g : Gen → Gen) : (State.updGen s n g).clk = s.clk := rfl
@[simp] theorem State.updGen_freeCtr (s : State) (n : Nat) (g : Gen → Gen) : (State.updGen s n g).freeCtr = s.freeCtr := rfl
@[simp] theorem State.updGen_sent (s : State) (n : Nat) (g : Gen → Gen) : (State.updGen s n g).sent = s.sent := rfl
@[simp] theorem State.updGen_pending (s : State) (n : Nat) (g : Gen → Gen) : (State.updGen s n g).pending = s.pending := rfl

/-! `State.updSrc` -/

@[simp] theorem State.updSrc_pcie (s : State) (n : Nat) (g : Source → Source) : (State.updSrc s n g).pcie = s.pcie := rfl
@[simp] theorem State.updSrc_que (s : State) (n : Nat) (g : Source → Source) : (State.updSrc s n g).que = s.que := rfl
@[simp] theorem State.updSrc_mbx (s : State) (n : Nat) (g : Source → Source) : (State.updSrc s n g).mbx = s.mbx := rfl
@[simp] theorem State.updSrc_rdr (s : State) (n : Nat) (g : Source → Source) : (State.updSrc s n g).rdr = s.rdr := rfl
@[simp] theorem State.updSrc_lth (s : State) (n : Nat) (g : Source → Source) : (State.updSrc s n g).lth = s.lth := rfl
@[simp] theorem State.updSrc_spg (s : State) (n : Nat) (g : Source → Source) : (State.updSrc s n g).spg = s.spg := rfl
@[simp] theorem State.updSrc_hwk (s : State) (n : Nat) (g : Source → Source) : (State.updSrc s n g).hwk = s.hwk := rfl
@[simp] theorem State.updSrc_bnd (s : State) (n : Nat) (g : Source → Source) : (State.updSrc s n g).bnd = s.bnd := rfl
@[simp] theorem State.updSrc_scr (s : State) (n : Nat) (g : Source → Source) : (State.updSrc s n g).scr = s.scr := rfl
@[simp] theorem State.updSrc_flt (s : State) (n : Nat) (g : Source → Source) : (State.updSrc s n g).flt = s.flt := rfl
@[simp] theorem State.updSrc_pwr (s : State) (n : Nat) (g : Source → Source) : (State.updSrc s n g).pwr = s.pwr := rfl
@[simp] theorem State.updSrc_boot (s : State) (n : Nat) (g : Source → Source) : (State.updSrc s n g).boot = s.boot := rfl
@[simp] theorem State.updSrc_plb (s : State) (n : Nat) (g : Source → Source) : (State.updSrc s n g).plb = s.plb := rfl
@[simp] theorem State.updSrc_lcy (s : State) (n : Nat) (g : Source → Source) : (State.updSrc s n g).lcy = s.lcy := rfl
@[simp] theorem State.updSrc_tmp (s : State) (n : Nat) (g : Source → Source) : (State.updSrc s n g).tmp = s.tmp := rfl
@[simp] theorem State.updSrc_bkp (s : State) (n : Nat) (g : Source → Source) : (State.updSrc s n g).bkp = s.bkp := rfl
@[simp] theorem State.updSrc_mram (s : State) (n : Nat) (g : Source → Source) : (State.updSrc s n g).mram = s.mram := rfl
@[simp] theorem State.updSrc_otp (s : State) (n : Nat) (g : Source → Source) : (State.updSrc s n g).otp = s.otp := rfl
@[simp] theorem State.updSrc_commits (s : State) (n : Nat) (g : Source → Source) : (State.updSrc s n g).commits = s.commits := rfl
@[simp] theorem State.updSrc_jtag (s : State) (n : Nat) (g : Source → Source) : (State.updSrc s n g).jtag = s.jtag := rfl
@[simp] theorem State.updSrc_clk (s : State) (n : Nat) (g : Source → Source) : (State.updSrc s n g).clk = s.clk := rfl
@[simp] theorem State.updSrc_freeCtr (s : State) (n : Nat) (g : Source → Source) : (State.updSrc s n g).freeCtr = s.freeCtr := rfl
@[simp] theorem State.updSrc_sent (s : State) (n : Nat) (g : Source → Source) : (State.updSrc s n g).sent = s.sent := rfl
@[simp] theorem State.updSrc_pending (s : State) (n : Nat) (g : Source → Source) : (State.updSrc s n g).pending = s.pending := rfl

/-! `State.updUnit` -/

@[simp] theorem State.updUnit_pcie (s : State) (u : Nat) (g : PUnit → PUnit) : (State.updUnit s u g).pcie = s.pcie := rfl
@[simp] theorem State.updUnit_que (s : State) (u : Nat) (g : PUnit → PUnit) : (State.updUnit s u g).que = s.que := rfl
@[simp] theorem State.updUnit_mbx (s : State) (u : Nat) (g : PUnit → PUnit) : (State.updUnit s u g).mbx = s.mbx := rfl
@[simp] theorem State.updUnit_rdr (s : State) (u : Nat) (g : PUnit → PUnit) : (State.updUnit s u g).rdr = s.rdr := rfl
@[simp] theorem State.updUnit_lth (s : State) (u : Nat) (g : PUnit → PUnit) : (State.updUnit s u g).lth = s.lth := rfl
@[simp] theorem State.updUnit_spg (s : State) (u : Nat) (g : PUnit → PUnit) : (State.updUnit s u g).spg = s.spg := rfl
@[simp] theorem State.updUnit_hwk (s : State) (u : Nat) (g : PUnit → PUnit) : (State.updUnit s u g).hwk = s.hwk := rfl
@[simp] theorem State.updUnit_grt (s : State) (u : Nat) (g : PUnit → PUnit) : (State.updUnit s u g).grt = s.grt := rfl
@[simp] theorem State.updUnit_bnd (s : State) (u : Nat) (g : PUnit → PUnit) : (State.updUnit s u g).bnd = s.bnd := rfl
@[simp] theorem State.updUnit_scr (s : State) (u : Nat) (g : PUnit → PUnit) : (State.updUnit s u g).scr = s.scr := rfl
@[simp] theorem State.updUnit_flt (s : State) (u : Nat) (g : PUnit → PUnit) : (State.updUnit s u g).flt = s.flt := rfl
@[simp] theorem State.updUnit_pwr (s : State) (u : Nat) (g : PUnit → PUnit) : (State.updUnit s u g).pwr = s.pwr := rfl
@[simp] theorem State.updUnit_boot (s : State) (u : Nat) (g : PUnit → PUnit) : (State.updUnit s u g).boot = s.boot := rfl
@[simp] theorem State.updUnit_lcy (s : State) (u : Nat) (g : PUnit → PUnit) : (State.updUnit s u g).lcy = s.lcy := rfl
@[simp] theorem State.updUnit_tmp (s : State) (u : Nat) (g : PUnit → PUnit) : (State.updUnit s u g).tmp = s.tmp := rfl
@[simp] theorem State.updUnit_bkp (s : State) (u : Nat) (g : PUnit → PUnit) : (State.updUnit s u g).bkp = s.bkp := rfl
@[simp] theorem State.updUnit_mram (s : State) (u : Nat) (g : PUnit → PUnit) : (State.updUnit s u g).mram = s.mram := rfl
@[simp] theorem State.updUnit_otp (s : State) (u : Nat) (g : PUnit → PUnit) : (State.updUnit s u g).otp = s.otp := rfl
@[simp] theorem State.updUnit_commits (s : State) (u : Nat) (g : PUnit → PUnit) : (State.updUnit s u g).commits = s.commits := rfl
@[simp] theorem State.updUnit_jtag (s : State) (u : Nat) (g : PUnit → PUnit) : (State.updUnit s u g).jtag = s.jtag := rfl
@[simp] theorem State.updUnit_clk (s : State) (u : Nat) (g : PUnit → PUnit) : (State.updUnit s u g).clk = s.clk := rfl
@[simp] theorem State.updUnit_freeCtr (s : State) (u : Nat) (g : PUnit → PUnit) : (State.updUnit s u g).freeCtr = s.freeCtr := rfl
@[simp] theorem State.updUnit_sent (s : State) (u : Nat) (g : PUnit → PUnit) : (State.updUnit s u g).sent = s.sent := rfl
@[simp] theorem State.updUnit_pending (s : State) (u : Nat) (g : PUnit → PUnit) : (State.updUnit s u g).pending = s.pending := rfl

/-! `State.updRail` -/

@[simp] theorem State.updRail_pcie (s : State) (n : Nat) (g : Rail → Rail) : (State.updRail s n g).pcie = s.pcie := rfl
@[simp] theorem State.updRail_que (s : State) (n : Nat) (g : Rail → Rail) : (State.updRail s n g).que = s.que := rfl
@[simp] theorem State.updRail_mbx (s : State) (n : Nat) (g : Rail → Rail) : (State.updRail s n g).mbx = s.mbx := rfl
@[simp] theorem State.updRail_rdr (s : State) (n : Nat) (g : Rail → Rail) : (State.updRail s n g).rdr = s.rdr := rfl
@[simp] theorem State.updRail_lth (s : State) (n : Nat) (g : Rail → Rail) : (State.updRail s n g).lth = s.lth := rfl
@[simp] theorem State.updRail_spg (s : State) (n : Nat) (g : Rail → Rail) : (State.updRail s n g).spg = s.spg := rfl
@[simp] theorem State.updRail_hwk (s : State) (n : Nat) (g : Rail → Rail) : (State.updRail s n g).hwk = s.hwk := rfl
@[simp] theorem State.updRail_grt (s : State) (n : Nat) (g : Rail → Rail) : (State.updRail s n g).grt = s.grt := rfl
@[simp] theorem State.updRail_bnd (s : State) (n : Nat) (g : Rail → Rail) : (State.updRail s n g).bnd = s.bnd := rfl
@[simp] theorem State.updRail_scr (s : State) (n : Nat) (g : Rail → Rail) : (State.updRail s n g).scr = s.scr := rfl
@[simp] theorem State.updRail_flt (s : State) (n : Nat) (g : Rail → Rail) : (State.updRail s n g).flt = s.flt := rfl
@[simp] theorem State.updRail_boot (s : State) (n : Nat) (g : Rail → Rail) : (State.updRail s n g).boot = s.boot := rfl
@[simp] theorem State.updRail_plb (s : State) (n : Nat) (g : Rail → Rail) : (State.updRail s n g).plb = s.plb := rfl
@[simp] theorem State.updRail_lcy (s : State) (n : Nat) (g : Rail → Rail) : (State.updRail s n g).lcy = s.lcy := rfl
@[simp] theorem State.updRail_tmp (s : State) (n : Nat) (g : Rail → Rail) : (State.updRail s n g).tmp = s.tmp := rfl
@[simp] theorem State.updRail_bkp (s : State) (n : Nat) (g : Rail → Rail) : (State.updRail s n g).bkp = s.bkp := rfl
@[simp] theorem State.updRail_mram (s : State) (n : Nat) (g : Rail → Rail) : (State.updRail s n g).mram = s.mram := rfl
@[simp] theorem State.updRail_otp (s : State) (n : Nat) (g : Rail → Rail) : (State.updRail s n g).otp = s.otp := rfl
@[simp] theorem State.updRail_commits (s : State) (n : Nat) (g : Rail → Rail) : (State.updRail s n g).commits = s.commits := rfl
@[simp] theorem State.updRail_jtag (s : State) (n : Nat) (g : Rail → Rail) : (State.updRail s n g).jtag = s.jtag := rfl
@[simp] theorem State.updRail_clk (s : State) (n : Nat) (g : Rail → Rail) : (State.updRail s n g).clk = s.clk := rfl
@[simp] theorem State.updRail_freeCtr (s : State) (n : Nat) (g : Rail → Rail) : (State.updRail s n g).freeCtr = s.freeCtr := rfl
@[simp] theorem State.updRail_sent (s : State) (n : Nat) (g : Rail → Rail) : (State.updRail s n g).sent = s.sent := rfl
@[simp] theorem State.updRail_pending (s : State) (n : Nat) (g : Rail → Rail) : (State.updRail s n g).pending = s.pending := rfl

/-! `State.updMslot` -/

@[simp] theorem State.updMslot_pcie (s : State) (n : Nat) (g : MSlot → MSlot) : (State.updMslot s n g).pcie = s.pcie := rfl
@[simp] theorem State.updMslot_que (s : State) (n : Nat) (g : MSlot → MSlot) : (State.updMslot s n g).que = s.que := rfl
@[simp] theorem State.updMslot_rdr (s : State) (n : Nat) (g : MSlot → MSlot) : (State.updMslot s n g).rdr = s.rdr := rfl
@[simp] theorem State.updMslot_lth (s : State) (n : Nat) (g : MSlot → MSlot) : (State.updMslot s n g).lth = s.lth := rfl
@[simp] theorem State.updMslot_spg (s : State) (n : Nat) (g : MSlot → MSlot) : (State.updMslot s n g).spg = s.spg := rfl
@[simp] theorem State.updMslot_hwk (s : State) (n : Nat) (g : MSlot → MSlot) : (State.updMslot s n g).hwk = s.hwk := rfl
@[simp] theorem State.updMslot_grt (s : State) (n : Nat) (g : MSlot → MSlot) : (State.updMslot s n g).grt = s.grt := rfl
@[simp] theorem State.updMslot_bnd (s : State) (n : Nat) (g : MSlot → MSlot) : (State.updMslot s n g).bnd = s.bnd := rfl
@[simp] theorem State.updMslot_scr (s : State) (n : Nat) (g : MSlot → MSlot) : (State.updMslot s n g).scr = s.scr := rfl
@[simp] theorem State.updMslot_flt (s : State) (n : Nat) (g : MSlot → MSlot) : (State.updMslot s n g).flt = s.flt := rfl
@[simp] theorem State.updMslot_pwr (s : State) (n : Nat) (g : MSlot → MSlot) : (State.updMslot s n g).pwr = s.pwr := rfl
@[simp] theorem State.updMslot_boot (s : State) (n : Nat) (g : MSlot → MSlot) : (State.updMslot s n g).boot = s.boot := rfl
@[simp] theorem State.updMslot_plb (s : State) (n : Nat) (g : MSlot → MSlot) : (State.updMslot s n g).plb = s.plb := rfl
@[simp] theorem State.updMslot_lcy (s : State) (n : Nat) (g : MSlot → MSlot) : (State.updMslot s n g).lcy = s.lcy := rfl
@[simp] theorem State.updMslot_tmp (s : State) (n : Nat) (g : MSlot → MSlot) : (State.updMslot s n g).tmp = s.tmp := rfl
@[simp] theorem State.updMslot_bkp (s : State) (n : Nat) (g : MSlot → MSlot) : (State.updMslot s n g).bkp = s.bkp := rfl
@[simp] theorem State.updMslot_mram (s : State) (n : Nat) (g : MSlot → MSlot) : (State.updMslot s n g).mram = s.mram := rfl
@[simp] theorem State.updMslot_otp (s : State) (n : Nat) (g : MSlot → MSlot) : (State.updMslot s n g).otp = s.otp := rfl
@[simp] theorem State.updMslot_commits (s : State) (n : Nat) (g : MSlot → MSlot) : (State.updMslot s n g).commits = s.commits := rfl
@[simp] theorem State.updMslot_jtag (s : State) (n : Nat) (g : MSlot → MSlot) : (State.updMslot s n g).jtag = s.jtag := rfl
@[simp] theorem State.updMslot_clk (s : State) (n : Nat) (g : MSlot → MSlot) : (State.updMslot s n g).clk = s.clk := rfl
@[simp] theorem State.updMslot_freeCtr (s : State) (n : Nat) (g : MSlot → MSlot) : (State.updMslot s n g).freeCtr = s.freeCtr := rfl
@[simp] theorem State.updMslot_sent (s : State) (n : Nat) (g : MSlot → MSlot) : (State.updMslot s n g).sent = s.sent := rfl
@[simp] theorem State.updMslot_pending (s : State) (n : Nat) (g : MSlot → MSlot) : (State.updMslot s n g).pending = s.pending := rfl

/-! `State.updVmbx` -/

@[simp] theorem State.updVmbx_pcie (s : State) (v : Nat) (g : VMbx → VMbx) : (State.updVmbx s v g).pcie = s.pcie := rfl
@[simp] theorem State.updVmbx_que (s : State) (v : Nat) (g : VMbx → VMbx) : (State.updVmbx s v g).que = s.que := rfl
@[simp] theorem State.updVmbx_rdr (s : State) (v : Nat) (g : VMbx → VMbx) : (State.updVmbx s v g).rdr = s.rdr := rfl
@[simp] theorem State.updVmbx_lth (s : State) (v : Nat) (g : VMbx → VMbx) : (State.updVmbx s v g).lth = s.lth := rfl
@[simp] theorem State.updVmbx_spg (s : State) (v : Nat) (g : VMbx → VMbx) : (State.updVmbx s v g).spg = s.spg := rfl
@[simp] theorem State.updVmbx_hwk (s : State) (v : Nat) (g : VMbx → VMbx) : (State.updVmbx s v g).hwk = s.hwk := rfl
@[simp] theorem State.updVmbx_grt (s : State) (v : Nat) (g : VMbx → VMbx) : (State.updVmbx s v g).grt = s.grt := rfl
@[simp] theorem State.updVmbx_bnd (s : State) (v : Nat) (g : VMbx → VMbx) : (State.updVmbx s v g).bnd = s.bnd := rfl
@[simp] theorem State.updVmbx_scr (s : State) (v : Nat) (g : VMbx → VMbx) : (State.updVmbx s v g).scr = s.scr := rfl
@[simp] theorem State.updVmbx_flt (s : State) (v : Nat) (g : VMbx → VMbx) : (State.updVmbx s v g).flt = s.flt := rfl
@[simp] theorem State.updVmbx_pwr (s : State) (v : Nat) (g : VMbx → VMbx) : (State.updVmbx s v g).pwr = s.pwr := rfl
@[simp] theorem State.updVmbx_boot (s : State) (v : Nat) (g : VMbx → VMbx) : (State.updVmbx s v g).boot = s.boot := rfl
@[simp] theorem State.updVmbx_plb (s : State) (v : Nat) (g : VMbx → VMbx) : (State.updVmbx s v g).plb = s.plb := rfl
@[simp] theorem State.updVmbx_lcy (s : State) (v : Nat) (g : VMbx → VMbx) : (State.updVmbx s v g).lcy = s.lcy := rfl
@[simp] theorem State.updVmbx_tmp (s : State) (v : Nat) (g : VMbx → VMbx) : (State.updVmbx s v g).tmp = s.tmp := rfl
@[simp] theorem State.updVmbx_bkp (s : State) (v : Nat) (g : VMbx → VMbx) : (State.updVmbx s v g).bkp = s.bkp := rfl
@[simp] theorem State.updVmbx_mram (s : State) (v : Nat) (g : VMbx → VMbx) : (State.updVmbx s v g).mram = s.mram := rfl
@[simp] theorem State.updVmbx_otp (s : State) (v : Nat) (g : VMbx → VMbx) : (State.updVmbx s v g).otp = s.otp := rfl
@[simp] theorem State.updVmbx_commits (s : State) (v : Nat) (g : VMbx → VMbx) : (State.updVmbx s v g).commits = s.commits := rfl
@[simp] theorem State.updVmbx_jtag (s : State) (v : Nat) (g : VMbx → VMbx) : (State.updVmbx s v g).jtag = s.jtag := rfl
@[simp] theorem State.updVmbx_clk (s : State) (v : Nat) (g : VMbx → VMbx) : (State.updVmbx s v g).clk = s.clk := rfl
@[simp] theorem State.updVmbx_freeCtr (s : State) (v : Nat) (g : VMbx → VMbx) : (State.updVmbx s v g).freeCtr = s.freeCtr := rfl
@[simp] theorem State.updVmbx_sent (s : State) (v : Nat) (g : VMbx → VMbx) : (State.updVmbx s v g).sent = s.sent := rfl
@[simp] theorem State.updVmbx_pending (s : State) (v : Nat) (g : VMbx → VMbx) : (State.updVmbx s v g).pending = s.pending := rfl

/-! `State.updHss` -/

@[simp] theorem State.updHss_pcie (s : State) (k : Nat) (g : Hss → Hss) : (State.updHss s k g).pcie = s.pcie := rfl
@[simp] theorem State.updHss_que (s : State) (k : Nat) (g : Hss → Hss) : (State.updHss s k g).que = s.que := rfl
@[simp] theorem State.updHss_mbx (s : State) (k : Nat) (g : Hss → Hss) : (State.updHss s k g).mbx = s.mbx := rfl
@[simp] theorem State.updHss_rdr (s : State) (k : Nat) (g : Hss → Hss) : (State.updHss s k g).rdr = s.rdr := rfl
@[simp] theorem State.updHss_spg (s : State) (k : Nat) (g : Hss → Hss) : (State.updHss s k g).spg = s.spg := rfl
@[simp] theorem State.updHss_hwk (s : State) (k : Nat) (g : Hss → Hss) : (State.updHss s k g).hwk = s.hwk := rfl
@[simp] theorem State.updHss_grt (s : State) (k : Nat) (g : Hss → Hss) : (State.updHss s k g).grt = s.grt := rfl
@[simp] theorem State.updHss_bnd (s : State) (k : Nat) (g : Hss → Hss) : (State.updHss s k g).bnd = s.bnd := rfl
@[simp] theorem State.updHss_scr (s : State) (k : Nat) (g : Hss → Hss) : (State.updHss s k g).scr = s.scr := rfl
@[simp] theorem State.updHss_flt (s : State) (k : Nat) (g : Hss → Hss) : (State.updHss s k g).flt = s.flt := rfl
@[simp] theorem State.updHss_pwr (s : State) (k : Nat) (g : Hss → Hss) : (State.updHss s k g).pwr = s.pwr := rfl
@[simp] theorem State.updHss_boot (s : State) (k : Nat) (g : Hss → Hss) : (State.updHss s k g).boot = s.boot := rfl
@[simp] theorem State.updHss_plb (s : State) (k : Nat) (g : Hss → Hss) : (State.updHss s k g).plb = s.plb := rfl
@[simp] theorem State.updHss_lcy (s : State) (k : Nat) (g : Hss → Hss) : (State.updHss s k g).lcy = s.lcy := rfl
@[simp] theorem State.updHss_tmp (s : State) (k : Nat) (g : Hss → Hss) : (State.updHss s k g).tmp = s.tmp := rfl
@[simp] theorem State.updHss_bkp (s : State) (k : Nat) (g : Hss → Hss) : (State.updHss s k g).bkp = s.bkp := rfl
@[simp] theorem State.updHss_mram (s : State) (k : Nat) (g : Hss → Hss) : (State.updHss s k g).mram = s.mram := rfl
@[simp] theorem State.updHss_otp (s : State) (k : Nat) (g : Hss → Hss) : (State.updHss s k g).otp = s.otp := rfl
@[simp] theorem State.updHss_commits (s : State) (k : Nat) (g : Hss → Hss) : (State.updHss s k g).commits = s.commits := rfl
@[simp] theorem State.updHss_jtag (s : State) (k : Nat) (g : Hss → Hss) : (State.updHss s k g).jtag = s.jtag := rfl
@[simp] theorem State.updHss_clk (s : State) (k : Nat) (g : Hss → Hss) : (State.updHss s k g).clk = s.clk := rfl
@[simp] theorem State.updHss_freeCtr (s : State) (k : Nat) (g : Hss → Hss) : (State.updHss s k g).freeCtr = s.freeCtr := rfl
@[simp] theorem State.updHss_sent (s : State) (k : Nat) (g : Hss → Hss) : (State.updHss s k g).sent = s.sent := rfl
@[simp] theorem State.updHss_pending (s : State) (k : Nat) (g : Hss → Hss) : (State.updHss s k g).pending = s.pending := rfl

/-! `State.updJob` -/

@[simp] theorem State.updJob_pcie (s : State) (id : JobId) (g : Job → Job) : (State.updJob s id g).pcie = s.pcie := rfl
@[simp] theorem State.updJob_mbx (s : State) (id : JobId) (g : Job → Job) : (State.updJob s id g).mbx = s.mbx := rfl
@[simp] theorem State.updJob_rdr (s : State) (id : JobId) (g : Job → Job) : (State.updJob s id g).rdr = s.rdr := rfl
@[simp] theorem State.updJob_lth (s : State) (id : JobId) (g : Job → Job) : (State.updJob s id g).lth = s.lth := rfl
@[simp] theorem State.updJob_spg (s : State) (id : JobId) (g : Job → Job) : (State.updJob s id g).spg = s.spg := rfl
@[simp] theorem State.updJob_hwk (s : State) (id : JobId) (g : Job → Job) : (State.updJob s id g).hwk = s.hwk := rfl
@[simp] theorem State.updJob_grt (s : State) (id : JobId) (g : Job → Job) : (State.updJob s id g).grt = s.grt := rfl
@[simp] theorem State.updJob_bnd (s : State) (id : JobId) (g : Job → Job) : (State.updJob s id g).bnd = s.bnd := rfl
@[simp] theorem State.updJob_scr (s : State) (id : JobId) (g : Job → Job) : (State.updJob s id g).scr = s.scr := rfl
@[simp] theorem State.updJob_flt (s : State) (id : JobId) (g : Job → Job) : (State.updJob s id g).flt = s.flt := rfl
@[simp] theorem State.updJob_pwr (s : State) (id : JobId) (g : Job → Job) : (State.updJob s id g).pwr = s.pwr := rfl
@[simp] theorem State.updJob_boot (s : State) (id : JobId) (g : Job → Job) : (State.updJob s id g).boot = s.boot := rfl
@[simp] theorem State.updJob_plb (s : State) (id : JobId) (g : Job → Job) : (State.updJob s id g).plb = s.plb := rfl
@[simp] theorem State.updJob_lcy (s : State) (id : JobId) (g : Job → Job) : (State.updJob s id g).lcy = s.lcy := rfl
@[simp] theorem State.updJob_tmp (s : State) (id : JobId) (g : Job → Job) : (State.updJob s id g).tmp = s.tmp := rfl
@[simp] theorem State.updJob_bkp (s : State) (id : JobId) (g : Job → Job) : (State.updJob s id g).bkp = s.bkp := rfl
@[simp] theorem State.updJob_mram (s : State) (id : JobId) (g : Job → Job) : (State.updJob s id g).mram = s.mram := rfl
@[simp] theorem State.updJob_otp (s : State) (id : JobId) (g : Job → Job) : (State.updJob s id g).otp = s.otp := rfl
@[simp] theorem State.updJob_commits (s : State) (id : JobId) (g : Job → Job) : (State.updJob s id g).commits = s.commits := rfl
@[simp] theorem State.updJob_jtag (s : State) (id : JobId) (g : Job → Job) : (State.updJob s id g).jtag = s.jtag := rfl
@[simp] theorem State.updJob_clk (s : State) (id : JobId) (g : Job → Job) : (State.updJob s id g).clk = s.clk := rfl
@[simp] theorem State.updJob_freeCtr (s : State) (id : JobId) (g : Job → Job) : (State.updJob s id g).freeCtr = s.freeCtr := rfl
@[simp] theorem State.updJob_sent (s : State) (id : JobId) (g : Job → Job) : (State.updJob s id g).sent = s.sent := rfl
@[simp] theorem State.updJob_pending (s : State) (id : JobId) (g : Job → Job) : (State.updJob s id g).pending = s.pending := rfl

/-! `State.dropJob` -/

@[simp] theorem State.dropJob_pcie (s : State) (id : JobId) : (State.dropJob s id).pcie = s.pcie := rfl
@[simp] theorem State.dropJob_mbx (s : State) (id : JobId) : (State.dropJob s id).mbx = s.mbx := rfl
@[simp] theorem State.dropJob_rdr (s : State) (id : JobId) : (State.dropJob s id).rdr = s.rdr := rfl
@[simp] theorem State.dropJob_lth (s : State) (id : JobId) : (State.dropJob s id).lth = s.lth := rfl
@[simp] theorem State.dropJob_spg (s : State) (id : JobId) : (State.dropJob s id).spg = s.spg := rfl
@[simp] theorem State.dropJob_hwk (s : State) (id : JobId) : (State.dropJob s id).hwk = s.hwk := rfl
@[simp] theorem State.dropJob_grt (s : State) (id : JobId) : (State.dropJob s id).grt = s.grt := rfl
@[simp] theorem State.dropJob_bnd (s : State) (id : JobId) : (State.dropJob s id).bnd = s.bnd := rfl
@[simp] theorem State.dropJob_scr (s : State) (id : JobId) : (State.dropJob s id).scr = s.scr := rfl
@[simp] theorem State.dropJob_flt (s : State) (id : JobId) : (State.dropJob s id).flt = s.flt := rfl
@[simp] theorem State.dropJob_pwr (s : State) (id : JobId) : (State.dropJob s id).pwr = s.pwr := rfl
@[simp] theorem State.dropJob_boot (s : State) (id : JobId) : (State.dropJob s id).boot = s.boot := rfl
@[simp] theorem State.dropJob_plb (s : State) (id : JobId) : (State.dropJob s id).plb = s.plb := rfl
@[simp] theorem State.dropJob_lcy (s : State) (id : JobId) : (State.dropJob s id).lcy = s.lcy := rfl
@[simp] theorem State.dropJob_tmp (s : State) (id : JobId) : (State.dropJob s id).tmp = s.tmp := rfl
@[simp] theorem State.dropJob_bkp (s : State) (id : JobId) : (State.dropJob s id).bkp = s.bkp := rfl
@[simp] theorem State.dropJob_mram (s : State) (id : JobId) : (State.dropJob s id).mram = s.mram := rfl
@[simp] theorem State.dropJob_otp (s : State) (id : JobId) : (State.dropJob s id).otp = s.otp := rfl
@[simp] theorem State.dropJob_commits (s : State) (id : JobId) : (State.dropJob s id).commits = s.commits := rfl
@[simp] theorem State.dropJob_jtag (s : State) (id : JobId) : (State.dropJob s id).jtag = s.jtag := rfl
@[simp] theorem State.dropJob_clk (s : State) (id : JobId) : (State.dropJob s id).clk = s.clk := rfl
@[simp] theorem State.dropJob_freeCtr (s : State) (id : JobId) : (State.dropJob s id).freeCtr = s.freeCtr := rfl
@[simp] theorem State.dropJob_sent (s : State) (id : JobId) : (State.dropJob s id).sent = s.sent := rfl
@[simp] theorem State.dropJob_pending (s : State) (id : JobId) : (State.dropJob s id).pending = s.pending := rfl

/-! `State.emit` -/

@[simp] theorem State.emit_pcie (s : State) (o : Out) : (State.emit s o).pcie = s.pcie := rfl
@[simp] theorem State.emit_que (s : State) (o : Out) : (State.emit s o).que = s.que := rfl
@[simp] theorem State.emit_mbx (s : State) (o : Out) : (State.emit s o).mbx = s.mbx := rfl
@[simp] theorem State.emit_rdr (s : State) (o : Out) : (State.emit s o).rdr = s.rdr := rfl
@[simp] theorem State.emit_lth (s : State) (o : Out) : (State.emit s o).lth = s.lth := rfl
@[simp] theorem State.emit_spg (s : State) (o : Out) : (State.emit s o).spg = s.spg := rfl
@[simp] theorem State.emit_hwk (s : State) (o : Out) : (State.emit s o).hwk = s.hwk := rfl
@[simp] theorem State.emit_grt (s : State) (o : Out) : (State.emit s o).grt = s.grt := rfl
@[simp] theorem State.emit_bnd (s : State) (o : Out) : (State.emit s o).bnd = s.bnd := rfl
@[simp] theorem State.emit_scr (s : State) (o : Out) : (State.emit s o).scr = s.scr := rfl
@[simp] theorem State.emit_flt (s : State) (o : Out) : (State.emit s o).flt = s.flt := rfl
@[simp] theorem State.emit_pwr (s : State) (o : Out) : (State.emit s o).pwr = s.pwr := rfl
@[simp] theorem State.emit_boot (s : State) (o : Out) : (State.emit s o).boot = s.boot := rfl
@[simp] theorem State.emit_plb (s : State) (o : Out) : (State.emit s o).plb = s.plb := rfl
@[simp] theorem State.emit_lcy (s : State) (o : Out) : (State.emit s o).lcy = s.lcy := rfl
@[simp] theorem State.emit_tmp (s : State) (o : Out) : (State.emit s o).tmp = s.tmp := rfl
@[simp] theorem State.emit_bkp (s : State) (o : Out) : (State.emit s o).bkp = s.bkp := rfl
@[simp] theorem State.emit_mram (s : State) (o : Out) : (State.emit s o).mram = s.mram := rfl
@[simp] theorem State.emit_otp (s : State) (o : Out) : (State.emit s o).otp = s.otp := rfl
@[simp] theorem State.emit_commits (s : State) (o : Out) : (State.emit s o).commits = s.commits := rfl
@[simp] theorem State.emit_jtag (s : State) (o : Out) : (State.emit s o).jtag = s.jtag := rfl
@[simp] theorem State.emit_clk (s : State) (o : Out) : (State.emit s o).clk = s.clk := rfl
@[simp] theorem State.emit_freeCtr (s : State) (o : Out) : (State.emit s o).freeCtr = s.freeCtr := rfl
@[simp] theorem State.emit_pending (s : State) (o : Out) : (State.emit s o).pending = s.pending := rfl

/-! ## The outbox -/

@[simp] theorem State.emit_sent (s : State) (o : Out) : (s.emit o).sent = s.sent ++ [o] := rfl

/-! ## Read after write -/

theorem State.fn_updFn_self (s : State) (k : Nat) (g : Fn → Fn) :
    (s.updFn k g).fn k = g (s.fn k) := Tbl.get_upd_self _ _ k g

@[simp] theorem State.fn_updFn_ne (s : State) {k m : Nat} (g : Fn → Fn) (h : m ≠ k) :
    (s.updFn k g).fn m = s.fn m := Tbl.get_upd_ne _ _ g h

theorem State.queue_updQueue_self (s : State) (k : Nat) (g : Queue → Queue) :
    (s.updQueue k g).queue k = g (s.queue k) := Tbl.get_upd_self _ _ k g

@[simp] theorem State.queue_updQueue_ne (s : State) {k m : Nat} (g : Queue → Queue) (h : m ≠ k) :
    (s.updQueue k g).queue m = s.queue m := Tbl.get_upd_ne _ _ g h

theorem State.slot_updSlot_self (s : State) (k : Nat) (g : BSlot → BSlot) :
    (s.updSlot k g).slot k = g (s.slot k) := Tbl.get_upd_self _ _ k g

@[simp] theorem State.slot_updSlot_ne (s : State) {k m : Nat} (g : BSlot → BSlot) (h : m ≠ k) :
    (s.updSlot k g).slot m = s.slot m := Tbl.get_upd_ne _ _ g h

theorem State.pair_updPair_self (s : State) (k : Nat) (g : Pair → Pair) :
    (s.updPair k g).pair k = g (s.pair k) := Tbl.get_upd_self _ _ k g

@[simp] theorem State.pair_updPair_ne (s : State) {k m : Nat} (g : Pair → Pair) (h : m ≠ k) :
    (s.updPair k g).pair m = s.pair m := Tbl.get_upd_ne _ _ g h

theorem State.rnd_updRnd_self (s : State) (k : Nat) (g : Rnd → Rnd) :
    (s.updRnd k g).rnd k = g (s.rnd k) := Tbl.get_upd_self _ _ k g

@[simp] theorem State.rnd_updRnd_ne (s : State) {k m : Nat} (g : Rnd → Rnd) (h : m ≠ k) :
    (s.updRnd k g).rnd m = s.rnd m := Tbl.get_upd_ne _ _ g h

theorem State.lath_updLath_self (s : State) (k : Nat) (g : Lath → Lath) :
    (s.updLath k g).lath k = g (s.lath k) := Tbl.get_upd_self _ _ k g

@[simp] theorem State.lath_updLath_ne (s : State) {k m : Nat} (g : Lath → Lath) (h : m ≠ k) :
    (s.updLath k g).lath m = s.lath m := Tbl.get_upd_ne _ _ g h

theorem State.quad_updQuad_self (s : State) (k : Nat) (g : Quad → Quad) :
    (s.updQuad k g).quad k = g (s.quad k) := Tbl.get_upd_self _ _ k g

@[simp] theorem State.quad_updQuad_ne (s : State) {k m : Nat} (g : Quad → Quad) (h : m ≠ k) :
    (s.updQuad k g).quad m = s.quad m := Tbl.get_upd_ne _ _ g h

theorem State.hawk_updHawk_self (s : State) (k : Nat) (g : Hawk → Hawk) :
    (s.updHawk k g).hawk k = g (s.hawk k) := Tbl.get_upd_self _ _ k g

@[simp] theorem State.hawk_updHawk_ne (s : State) {k m : Nat} (g : Hawk → Hawk) (h : m ≠ k) :
    (s.updHawk k g).hawk m = s.hawk m := Tbl.get_upd_ne _ _ g h

theorem State.ctx_updCtx_self (s : State) (k : Nat) (g : Ctx → Ctx) :
    (s.updCtx k g).ctx k = g (s.ctx k) := Tbl.get_upd_self _ _ k g

@[simp] theorem State.ctx_updCtx_ne (s : State) {k m : Nat} (g : Ctx → Ctx) (h : m ≠ k) :
    (s.updCtx k g).ctx m = s.ctx m := Tbl.get_upd_ne _ _ g h

theorem State.core_updCore_self (s : State) (k : Nat) (g : Core → Core) :
    (s.updCore k g).core k = g (s.core k) := Tbl.get_upd_self _ _ k g

@[simp] theorem State.core_updCore_ne (s : State) {k m : Nat} (g : Core → Core) (h : m ≠ k) :
    (s.updCore k g).core m = s.core m := Tbl.get_upd_ne _ _ g h

theorem State.gen_updGen_self (s : State) (k : Nat) (g : Gen → Gen) :
    (s.updGen k g).gen k = g (s.gen k) := Tbl.get_upd_self _ _ k g

@[simp] theorem State.gen_updGen_ne (s : State) {k m : Nat} (g : Gen → Gen) (h : m ≠ k) :
    (s.updGen k g).gen m = s.gen m := Tbl.get_upd_ne _ _ g h

theorem State.src_updSrc_self (s : State) (k : Nat) (g : Source → Source) :
    (s.updSrc k g).src k = g (s.src k) := Tbl.get_upd_self _ _ k g

@[simp] theorem State.src_updSrc_ne (s : State) {k m : Nat} (g : Source → Source) (h : m ≠ k) :
    (s.updSrc k g).src m = s.src m := Tbl.get_upd_ne _ _ g h

theorem State.unit_updUnit_self (s : State) (k : Nat) (g : PUnit → PUnit) :
    (s.updUnit k g).unit k = g (s.unit k) := Tbl.get_upd_self _ _ k g

@[simp] theorem State.unit_updUnit_ne (s : State) {k m : Nat} (g : PUnit → PUnit) (h : m ≠ k) :
    (s.updUnit k g).unit m = s.unit m := Tbl.get_upd_ne _ _ g h

theorem State.rail_updRail_self (s : State) (k : Nat) (g : Rail → Rail) :
    (s.updRail k g).rail k = g (s.rail k) := Tbl.get_upd_self _ _ k g

@[simp] theorem State.rail_updRail_ne (s : State) {k m : Nat} (g : Rail → Rail) (h : m ≠ k) :
    (s.updRail k g).rail m = s.rail m := Tbl.get_upd_ne _ _ g h

theorem State.mslot_updMslot_self (s : State) (k : Nat) (g : MSlot → MSlot) :
    (s.updMslot k g).mslot k = g (s.mslot k) := Tbl.get_upd_self _ _ k g

@[simp] theorem State.mslot_updMslot_ne (s : State) {k m : Nat} (g : MSlot → MSlot) (h : m ≠ k) :
    (s.updMslot k g).mslot m = s.mslot m := Tbl.get_upd_ne _ _ g h

theorem State.vmbx_updVmbx_self (s : State) (k : Nat) (g : VMbx → VMbx) :
    (s.updVmbx k g).vmbx k = g (s.vmbx k) := Tbl.get_upd_self _ _ k g

@[simp] theorem State.vmbx_updVmbx_ne (s : State) {k m : Nat} (g : VMbx → VMbx) (h : m ≠ k) :
    (s.updVmbx k g).vmbx m = s.vmbx m := Tbl.get_upd_ne _ _ g h

theorem State.hss_updHss_self (s : State) (k : Nat) (g : Hss → Hss) :
    (s.updHss k g).hss k = g (s.hss k) := Tbl.get_upd_self _ _ k g

@[simp] theorem State.hss_updHss_ne (s : State) {k m : Nat} (g : Hss → Hss) (h : m ≠ k) :
    (s.updHss k g).hss m = s.hss m := Tbl.get_upd_ne _ _ g h

end Sys2Proof.Machine
end

