-- ==== Sys2Proof/Laws/LathMemory.lean ====
section
/-!
SUPPORT. The local memories of the Lath side: the canonical form, which every write keeps, and read after write.
-/
namespace Sys2Proof.Machine

/-- Scratch and Quad memory are in canonical form. -/
structure State.LathMemOk (s : State) : Prop where
  engs : Tbl.wf {} s.lth.engs = true
  quads : Tbl.wf {} s.lth.quads = true
  scratch : ∀ n, Tbl.wf 0 (s.lath n).scratch = true
  mem : ∀ q, Tbl.wf 0 (s.quad q).mem = true

theorem State.reset_lathMemOk : State.reset.LathMemOk := ⟨rfl, rfl, fun _ => rfl, fun _ => rfl⟩

theorem State.updLath_memOk {s : State} (h : s.LathMemOk) (n : Nat) (g : Lath → Lath)
    (hg : Tbl.wf 0 (g (s.lath n)).scratch = true) : (s.updLath n g).LathMemOk := by
  refine ⟨Tbl.wf_upd _ h.engs _ _, h.quads, fun m => ?_, h.mem⟩
  by_cases e : m = n
  · subst e; rw [State.lath_updLath_self s m g]; exact hg
  · rw [State.lath_updLath_ne s g e]; exact h.scratch m

theorem State.updQuad_memOk {s : State} (h : s.LathMemOk) (q : Nat) (g : Quad → Quad)
    (hg : Tbl.wf 0 (g (s.quad q)).mem = true) : (s.updQuad q g).LathMemOk := by
  refine ⟨h.engs, Tbl.wf_upd _ h.quads _ _, h.scratch, fun m => ?_⟩
  by_cases e : m = q
  · subst e; rw [State.quad_updQuad_self s m g]; exact hg
  · rw [State.quad_updQuad_ne s g e]; exact h.mem m

theorem State.localWrite1_memOk {s : State} (h : s.LathMemOk) (n a : Nat) (b : Byte) : (s.localWrite1 n a b).LathMemOk := by
  unfold State.localWrite1
  split
  · exact State.updLath_memOk h _ _ (Tbl.wf_set _ (h.scratch _) _ _)
  · rename_i x _
    have k := State.updQuad_memOk h (n / 4) (fun q => { q with mem := Tbl.set 0 q.mem x b }) (Tbl.wf_set _ (h.mem _) _ _)
    exact State.updLath_memOk k _ _ (k.scratch n)
  · exact h

/-- A write of any length keeps the form. -/
theorem localWrite_memOk (n a : Nat) (l : List Byte) {s : State} (h : s.LathMemOk) : (localWrite n a l s).LathMemOk := by
  induction l generalizing a s with
  | nil => exact h
  | cons b l ih => exact ih (a + 1) (State.localWrite1_memOk h n a b)

theorem placeOf_scratch {a x : Nat} (h : placeOf a = some (.scratch x)) : x = a := by
  unfold placeOf at h
  split at h
  · simpa using h.symm
  · split at h <;> simp at h

theorem placeOf_quad {a x : Nat} (h : placeOf a = some (.quad x)) : x + 4194304 = a := by
  unfold placeOf at h
  split at h
  · simp at h
  · split at h <;> simp at h; omega

/-- What a byte of Quad memory reads as depends on the keys in their places and on the byte alone. -/
theorem State.quadByte_congr {s t : State} {q a : Nat} (c : t.lth.cache = s.lth.cache) (r : t.lth.regions = s.lth.regions)
    (j : t.que.jobs = s.que.jobs) (m : Tbl.get 0 (t.quad q).mem a = Tbl.get 0 (s.quad q).mem a) :
    t.quadByte q a = s.quadByte q a := by
  unfold State.quadByte State.findJob
  rw [c, r, j, m]

/-- A scratch byte reads back as it was written. -/
theorem State.localWrite1_scratch_self (s : State) (n : Nat) {a : Nat} (b : Byte) (ha : a < 262144) :
    (s.localWrite1 n a b).localByte n a = b := by
  have p : placeOf a = some (.scratch a) := by simp [placeOf, ha]
  simp only [State.localWrite1, State.localByte, p, State.lath_updLath_self s n _]
  exact Tbl.get_set_self _ _ a b

/-- A write of one byte leaves every other byte of the engine's local memory alone. -/
theorem State.localWrite1_ne (s : State) (n : Nat) {a c : Nat} (b : Byte) (e : c ≠ a) :
    (s.localWrite1 n a b).localByte n c = s.localByte n c := by
  unfold State.localWrite1
  cases pa : placeOf a with
  | none => rfl
  | some p =>
    cases p with
    | scratch x =>
      unfold State.localByte
      cases pc : placeOf c with
      | none => rfl
      | some q =>
        cases q with
        | scratch y =>
          have ne : y ≠ x := fun k => e ((placeOf_scratch pc).symm.trans (k.trans (placeOf_scratch pa)))
          simp only [State.lath_updLath_self]
          exact Tbl.get_set_ne _ _ _ ne
        | quad y => rfl
    | quad x =>
      unfold State.localByte
      cases pc : placeOf c with
      | none => rfl
      | some q =>
        cases q with
        | scratch y => simp only [State.lath_updLath_self]; rfl
        | quad y =>
          have ne : y ≠ x := fun k => e (by have := placeOf_quad pc; have := placeOf_quad pa; omega)
          have m : Tbl.get 0 ((s.updQuad (n / 4) (fun q => { q with mem := Tbl.set 0 q.mem x b })).quad (n / 4)).mem y =
              Tbl.get 0 (s.quad (n / 4)).mem y := by
            rw [State.quad_updQuad_self]; exact Tbl.get_set_ne _ _ _ ne
          exact State.quadByte_congr rfl rfl rfl m

/-- A write of any length leaves every byte outside it alone. -/
theorem localWrite_ne (n a : Nat) (l : List Byte) (s : State) {c : Nat} (h : c < a ∨ a + l.length ≤ c) :
    (localWrite n a l s).localByte n c = s.localByte n c := by
  induction l generalizing a s with
  | nil => rfl
  | cons b l ih =>
    simp only [List.length_cons] at h
    rw [localWrite, ih (a + 1) _ (by omega), State.localWrite1_ne s n b (by omega)]

/-- The bytes written to scratch are the bytes read. -/
theorem localWrite_scratch (n a : Nat) (l : List Byte) (s : State) (h : a + l.length ≤ 262144) (i : Nat) (k : i < l.length) :
    (localWrite n a l s).localByte n (a + i) = l.getD i 0 := by
  induction l generalizing a s i with
  | nil => simp at k
  | cons b l ih =>
    simp only [List.length_cons] at h k
    rw [localWrite]
    cases i with
    | zero => rw [localWrite_ne n (a + 1) l _ (by omega)]; exact State.localWrite1_scratch_self s n b (by omega)
    | succ i =>
      rw [show a + (i + 1) = a + 1 + i from by omega, ih (a + 1) _ (by omega) i (by omega)]
      rfl

/-- Tenures of an arbiter change no byte of an engine's local memory. -/
theorem State.tenures_localByte (s : State) (q r k m n a : Nat) : (s.tenures q r k m).localByte n a = s.localByte n a := by
  unfold State.tenures
  split
  · rfl
  · unfold State.localByte
    cases placeOf a with
    | none => rfl
    | some p =>
      cases p with
      | scratch y => rfl
      | quad y =>
        refine State.quadByte_congr rfl rfl rfl ?_
        by_cases e : n / 4 = q
        · rw [e, State.quad_updQuad_self]; dsimp only; split <;> rfl
        · rw [State.quad_updQuad_ne s _ e]

theorem bankTenures_localByte (q r : Nat) (bs l : List Nat) (n a : Nat) (s : State) :
    (bankTenures q r bs l s).localByte n a = s.localByte n a := by
  induction l generalizing s with
  | nil => rfl
  | cons b l ih => rw [bankTenures, ih, State.tenures_localByte]

/-- The requests of a memory operation change no byte of an engine's local memory. -/
theorem State.beatTenures_localByte (s : State) (q r : Nat) (bs : List Nat) (n a : Nat) :
    (s.beatTenures q r bs).localByte n a = s.localByte n a := bankTenures_localByte q r bs _ n a s

/-- A staged write changes no byte of an engine's local memory. -/
theorem State.stage_localByte (s : State) (n : Nat) (g : Stage → Stage) (a : Nat) : (s.stage n g).localByte n a = s.localByte n a := by
  unfold State.localByte State.stage
  cases placeOf a with
  | none => rfl
  | some p =>
    cases p with
    | scratch y => dsimp only; rw [State.lath_updLath_self]
    | quad y => rfl

end Sys2Proof.Machine
end

