-- ==== Sys2Proof/Laws/Commands.lean ====
section
/-!
SUPPORT. What each shared operation does, once for all commands: Horrov's commands, jobs, microwords, PMBus reads. A proof about a command
opens its meaning with `change execX .. = _; unfold execX`, cites one of these lemmas, and is left with the command's own body.
-/
namespace Sys2Proof.Laws
open Sys2Proof.Machine Sys2Proof.Spec

/-- A command that runs (`Runs`) is settled with the answer of its own body. -/
theorem run_ok (s : State) (h : Hdr) (ci : CmdInfo) (f : State → Ans) (r : Runs s h ci) :
    s.run h ci f = serveBad 300 ((running s h).settleAns h (f (running s h))) := by
  obtain ⟨a, b, c, d, e⟩ := r
  unfold State.run
  rw [a]
  dsimp only
  rw [if_neg b]
  simp only [c, d]
  rw [if_neg (by intro k; exact k.2 (e k.1))]

/-- A stageable command that is not staged is carried out directly. -/
theorem runT_ok (s : State) (h : Hdr) (ci : CmdInfo) (c : TCmd) (r : Runs s h ci) (st : h.stage = false) :
    s.runT h ci (.ok c) = serveBad 300 ((running s h).directT h c) := by
  obtain ⟨a, b, c, d, e⟩ := r
  unfold State.runT
  rw [a]
  dsimp only
  rw [if_neg b]
  simp only [c, d, st]
  rfl

/-- Without a transaction no object is locked. -/
theorem locked_none (x : State) (o : List Obj) (t : x.mbx.txn = none) : x.locked o = false := by
  unfold State.locked; rw [t]

/-- A direct command that takes no commit epoch of its own. -/
theorem direct_plain (x y : State) (h : Hdr) (c : TCmd) (res : List Byte) (t : x.mbx.txn = none)
    (a : applyT c x = .ok (y, res)) (i : c.inline = false) :
    x.directT h c = y.answer h.iss (x.okOf h res) := by
  unfold State.directT
  rw [a]; dsimp only
  rw [locked_none _ _ t, i]
  cases c <;> simp only [TCmd.inline, Bool.true_eq_false] at i <;> simp only [Bool.false_and, Bool.false_eq_true, if_false]

/-- A direct command of the inline and budget kinds takes effect at its own commit epoch. -/
theorem direct_inline (x y : State) (h : Hdr) (c : TCmd) (res : List Byte) (t : x.mbx.txn = none)
    (a : applyT c x = .ok (y, res)) (i : c.inline = true) (e : ∀ n, c ≠ .portEnable n) :
    x.directT h c = (atEpoch y).answer h.iss (x.okOf h res) := by
  unfold State.directT
  rw [a]; dsimp only
  rw [locked_none _ _ t, i]
  cases c <;> simp only [TCmd.inline, Bool.false_eq_true] at i <;> first | exact absurd rfl (e _) | simp only [Bool.false_and, Bool.false_eq_true, if_false, if_true]

/-- Two commands that settle alike. -/
theorem fin_ok {a b : State} (e : a = b) : (Host.Outcome.next (serveBad 300 a) : Host.Outcome State Fault Refusal) = .next (serveBad 300 b) := by rw [e]

/-- A command whose body answers is answered ST_OK with its results. -/
theorem settle_ok (x y z : State) (h : Hdr) (r r' : List Byte) (e : y = z) (e' : r = r') : x.settleAns h (.ok y r) = z.answer h.iss (x.okOf h r') := by subst e e'; rfl

/-- A running job with its input read goes on with its own body. -/
theorem runJob_ok (s : State) (id : JobId) (op : Nat) (j : Job) (b0 : List Byte) (f : Job → List Byte → State → State)
    (r : JobRuns s id op j) : s.runJob id op (.got b0) f = f j (fit j.desc.inLen.toNat b0) (fetched s j) := by
  obtain ⟨a, b, c, d, e, g⟩ := r
  unfold State.runJob
  rw [a]; dsimp only
  rw [if_neg (by rintro (k | k | k); exact k b; exact k c; exact d k.1 k.2), e]
  dsimp only; rw [if_pos g]

/-- A job that draws words goes on with the words that `drawn` gives. -/
theorem withWords_ok (id : JobId) : ∀ (gens : List Nat) (s y : State) (ws : List W512) (f : List W512 → State → State),
    drawn s gens = some (ws, y) → s.withWords id gens f = f ws y := by
  intro gens
  induction gens with
  | nil => intro s y ws f h; simp only [drawn, Option.some.injEq, Prod.mk.injEq] at h; unfold State.withWords; rw [h.1, h.2]
  | cons g t ih =>
    intro s y ws f h
    unfold drawn at h
    split at h
    · rename_i k
      cases hd : drawn (s.drawFrom g).2 t with
      | none => rw [hd] at h; cases h
      | some p =>
        rw [hd] at h; simp only [Option.map_some, Option.some.injEq, Prod.mk.injEq] at h
        unfold State.withWords; rw [if_neg (by simp [k.1]), k.2]; dsimp only
        rw [ih _ p.2 p.1 _ hd, h.1, h.2]
    · cases h

/-- A job that delivers keys allocates them and ends with their handles. -/
theorem finish_ok (s z : State) (j : Job) (out : List Byte) (keys : List KeySpec) (rest : List Byte) (ks : List Nat)
    (h : s.allocKeys keys = some (ks, z)) : s.finish j out keys rest = z.endJob j.id { status := stOk, out := out, result := z.handles ks ++ rest } := by
  unfold State.finish; rw [h]

/-- A microword of an engine that issues is carried out. -/
theorem slotRow_ok (s : State) (n : Nat) (j : Job) (f : Lath → Job → State) (r : Issues s n j) : slotRow n s f = .next (f (s.lath n) j) := by
  obtain ⟨a, b, c, d⟩ := r
  unfold slotRow wordRow; rw [if_neg (by omega), b]; dsimp only; rw [if_pos c, d]; rfl

/-- A vector microword whose encoding passes is carried out. -/
theorem vecRow_ok (s : State) (n : Nat) (j : Job) (reads : List Nat) (ok : Lath → Bool) (f : Lath → State) (r : Ready s n j reads)
    (k : ok (s.lath n) = true) : vecRow n reads ok s f = .next (f (s.lath n)) := by
  obtain ⟨a, b, c⟩ := r
  unfold vecRow vecRowJ; rw [slotRow_ok s n j _ a, b, k, c]; rfl

/-- A vector microword whose encoding passes is carried out, with the job for a wait. -/
theorem vecRowJ_ok (s : State) (n : Nat) (j : Job) (reads : List Nat) (ok : Lath → Bool) (f : Lath → Job → State) (r : Ready s n j reads)
    (k : ok (s.lath n) = true) : vecRowJ n reads ok s f = .next (f (s.lath n) j) := by
  obtain ⟨a, b, c⟩ := r
  unfold vecRowJ; rw [slotRow_ok s n j _ a, b, k, c]; rfl

/-- A memory access waits where another engine locks a resource that it names, and else takes its tenures (R274). -/
theorem withBeats_ok (s : State) (n : Nat) (j : Job) (bs : List Nat) (f : State → State) : s.withBeats n j bs f =
    if s.lockedOut (n / 4) (n % 4) (bs.map (fun b => 8 + b / 8192)) then s.waitSlot n j
    else f (s.beatTenures (n / 4) (n % 4) bs) := rfl

/-- A sequencer microword commits what the slots have staged and goes on. -/
theorem seqRow_ok (s : State) (n : Nat) (j : Job) (safe : Bool) (f : Lath → Job → State → State) (r : Issues s n j)
    (c : (s.lath n).stage.conflict = false) (g : ((committed s n safe).lath n).gap < 4096) :
    seqRow n safe s f = .next (f ((committed s n safe).lath n) j (committed s n safe)) := by
  obtain ⟨a, b, p, d⟩ := r
  unfold seqRow wordRow; rw [if_neg (by omega), b]; dsimp only; rw [if_pos p, d, c, if_neg (by simp), if_neg (by simp), if_neg (Nat.not_le.mpr g)]

/-- What an element operation stages is what `newElems` says. -/
theorem newElems_overwrite (e : Lath) (k d : Nat) (g : Nat → W32) : newElems e k d g (overwrite (e.vr d) (e.active k) g) := by
  have hl : (e.vr d).length = 256 := by simp [Lath.vr]
  constructor
  · simp [overwrite, hl]
  · intro i hi
    have h1 : i < (e.vr d).length := by omega
    have h2 : i < (overwrite (e.vr d) (e.active k) g).length := by simp [overwrite, hl]; omega
    unfold elt
    rw [List.getD_eq_getElem?_getD, List.getElem?_eq_getElem h2, List.getD_eq_getElem?_getD, List.getElem?_eq_getElem h1]
    simp only [overwrite, List.getElem_mapIdx, Option.getD_some, Lath.active]
    have : ((List.range 256).filter (fun i => decide (e.r.vstart ≤ i) && decide (i < e.r.vl) && e.maskBit k i)).contains i =
        (decide (e.r.vstart ≤ i) && decide (i < e.r.vl) && e.maskBit k i) := by
      rw [Bool.eq_iff_iff]; simp [hi]
    rw [Bool.eq_iff_iff] at this
    simp only [Bool.and_eq_true, decide_eq_true_eq, and_assoc] at this
    by_cases h : e.r.vstart ≤ i ∧ i < e.r.vl ∧ e.maskBit k i = true
    · rw [if_pos h]; exact if_pos (this.mpr h)
    · rw [if_neg h]; exact if_neg (fun x => h (this.mp x))

/-- Everything that an element operation can do (R247). -/
theorem elemOp_ok {s : State} {n : Nat} {e : Lath} {k d : Nat} {g : Nat → W32} {o : Host.Outcome State Fault Refusal}
    (ho : o = .next (s.elemOp n e k d g)) :
    (e.r.vl ≤ e.r.vstart → o = .next ((s.stage n (fun t => { t with vsElem := true })).stage n
        (fun t => { t with vClaim := t.vClaim ++ [d] }))) ∧
      (e.r.vstart < e.r.vl → ∃ l, newElems e k d g l ∧
        o = .next ((s.stage n (fun t => { t with vsElem := true })).stageV n d l)) := by
  subst ho
  unfold State.elemOp
  constructor
  · intro h; dsimp only; rw [if_pos h]
  · intro h; refine ⟨_, newElems_overwrite e k d g, ?_⟩; dsimp only; rw [if_neg (by omega)]

/-- A microword that may draw from its mask generator gets its words. -/
theorem maskDraw_ok (s : State) (n : Nat) (e : Lath) (j : Job) (k : Nat) (f : List W32 → State → State) (r : MayDraw s n e k) :
    s.maskDraw n e j k f = f (words32 (maskWords s n k).1) (maskWords s n k).2 := by
  unfold State.maskDraw maskWords
  by_cases h : k = 0
  · subst h; rw [if_pos rfl]; rfl
  · rcases r with r | ⟨a, b, c, d⟩
    · exact absurd r h
    · rw [if_neg h, if_neg h, a, b, c, d]; rfl

/-- A share-mode microword that draws gets its fresh words and its shuffle state. -/
theorem shareDraw_ok (s : State) (n : Nat) (e : Lath) (j : Job) (w : Nat) (ws : List W32) (x : State) (r : ShareDraws s n e w ws x)
    (f : List W32 → State → State) : s.shareDraw n e j w f = f ws x := by
  obtain ⟨a, b⟩ := r
  obtain ⟨h1, h2⟩ := b (maskWords s n (shareWords e w)).1 (maskWords s n (shareWords e w)).2 rfl
  subst h1 h2
  unfold State.shareDraw
  by_cases h : shuffleDue e
  · have h' : (e.jobLevel ≠ 0 ∧ e.shufLeft = 0) := h
    dsimp only
    simp only [decide_eq_true h', if_true]
    unfold shareWords at *
    simp only [if_pos h] at *
    rw [maskDraw_ok _ _ _ _ _ _ a]
  · have h' : ¬ (e.jobLevel ≠ 0 ∧ e.shufLeft = 0) := h
    dsimp only
    simp only [decide_eq_false h', if_false, Bool.false_eq_true]
    unfold shareWords at *
    simp only [if_neg h] at *
    rw [maskDraw_ok _ _ _ _ _ _ a]

/-- An answer in the host buffer. -/
theorem answerBuf_ok (x : State) (out : Buf) (bytes res : List Byte) (o : out.err = none) :
    x.answerBuf out bytes res = .ok (filled x out bytes) res := by
  unfold State.answerBuf State.writeBuf filled; rw [o]; dsimp only; cases bytes.isEmpty <;> rfl

/-- `port.enable` outside a transaction is answered once the standing grant of its pair is held (R149). -/
theorem direct_enable (x y : State) (h : Hdr) (n k : Nat) (res : List Byte) (t : x.mbx.txn = none)
    (a : applyT (.portEnable n) x = .ok (y, res)) (hk : h.iss = .pf k) : x.directT h (.portEnable n) =
      if (atEpoch y).standingHeld n = true then (atEpoch y).answer h.iss (x.okOf h res)
      else { atEpoch y with mbx := { (atEpoch y).mbx with waitEnable := (atEpoch y).mbx.waitEnable ++ [(k, h.seq, n)] } } := by
  unfold State.directT
  rw [a]; dsimp only
  rw [locked_none _ _ t, hk]
  simp only [TCmd.inline, Bool.false_and, Bool.false_eq_true, if_false, if_true]

/-- A command that fails is answered with its status and DETAIL. -/
theorem fail_ok (z : State) (h : Hdr) (e : Err) (k : e.1 ≠ stDmaError) : z.fail h e = z.answer h.iss (z.respOf h e) := by
  unfold State.fail; rw [if_neg k]

/-- A Lath job draws its mask words in the order of its generators (R313). -/
theorem masks_ok (s y : State) (j : Job) (pre : List Nat) (ws : List W512) (f : List W512 → State → State)
    (h : maskDrawn s j pre = some (ws, y)) : (fetched s j).withMasks j pre f = f ws y := by
  unfold maskDrawn at h
  cases k : drawn (fetched s j) (pre ++ j.maskGen) with
  | none => rw [k] at h; cases h
  | some p =>
    rw [k] at h; simp only [Option.map_some, Option.some.injEq, Prod.mk.injEq] at h
    unfold State.withMasks; rw [withWords_ok _ _ _ p.2 p.1 _ k, h.2, h.1]

/-- A Hawk job draws its words (R390). -/
theorem hawk_ok (x y : State) (j : Job) (own : Nat) (ws : List W512) (f : List W512 → State → State)
    (h : hawkDrawn x j own = some (ws, y)) : x.withHawk j own f = f ws y := withWords_ok _ _ _ _ _ _ h

/-- A job whose generator is seeded goes on at once. -/
theorem seeded_ok (x : State) (id : JobId) (f : State → State) (h : PoolSeeded x) : x.whenSeeded id genPool f = f x := by
  unfold State.whenSeeded; rw [if_neg (by simp [h.1]), h.2]

/-- Equal next states. -/
theorem nx {a b : State} (e : a = b) : (Host.Outcome.next a : Host.Outcome State Fault Refusal) = .next b := by rw [e]

/-- A key that a command makes is allocated, and its handle is the result. -/
theorem addKey_ok (x y : State) (ks : KeySpec) (a : Nat) (e : x.rngCmdErr = none) (k : x.allocKey ks = (some a, y)) :
    x.addKey ks = .ok y (leBytes 8 (y.handleOf a).toNat) := by
  unfold State.addKey; rw [e]; dsimp only; rw [k]

/-- A result for X0 is ignored. -/
theorem stageX_eq (s : State) (n : Nat) (rd : BitVec 5) (v : W64) : s.stageX n rd.toNat v = (if rd = 0 then s else s.stage n (fun t => { t with x := t.x ++ [(rd.toNat, v)] })) := by
  unfold State.stageX
  by_cases h : rd = 0
  · rw [if_pos h, if_pos (by simp [h])]
  · rw [if_neg h, if_neg (by intro k; exact h (BitVec.eq_of_toNat_eq (by simpa using k)))]

/-- A scalar operation of two registers. -/
theorem regRow_ok (s : State) (n : Nat) (j : Job) (rd r1 r2 : BitVec 5) (f : W64 → W64 → W64 × FlagSet) (r : Issues s n j) :
    regRow n rd r1 r2 s f = .next ((s.stageX n rd.toNat (f ((s.lath n).xr r1.toNat) ((s.lath n).xr r2.toNat)).1).stageF n (f ((s.lath n).xr r1.toNat) ((s.lath n).xr r2.toNat)).2) := by
  unfold regRow scalarRow; rw [slotRow_ok s n j _ r]

/-- A scalar operation stages its result and its flags. -/
theorem scalarRow_ok (s : State) (n : Nat) (j : Job) (rd : BitVec 5) (f : Lath → W64 × FlagSet) (r : Issues s n j) :
    scalarRow n rd s f = .next ((s.stageX n rd.toNat (f (s.lath n)).1).stageF n (f (s.lath n)).2) := by
  unfold scalarRow; rw [slotRow_ok s n j _ r]

/-- The encoding of a long vector operation passes. -/
theorem long_ok (v : VSlot) (b : Bool) (u : v.u = 0) (w : v.ew = 2) (h : b = true ∨ v.msk = 0) : v.long b = true := by
  unfold VSlot.long; rw [u, w]; rcases h with h | h <;> simp [h]

/-- The long and the binary form of a row of R254. -/
theorem intRow_ok {o : VOp} {s : State} {n : Nat} {j : Job} {v : VSlot} {e : Lath} {a b : List W32}
    (r : Ready s n j (if o = .mv then (if v.xs then [] else [v.b]) else v.reads)) (he : e = s.lath n)
    (u : v.u = 0) (w : v.ew = 2 ∨ o.hasBinary = true ∧ v.ew = 3 ∧ v.msk = 0) (f : v.fnIn 16 = true) (ha : a = e.vr v.a) (hb : b = e.opB v)
    (m : o ≠ .mv ∨ v.vs1 = 0) :
    intRow o n v s = .next (s.elemOp n e v.msk.toNat v.d (fun i => o.eval (elt a i) (elt b i))) := by
  subst he
  unfold intRow; dsimp only; rw [if_pos u, vecRow_ok s n j _ _ _ r (by
    rw [f]
    rcases m with m | m <;> rcases w with w | ⟨w, w2, w3⟩ <;> simp [m, VSlot.long, VSlot.binary, u, *])]
  rw [if_neg (by rw [u]; decide), ha, hb]

/-- The bits of FN outside the allowed ones are 0. -/
theorem fnIn_sub (v : VSlot) (a : Nat) (h : v.fnIn a = true) : v.fn &&& ~~~ (BitVec.ofNat 5 a) = 0 := by
  unfold VSlot.fnIn at h; simpa using h

/-- An element operation stages its register, or only claims it where there is no element to process (R282). -/
theorem elemOp_claims (s : State) (n : Nat) (e : Lath) (k d : Nat) (g : Nat → W32) :
    s.elemOp n e k d g = if e.r.vl ≤ e.r.vstart then (s.stage n (fun t => { t with vsElem := true })).stage n (fun t => { t with vClaim := t.vClaim ++ [d] })
      else (s.stage n (fun t => { t with vsElem := true })).stageV n d (overwrite (e.vr d) (e.active k) g) := rfl

/-- Two fresh shares. -/
theorem freshShare_two (q : Nat) (ws : List W32) (x : Nat → Nat) (r : Nat → Nat → W32)
    (hr : r = fun k i => if q = 0 then elt ws (1 * i + k) else w32 ((elt ws (1 * i + k)).toNat % q)) :
    freshShare q 2 ws x = [fun i => if q = 0 then w32 (x i) ^^^ r 0 i else w32 ((x i % q + q - (r 0 i).toNat) % q), r 0] := by
  subst hr; unfold freshShare; simp [List.range_succ]

/-- Three fresh shares. -/
theorem freshShare_three (q : Nat) (ws : List W32) (x : Nat → Nat) (r : Nat → Nat → W32)
    (hr : r = fun k i => if q = 0 then elt ws (2 * i + k) else w32 ((elt ws (2 * i + k)).toNat % q)) :
    freshShare q 3 ws x = [fun i => if q = 0 then w32 (x i) ^^^ r 0 i ^^^ r 1 i
      else w32 ((x i % q + 2 * q - ((r 0 i).toNat + (r 1 i).toNat)) % q), r 0, r 1] := by
  subst hr; unfold freshShare; simp [List.range_succ]

/-- A share-mode row that passes its checks draws and is carried out. -/
theorem shareRow_ok (s : State) (n : Nat) (j : Job) (v : VSlot) (fb : Nat) (dst : Option Nat) (srcs plain : List Nat) (extra : Lath → Bool) (w : Nat)
    (f : Lath → List W32 → State → State) (ws : List W32) (x : State) (r : ShareReady s n j v fb dst srcs plain) (ex : extra (s.lath n) = true)
    (d : ∀ f, s.shareDraw n (s.lath n) j w f = f ws x) :
    shareRow n v fb dst srcs plain extra w s f = .next (f (s.lath n) ws (x.stage n (fun t => { t with vsElem := true }))) := by
  obtain ⟨⟨a, b, c⟩, e, g⟩ := r
  unfold shareRow; rw [slotRow_ok s n j _ a, b, e, g, ex, c, d]; rfl

/-- The shares of a sharing. -/
theorem shares_getD (e : Lath) (v : VSlot) (r k : Nat) (h : k < v.g) : (e.shares v.g r).getD k [] = e.vr (r + k) := by
  unfold Lath.shares groupOf
  rw [List.getD_eq_getElem?_getD, List.getElem?_map, List.getElem?_map, List.getElem?_range h]; rfl

/-- A share-wise operation. -/
theorem shareWise_ok (s : State) (n : Nat) (j : Job) (v : VSlot) (fb : Nat) (p0 np : Bool) (f : Nat → W32 → W32 → W32) (keep : W32 → W32)
    (ws : List W32) (x : State) (r : ShareReady s n j v fb (some v.d) v.srcGroups v.srcPlain) (ex : v.pubOk = true) (hn : np = true → v.pub = true)
    (d : ∀ f, s.shareDraw n (s.lath n) j 0 f = f ws x) :
    shareWise fb p0 np f keep n v s = .next ((x.stage n (fun t => { t with vsElem := true })).stageG n (s.lath n) v.d ((List.range v.g).map (fun k => fun i =>
        if v.pub then (if p0 && k != 0 then keep (elt ((s.lath n).vr (v.a + k)) i) else f k (elt ((s.lath n).vr (v.a + k)) i) (elt ((s.lath n).pubOp v) i))
          else f k (elt ((s.lath n).vr (v.a + k)) i) (elt ((s.lath n).vr (v.b + k)) i)))) := by
  unfold shareWise
  rw [shareRow_ok s n j v fb _ _ _ _ 0 _ ws x r (by rw [ex]; cases np <;> simp_all) d]
  dsimp only
  congr 2
  apply List.map_congr_left
  intro k hk
  have hk := List.mem_range.mp hk
  funext i
  rw [shares_getD _ _ _ _ hk, shares_getD _ _ _ _ hk]

/-- An operation on each share. -/
theorem each_ok (y : State) (n : Nat) (v : VSlot) (e : Lath) (f : List W32 → Nat → W32) :
    y.stageG n e v.d ((e.shares v.g v.a).map f) = y.stageG n e v.d ((List.range v.g).map (fun k => f (e.vr (v.a + k)))) := by
  unfold Lath.shares groupOf; rw [List.map_map, List.map_map]; rfl

/-- A vector load whose accesses all pass stages its registers after its tenures, or waits for a lock. -/
theorem vecLoad_ok (s : State) (n : Nat) (e : Lath) (j : Job) (m : MemV) (f : Nat) (ad : Addrs) (act : List Nat) (ha : act = e.active m.msk.toNat)
    (w : e.walk false m.ecc ad act = (act, none)) (bs : List Nat) (hb : bs = beatRequests ad 16 act) :
    (s.lockedOut (n / 4) (n % 4) (bs.map (fun b => 8 + b / 8192)) = true → s.vecLoad n e j m f ad = s.waitSlot n j) ∧
    (s.lockedOut (n / 4) (n % 4) (bs.map (fun b => 8 + b / 8192)) = false → ∀ y, y = s.beatTenures (n / 4) (n % 4) bs → s.vecLoad n e j m f ad =
      (if act = [] then y.stage n (fun t => { t with vClaim := t.vClaim ++ (List.range f).map (fun k => m.vr.toNat + k) })
        else (List.range f).foldl (fun x k => x.stageV n (m.vr.toNat + k) (overwrite (e.vr (m.vr.toNat + k)) act
              (fun i => BitVec.ofNat 32 (ofLe (y.localRead n ((ad i).getD k 0) 4))))) y).stage n (fun t => { t with vsElem := true })) := by
  constructor
  · intro h; unfold State.vecLoad; rw [← ha, w]; dsimp only; rw [← hb, withBeats_ok, if_pos h]
  · intro h y hy; unfold State.vecLoad; rw [← ha, w]; dsimp only; rw [← hb, withBeats_ok, if_neg (by simp [h]), ← hy]; simp only [List.isEmpty_iff]

/-- A vector store whose accesses all pass writes its elements after its tenures, or waits for a lock. -/
theorem vecStore_ok (s : State) (n : Nat) (e : Lath) (j : Job) (m : MemV) (f : Nat) (ad : Addrs) (act : List Nat) (ha : act = e.active m.msk.toNat)
    (w : e.walk true m.ecc ad act = (act, none)) (bs : List Nat) (hb : bs = beatRequests ad 16 act) :
    (s.lockedOut (n / 4) (n % 4) (bs.map (fun b => 8 + b / 8192)) = true → s.vecStore n e j m f ad = s.waitSlot n j) ∧
    (s.lockedOut (n / 4) (n % 4) (bs.map (fun b => 8 + b / 8192)) = false → s.vecStore n e j m f ad =
      (act.foldl (fun x i => (List.range f).foldl (fun y k => localWrite n ((ad i).getD k 0)
            (leBytes 4 (elt (((List.range f).map (fun k => e.vr (m.vr.toNat + k))).getD k []) i).toNat) y) x)
              (s.beatTenures (n / 4) (n % 4) bs)).stage n (fun t => { t with vsElem := true })) := by
  constructor
  · intro h; unfold State.vecStore; rw [← ha, w]; dsimp only; rw [← hb, withBeats_ok, if_pos h]
  · intro h; unfold State.vecStore; rw [← ha, w]; dsimp only; rw [← hb, withBeats_ok, if_neg (by simp [h])]

/-- A row of two cases. -/
theorem nx2 {a b c : State} {P Q : Prop} (h : (P → a = b) ∧ (Q → a = c)) {o : Host.Outcome State Fault Refusal} (e : o = .next a) :
    (P → o = .next b) ∧ (Q → o = .next c) := ⟨fun p => by rw [e, h.1 p], fun q => by rw [e, h.2 q]⟩

/-- A row of two cases, the second over a state of its own. -/
theorem nx3 {a b : State} {P Q : Prop} {Y : State → Prop} {c : State → State} (h : (P → a = b) ∧ (Q → ∀ y, Y y → a = c y)) {o : Host.Outcome State Fault Refusal}
    (e : o = .next a) : (P → o = .next b) ∧ (Q → ∀ y, Y y → o = .next (c y)) :=
  ⟨fun p => by rw [e, h.1 p], fun q y hy => by rw [e, h.2 q y hy]⟩

/-- A 64-bit load or store passes its checks, waits for a lock, or records its fault. -/
theorem xRow_ok (s : State) (n : Nat) (j : Job) (m : MemX) (store : Bool) (claim : State → State) (f : Lath → State → State)
    (r : Ready s n j []) (V : ((s.lath n).r.vstart == 0) = true) (a : Nat) (ha : a = m.addr (s.lath n)) (ecc : Option Nat)
    (he : ecc = if m.ecc then some 0 else none) :
    ((s.lath n).firstBad store ecc 8 [a] = none → xRow n m store claim s f =
      .next (if s.lockedOut (n / 4) (n % 4) ((beatsOf [a]).map (fun b => 8 + b / 8192)) then s.waitSlot n j
        else f (s.lath n) (s.beatTenures (n / 4) (n % 4) (beatsOf [a])))) ∧
    (∀ c b, (s.lath n).firstBad store ecc 8 [a] = some (c, b) → xRow n m store claim s f = .next ((claim s).memFault n c 0 b)) := by
  constructor
  · intro c; unfold xRow; rw [vecRowJ_ok s n j _ _ _ r V]; rw [← ha, ← he, c]; rfl
  · intro c b h; unfold xRow; rw [vecRowJ_ok s n j _ _ _ r V]; rw [← ha, ← he, h]

/-- The bytes of a number, least significant first. -/
theorem leBytes_getD (k x i : Nat) (h : i < k) : (leBytes k x).getD i 0 = BitVec.ofNat 8 (x / 2 ^ (8 * i)) := by
  induction k generalizing x i with
  | zero => omega
  | succ k ih =>
    cases i with
    | zero => simp [leBytes]
    | succ i =>
      rw [leBytes, List.getD_cons_succ, ih _ i (by omega), Nat.div_div_eq_div_mul]
      rw [show 256 * 2 ^ (8 * i) = 2 ^ (8 * (i + 1)) from by rw [show 8 * (i + 1) = 8 * i + 8 from by omega, Nat.pow_add, Nat.mul_comm]]

/-- PMBus answers outside DUSTSHEET. -/
theorem pm_on (s : State) (v : s.pwr.vin = true) (d : s.pwr.st ≠ .dustsheet) (b : Bool) : s.pmOn b = true := by
  unfold State.pmOn; rw [v]; cases b <;> simp [d]

/-- A PMBus read on a page that it has. -/
theorem pmRead_ok (s : State) (b : Bool) (pages : List Nat) (l : List Byte) (o : s.pmOn b = true)
    (p : pages.contains s.pwr.page.toNat = true) : s.pmRead .read b pages l = s.emit (.smbus l) := by
  unfold State.pmRead; rw [o]; simp only [if_true, p, State.pmAnswer]

/-- A read-only PMBus command refuses a write, and a wrong packet error code. -/
theorem refuses_ok {c : PmOp → Instr} {s : State} {b : Bool} {pages : List Nat} {l : List Byte} (o : s.pmOn b = true)
    (e : ∀ op, exec (c op) s = .next (s.pmRead op b pages l)) :
    exec (c .badPec) s = .next s.pmBad ∧ ∀ d, exec (c (.write d)) s = .next (s.emit .smbusNack) := by
  constructor
  · rw [e]; unfold State.pmRead; rw [if_pos o]
  · intro d; rw [e]; unfold State.pmRead; rw [if_pos o]

/-- PMBus without VIN acknowledges nothing. -/
theorem off_ok {c : PmOp → Instr} {s : State} {b : Bool} {pages : List Nat} {l : List Byte} (o : s.pmOn b = false)
    (e : ∀ op, exec (c op) s = .next (s.pmRead op b pages l)) (op : PmOp) : exec (c op) s = .next (s.emit .smbusNack) := by
  rw [e]; unfold State.pmRead; rw [if_neg (by simp [o])]

/-- The pages that a PMBus command may have. -/
theorem pages_ok (s : State) : (s.pwr.page.toNat ≤ 7 → allPages.contains s.pwr.page.toNat = true) ∧
    (s.pwr.page.toNat ≤ 6 → rails.contains s.pwr.page.toNat = true) ∧
    ((s.pwr.page.toNat ≤ 7 ∨ s.pwr.page.toNat = 255) → (255 :: allPages).contains s.pwr.page.toNat = true) := by
  have A : s.pwr.page.toNat ≤ 7 → allPages.contains s.pwr.page.toNat = true := by
    intro h; have : ∀ n ≤ 7, allPages.contains n = true := by decide
    exact this _ h
  have R : s.pwr.page.toNat ≤ 6 → rails.contains s.pwr.page.toNat = true := by
    intro h; have : ∀ n ≤ 6, rails.contains n = true := by decide
    exact this _ h
  refine ⟨A, R, fun h => ?_⟩
  rcases h with h | h
  · rw [List.contains_cons, A h, Bool.or_true]
  · rw [h]; rfl

/-- An entry of a mapped table. -/
theorem mem_map_tbl {α : Type} [DecidableEq α] (d : α) (f : Nat → α → α) (t : Tbl α) (k : Nat) (b : α) (h : (k, b) ∈ t) (n : f k b ≠ d) :
    (k, f k b) ∈ Tbl.map d f t := by
  induction t with
  | nil => cases h
  | cons p t ih =>
    obtain ⟨i, v⟩ := p
    rw [Tbl.map]
    rcases List.mem_cons.mp h with h | h
    · cases h; rw [if_neg n]; exact List.mem_cons_self
    · split
      · exact ih h
      · exact List.mem_cons_of_mem _ (ih h)

/-- One staged X register stands after the commit. -/
theorem commit_x1 (e : Lath) (d : Nat) (w : W64) (h : d ≠ 0) (k : e.stage.x = [(d, w)]) : e.commit.xr d = w := by
  have : e.commit.r.x = Tbl.set 0 e.r.x d w := by unfold Lath.commit putAll; dsimp only; rw [k]; rfl
  unfold Lath.xr; rw [if_neg h, this]; exact Tbl.get_set_self _ _ _ _

/-- The bits of a bitmap. -/
theorem bitmap_range (p : Nat → Bool) (k : Nat) : bitmap ((List.range k).filter p) < 2 ^ k ∧
    ∀ g, (bitmap ((List.range k).filter p)).testBit g = (decide (g < k) && p g) := by
  induction k with
  | zero => refine ⟨by simp [bitmap], fun g => by simp [bitmap]⟩
  | succ k ih =>
    have h : bitmap ((List.range (k + 1)).filter p) = bitmap ((List.range k).filter p) + if p k then 2 ^ k else 0 := by
      unfold bitmap; rw [List.range_succ, List.filter_append, List.foldl_append]; cases hp : p k <;> simp [hp]
    rw [h]
    obtain ⟨lt, tb⟩ := ih
    cases hp : p k
    · simp only [Bool.false_eq_true, if_false, Nat.add_zero]
      refine ⟨by rw [Nat.pow_succ]; omega, fun g => ?_⟩
      rw [tb]
      by_cases hg : g = k
      · subst hg; simp [hp]
      · have : (g < k + 1) ↔ g < k := by omega
        simp [this]
    · simp only [if_true]
      refine ⟨by rw [Nat.pow_succ]; omega, fun g => ?_⟩
      rw [Nat.add_comm]
      rcases Nat.lt_trichotomy g k with hg | hg | hg
      · rw [Nat.testBit_two_pow_add_gt hg, tb]; simp [hg]; omega
      · subst hg; rw [Nat.testBit_two_pow_add_eq, tb]; simp [hp]
      · rw [Nat.testBit_lt_two_pow (Nat.lt_of_lt_of_le (by rw [show 2 ^ k + bitmap ((List.range k).filter p) = bitmap ((List.range k).filter p) + 2 ^ k by omega]; exact (show bitmap ((List.range k).filter p) + 2 ^ k < 2 ^ (k + 1) by rw [Nat.pow_succ]; omega)) (Nat.pow_le_pow_right (by decide) hg))]
        simp; omega

end Sys2Proof.Laws
end

