-- ==== Sys2Proof/Laws/FrameBase.lean ====
section
/-!
SUPPORT. Three things that almost no operation touches: the queue of waiting commands, the clock, and the life-cycle words in
OTP. One lemma per operation, for the shared operations: registers, jobs, key slots, pairs, units and the fault supervisor.
-/
set_option linter.unusedSimpArgs false
set_option linter.unusedVariables false

namespace Sys2Proof.Machine

/-! ## Machine/Ops.lean -/

@[simp] theorem State.updFn_frame (s : State) (f : Nat) (g : Fn → Fn) :
    (State.updFn s f g).pending = s.pending ∧ (State.updFn s f g).clk = s.clk ∧
    (State.updFn s f g).otp.lcw = s.otp.lcw := by
  simp [State.updFn]

@[simp] theorem State.updQueue_frame (s : State) (q : Nat) (g : Queue → Queue) :
    (State.updQueue s q g).pending = s.pending ∧ (State.updQueue s q g).clk = s.clk ∧
    (State.updQueue s q g).otp.lcw = s.otp.lcw := by
  simp [State.updQueue]

@[simp] theorem State.updSlot_frame (s : State) (k : Nat) (g : BSlot → BSlot) :
    (State.updSlot s k g).pending = s.pending ∧ (State.updSlot s k g).clk = s.clk ∧
    (State.updSlot s k g).otp.lcw = s.otp.lcw := by
  simp [State.updSlot]

@[simp] theorem State.updPair_frame (s : State) (n : Nat) (g : Pair → Pair) :
    (State.updPair s n g).pending = s.pending ∧ (State.updPair s n g).clk = s.clk ∧
    (State.updPair s n g).otp.lcw = s.otp.lcw := by
  simp [State.updPair]

@[simp] theorem State.updSub_frame (s : State) (p sub : Nat) (g : SubPort → SubPort) :
    (State.updSub s p sub g).pending = s.pending ∧ (State.updSub s p sub g).clk = s.clk ∧
    (State.updSub s p sub g).otp.lcw = s.otp.lcw := by
  simp [State.updSub]

@[simp] theorem State.updSa_frame (s : State) (dir a : Nat) (g : Sa → Sa) :
    (State.updSa s dir a g).pending = s.pending ∧ (State.updSa s dir a g).clk = s.clk ∧
    (State.updSa s dir a g).otp.lcw = s.otp.lcw := by
  simp [State.updSa]

@[simp] theorem State.updRnd_frame (s : State) (n : Nat) (g : Rnd → Rnd) :
    (State.updRnd s n g).pending = s.pending ∧ (State.updRnd s n g).clk = s.clk ∧
    (State.updRnd s n g).otp.lcw = s.otp.lcw := by
  simp [State.updRnd]

@[simp] theorem State.updLath_frame (s : State) (n : Nat) (g : Lath → Lath) :
    (State.updLath s n g).pending = s.pending ∧ (State.updLath s n g).clk = s.clk ∧
    (State.updLath s n g).otp.lcw = s.otp.lcw := by
  simp [State.updLath]

@[simp] theorem State.updQuad_frame (s : State) (q : Nat) (g : Quad → Quad) :
    (State.updQuad s q g).pending = s.pending ∧ (State.updQuad s q g).clk = s.clk ∧
    (State.updQuad s q g).otp.lcw = s.otp.lcw := by
  simp [State.updQuad]

@[simp] theorem State.updHawk_frame (s : State) (n : Nat) (g : Hawk → Hawk) :
    (State.updHawk s n g).pending = s.pending ∧ (State.updHawk s n g).clk = s.clk ∧
    (State.updHawk s n g).otp.lcw = s.otp.lcw := by
  simp [State.updHawk]

@[simp] theorem State.updCtx_frame (s : State) (n : Nat) (g : Ctx → Ctx) :
    (State.updCtx s n g).pending = s.pending ∧ (State.updCtx s n g).clk = s.clk ∧
    (State.updCtx s n g).otp.lcw = s.otp.lcw := by
  simp [State.updCtx]

@[simp] theorem State.updCore_frame (s : State) (n : Nat) (g : Core → Core) :
    (State.updCore s n g).pending = s.pending ∧ (State.updCore s n g).clk = s.clk ∧
    (State.updCore s n g).otp.lcw = s.otp.lcw := by
  simp [State.updCore]

@[simp] theorem State.updGen_frame (s : State) (n : Nat) (g : Gen → Gen) :
    (State.updGen s n g).pending = s.pending ∧ (State.updGen s n g).clk = s.clk ∧
    (State.updGen s n g).otp.lcw = s.otp.lcw := by
  simp [State.updGen]

@[simp] theorem State.updSrc_frame (s : State) (n : Nat) (g : Source → Source) :
    (State.updSrc s n g).pending = s.pending ∧ (State.updSrc s n g).clk = s.clk ∧
    (State.updSrc s n g).otp.lcw = s.otp.lcw := by
  simp [State.updSrc]

@[simp] theorem State.updUnit_frame (s : State) (u : Nat) (g : PUnit → PUnit) :
    (State.updUnit s u g).pending = s.pending ∧ (State.updUnit s u g).clk = s.clk ∧
    (State.updUnit s u g).otp.lcw = s.otp.lcw := by
  simp [State.updUnit]

@[simp] theorem State.updRail_frame (s : State) (n : Nat) (g : Rail → Rail) :
    (State.updRail s n g).pending = s.pending ∧ (State.updRail s n g).clk = s.clk ∧
    (State.updRail s n g).otp.lcw = s.otp.lcw := by
  simp [State.updRail]

@[simp] theorem State.updMslot_frame (s : State) (n : Nat) (g : MSlot → MSlot) :
    (State.updMslot s n g).pending = s.pending ∧ (State.updMslot s n g).clk = s.clk ∧
    (State.updMslot s n g).otp.lcw = s.otp.lcw := by
  simp [State.updMslot]

@[simp] theorem State.updVmbx_frame (s : State) (v : Nat) (g : VMbx → VMbx) :
    (State.updVmbx s v g).pending = s.pending ∧ (State.updVmbx s v g).clk = s.clk ∧
    (State.updVmbx s v g).otp.lcw = s.otp.lcw := by
  simp [State.updVmbx]

@[simp] theorem State.updHss_frame (s : State) (k : Nat) (g : Hss → Hss) :
    (State.updHss s k g).pending = s.pending ∧ (State.updHss s k g).clk = s.clk ∧
    (State.updHss s k g).otp.lcw = s.otp.lcw := by
  simp [State.updHss]

@[simp] theorem State.updJob_frame (s : State) (id : JobId) (g : Job → Job) :
    (State.updJob s id g).pending = s.pending ∧ (State.updJob s id g).clk = s.clk ∧
    (State.updJob s id g).otp.lcw = s.otp.lcw := by
  simp [State.updJob]

@[simp] theorem State.dropJob_frame (s : State) (id : JobId) :
    (State.dropJob s id).pending = s.pending ∧ (State.dropJob s id).clk = s.clk ∧
    (State.dropJob s id).otp.lcw = s.otp.lcw := by
  simp [State.dropJob]

@[simp] theorem State.draw_frame (s : State) :
    (State.draw s).2.pending = s.pending ∧ (State.draw s).2.clk = s.clk ∧ (State.draw s).2.otp.lcw = s.otp.lcw := by
  simp [State.draw]

@[simp] theorem State.emit_frame (s : State) (o : Out) :
    (State.emit s o).pending = s.pending ∧ (State.emit s o).clk = s.clk ∧ (State.emit s o).otp.lcw = s.otp.lcw := by
  simp [State.emit]

@[simp] theorem State.wakeLink_frame (s : State) :
    (State.wakeLink s).pending = s.pending ∧ (State.wakeLink s).clk = s.clk ∧
    (State.wakeLink s).otp.lcw = s.otp.lcw := by
  unfold State.wakeLink
  split <;> simp

@[simp] theorem State.msix_frame (s : State) (f v : Nat) :
    (State.msix s f v).pending = s.pending ∧ (State.msix s f v).clk = s.clk ∧
    (State.msix s f v).otp.lcw = s.otp.lcw := by
  (simp [State.msix, apply_ite State.pending, apply_ite State.clk, apply_ite State.otp, apply_ite Otp.lcw]; done)

@[simp] theorem State.fnEvent_frame (s : State) (b : Nat) :
    (State.fnEvent s b).pending = s.pending ∧ (State.fnEvent s b).clk = s.clk ∧
    (State.fnEvent s b).otp.lcw = s.otp.lcw := by
  simp [State.fnEvent]

@[simp] theorem State.devStatus_frame (s : State) :
    (State.devStatus s).pending = s.pending ∧ (State.devStatus s).clk = s.clk ∧
    (State.devStatus s).otp.lcw = s.otp.lcw := by
  simp [State.devStatus]

@[simp] theorem State.activity_frame (s : State) :
    (State.activity s).pending = s.pending ∧ (State.activity s).clk = s.clk ∧
    (State.activity s).otp.lcw = s.otp.lcw := by
  unfold State.activity
  split <;> simp

@[simp] theorem State.latchCause_frame (s : State) (c : Nat) :
    (State.latchCause s c).pending = s.pending ∧ (State.latchCause s c).clk = s.clk ∧
    (State.latchCause s c).otp.lcw = s.otp.lcw := by
  simp [State.latchCause]

@[simp] theorem State.devLog_frame (s : State) (r : LogRec) :
    (State.devLog s r).pending = s.pending ∧ (State.devLog s r).clk = s.clk ∧
    (State.devLog s r).otp.lcw = s.otp.lcw := by
  unfold State.devLog
  dsimp only
  repeat' split
  all_goals simp

@[simp] theorem State.devLogOther_frame (s : State) (unit : W16) (detail : Nat) :
    (State.devLogOther s unit detail).pending = s.pending ∧ (State.devLogOther s unit detail).clk = s.clk ∧
    (State.devLogOther s unit detail).otp.lcw = s.otp.lcw := by
  simp [State.devLogOther]

/-! ## Machine/Jobs.lean -/

@[simp] theorem State.place_frame (s : State) (j : Job) (n : Nat) :
    (State.place s j n).pending = s.pending ∧ (State.place s j n).clk = s.clk ∧
    (State.place s j n).otp.lcw = s.otp.lcw := by
  unfold State.place
  dsimp only
  repeat' split
  all_goals simp

@[simp] theorem State.takeNext_frame (s : State) (k : EKind) (n : Nat) (j : Job) (r : Nat × Nat) :
    (State.takeNext s k n j r).pending = s.pending ∧ (State.takeNext s k n j r).clk = s.clk ∧
    (State.takeNext s k n j r).otp.lcw = s.otp.lcw := by
  simp [State.takeNext]

@[simp] theorem State.fill_frame (s : State) (k : EKind) (n : Nat) :
    (State.fill s k n).pending = s.pending ∧ (State.fill s k n).clk = s.clk ∧
    (State.fill s k n).otp.lcw = s.otp.lcw := by
  (unfold State.fill; (repeat' split) <;> simp [apply_ite State.pending, apply_ite State.clk, apply_ite State.otp, apply_ite Otp.lcw]; done)

@[simp] theorem fillKind_frame (k : EKind) (x0 : List Nat) (s : State) :
    (fillKind k x0 s).pending = s.pending ∧ (fillKind k x0 s).clk = s.clk ∧
    (fillKind k x0 s).otp.lcw = s.otp.lcw := by
  (fun_induction fillKind k x0 s <;> simp_all; done)

@[simp] theorem State.assign_frame (s : State) :
    (State.assign s).pending = s.pending ∧ (State.assign s).clk = s.clk ∧ (State.assign s).otp.lcw = s.otp.lcw := by
  unfold State.assign
  split <;> simp

@[simp] theorem State.releaseGrant_frame (s : State) (k : EKind) (n : Nat) :
    (State.releaseGrant s k n).pending = s.pending ∧ (State.releaseGrant s k n).clk = s.clk ∧
    (State.releaseGrant s k n).otp.lcw = s.otp.lcw := by
  simp [State.releaseGrant]

@[simp] theorem State.leaveEngine_frame (s : State) (j : Job) :
    (State.leaveEngine s j).pending = s.pending ∧ (State.leaveEngine s j).clk = s.clk ∧
    (State.leaveEngine s j).otp.lcw = s.otp.lcw := by
  unfold State.leaveEngine
  split <;> simp

@[simp] theorem State.endJob_frame (s : State) (id : JobId) (r : JobRes) :
    (State.endJob s id r).pending = s.pending ∧ (State.endJob s id r).clk = s.clk ∧
    (State.endJob s id r).otp.lcw = s.otp.lcw := by
  unfold State.endJob
  dsimp only
  repeat' split
  all_goals simp

@[simp] theorem State.failJob_frame (s : State) (id : JobId) (status : W16) (detail : Nat) :
    (State.failJob s id status detail).pending = s.pending ∧ (State.failJob s id status detail).clk = s.clk ∧
    (State.failJob s id status detail).otp.lcw = s.otp.lcw := by
  simp [State.failJob]

@[simp] theorem State.borrowWipe_frame (s : State) (j : Job) (r : W16 × W32) :
    (State.borrowWipe s j r).pending = s.pending ∧ (State.borrowWipe s j r).clk = s.clk ∧
    (State.borrowWipe s j r).otp.lcw = s.otp.lcw := by
  unfold State.borrowWipe
  dsimp only
  repeat' split
  all_goals simp

@[simp] theorem State.serveWipe_frame (s : State) :
    (State.serveWipe s).pending = s.pending ∧ (State.serveWipe s).clk = s.clk ∧
    (State.serveWipe s).otp.lcw = s.otp.lcw := by
  (unfold State.serveWipe; (repeat' split) <;> simp [apply_ite State.pending, apply_ite State.clk, apply_ite State.otp, apply_ite Otp.lcw]; done)

@[simp] theorem State.returnWipe_frame (s : State) (hd : Holder) :
    (State.returnWipe s hd).pending = s.pending ∧ (State.returnWipe s hd).clk = s.clk ∧
    (State.returnWipe s hd).otp.lcw = s.otp.lcw := by
  unfold State.returnWipe
  split <;> simp

@[simp] theorem State.abortJob_frame (s : State) (id : JobId) (detail : Nat) :
    (State.abortJob s id detail).pending = s.pending ∧ (State.abortJob s id detail).clk = s.clk ∧
    (State.abortJob s id detail).otp.lcw = s.otp.lcw := by
  (unfold State.abortJob; (repeat' split) <;> simp [apply_ite State.pending, apply_ite State.clk, apply_ite State.otp, apply_ite Otp.lcw]; done)

@[simp] theorem State.signalPme_frame (s : State) (f : Nat) :
    (State.signalPme s f).pending = s.pending ∧ (State.signalPme s f).clk = s.clk ∧
    (State.signalPme s f).otp.lcw = s.otp.lcw := by
  unfold State.signalPme
  dsimp only
  repeat' split
  all_goals simp

@[simp] theorem State.raiseQueueIrq_frame (s : State) (q : Nat) :
    (State.raiseQueueIrq s q).pending = s.pending ∧ (State.raiseQueueIrq s q).clk = s.clk ∧
    (State.raiseQueueIrq s q).otp.lcw = s.otp.lcw := by
  unfold State.raiseQueueIrq
  dsimp only
  repeat' split
  all_goals simp

@[simp] theorem State.moderate_frame (s : State) (q : Nat) (now : Bool) :
    (State.moderate s q now).pending = s.pending ∧ (State.moderate s q now).clk = s.clk ∧
    (State.moderate s q now).otp.lcw = s.otp.lcw := by
  unfold State.moderate
  dsimp only
  repeat' split
  all_goals simp

@[simp] theorem State.writeback_frame (s : State) (q : Nat) :
    (State.writeback s q).pending = s.pending ∧ (State.writeback s q).clk = s.clk ∧
    (State.writeback s q).otp.lcw = s.otp.lcw := by
  unfold State.writeback
  dsimp only
  repeat' split
  all_goals simp

@[simp] theorem State.advanceCi_frame (s : State) (q : Nat) :
    (State.advanceCi s q).pending = s.pending ∧ (State.advanceCi s q).clk = s.clk ∧
    (State.advanceCi s q).otp.lcw = s.otp.lcw := by
  unfold State.advanceCi
  dsimp only
  repeat' split
  all_goals simp

@[simp] theorem State.putRecord_frame (s : State) (f : Nat) (id : JobId) (c : Comp) (segs : List (W64 × List Byte)) :
    (State.putRecord s f id c segs).pending = s.pending ∧ (State.putRecord s f id c segs).clk = s.clk ∧
    (State.putRecord s f id c segs).otp.lcw = s.otp.lcw := by
  unfold State.putRecord
  split <;> simp

@[simp] theorem State.returnToken_frame (s : State) (f : Nat) :
    (State.returnToken s f).pending = s.pending ∧ (State.returnToken s f).clk = s.clk ∧
    (State.returnToken s f).otp.lcw = s.otp.lcw := by
  unfold State.returnToken
  split <;> simp

@[simp] theorem State.holdRecord_frame (s : State) (r : HeldRec) :
    (State.holdRecord s r).pending = s.pending ∧ (State.holdRecord s r).clk = s.clk ∧
    (State.holdRecord s r).otp.lcw = s.otp.lcw := by
  simp [State.holdRecord]

@[simp] theorem State.finishEntry_frame (s : State) (f : Nat) (id : JobId) (c : Comp)
    (segs : List (W64 × List Byte)) (tok : Bool) :
    (State.finishEntry s f id c segs tok).pending = s.pending ∧ (State.finishEntry s f id c segs tok).clk = s.clk ∧
    (State.finishEntry s f id c segs tok).otp.lcw = s.otp.lcw := by
  unfold State.finishEntry
  dsimp only
  repeat' split
  all_goals simp

theorem ite_error_ok {α β : Type} {c : Prop} [Decidable c] {e : α} {x : Except α β} {r : β} :
    (if c then .error e else x) = .ok r ↔ ¬c ∧ x = .ok r := by
  split <;> simp [*]

@[simp] theorem State.dropRefs_frame (s : State) (l : List Nat) :
    (State.dropRefs s l).pending = s.pending ∧ (State.dropRefs s l).clk = s.clk ∧
    (State.dropRefs s l).otp.lcw = s.otp.lcw := by
  induction l generalizing s with
  | nil => simp [State.dropRefs]
  | cons k t ih => simp [State.dropRefs, ih]

@[simp] theorem State.answerPf_frame (s : State) (n : Nat) (r : Resp) :
    (State.answerPf s n r).pending = s.pending ∧ (State.answerPf s n r).clk = s.clk ∧
    (State.answerPf s n r).otp.lcw = s.otp.lcw := by
  unfold State.answerPf
  dsimp only
  repeat' split
  all_goals simp

@[simp] theorem State.answerVf_frame (s : State) (v : Nat) (r : Resp) :
    (State.answerVf s v r).pending = s.pending ∧ (State.answerVf s v r).clk = s.clk ∧
    (State.answerVf s v r).otp.lcw = s.otp.lcw := by
  unfold State.answerVf
  dsimp only
  repeat' split
  all_goals simp

@[simp] theorem State.answerSmb_frame (s : State) (r : Resp) :
    (State.answerSmb s r).pending = s.pending ∧ (State.answerSmb s r).clk = s.clk ∧
    (State.answerSmb s r).otp.lcw = s.otp.lcw := by
  simp [State.answerSmb]

@[simp] theorem State.answer_frame (s : State) (x0 : Issuer) (x1 : Resp) :
    (State.answer s x0 x1).pending = s.pending ∧ (State.answer s x0 x1).clk = s.clk ∧
    (State.answer s x0 x1).otp.lcw = s.otp.lcw := by
  unfold State.answer
  split <;> simp

@[simp] theorem State.completeJob_frame (s : State) (j : Job) :
    (State.completeJob s j).pending = s.pending ∧ (State.completeJob s j).clk = s.clk ∧
    (State.completeJob s j).otp.lcw = s.otp.lcw := by
  unfold State.completeJob
  dsimp only
  repeat' split
  all_goals simp

/-! ## Machine/Bond.lean -/

@[simp] theorem State.writeRunSlot_frame (s : State) (k n i : Nat) (ks : KeySpec) (gen : Byte) (stamp : W32)
    (persist : Bool) :
    (State.writeRunSlot s k n i ks gen stamp persist).pending = s.pending ∧
    (State.writeRunSlot s k n i ks gen stamp persist).clk = s.clk ∧
    (State.writeRunSlot s k n i ks gen stamp persist).otp.lcw = s.otp.lcw := by
  simp [State.writeRunSlot]

@[simp] theorem State.writeRun_frame (s : State) (k n : Nat) (ks : KeySpec) (gen : Byte) (stamp : W32)
    (persist : Bool)
    (l : List Nat) :
    (State.writeRun s k n ks gen stamp persist l).pending = s.pending ∧
    (State.writeRun s k n ks gen stamp persist l).clk = s.clk ∧
    (State.writeRun s k n ks gen stamp persist l).otp.lcw = s.otp.lcw := by
  induction l generalizing s with
  | nil => simp [State.writeRun]
  | cons i t ih => simp [State.writeRun, ih]

@[simp] theorem State.allocKey_frame (s : State) (ks : KeySpec) :
    (State.allocKey s ks).2.pending = s.pending ∧ (State.allocKey s ks).2.clk = s.clk ∧
    (State.allocKey s ks).2.otp.lcw = s.otp.lcw := by
  unfold State.allocKey
  dsimp only
  repeat' split
  all_goals simp

theorem State.allocKeys_frame (s : State) (l : List KeySpec) {r : List Nat} {s' : State}
    (h : s.allocKeys l = some (r, s')) : s'.pending = s.pending ∧ s'.clk = s.clk ∧ s'.otp.lcw = s.otp.lcw := by
  induction l generalizing s r s' with
  | nil => simp [State.allocKeys] at h; simp [← h.2]
  | cons ks t ih =>
    have f := State.allocKey_frame s ks
    simp only [State.allocKeys] at h
    split at h
    · rename_i k s1 e
      rw [e] at f
      split at h
      · rename_i l2 s2 e2
        cases h
        have g := ih s1 e2
        exact ⟨g.1.trans f.1, g.2.1.trans f.2.1, g.2.2.trans f.2.2⟩
      · cases h
    · cases h

@[simp] theorem State.releaseSlot_frame (s : State) (k : Nat) :
    (State.releaseSlot s k).pending = s.pending ∧ (State.releaseSlot s k).clk = s.clk ∧
    (State.releaseSlot s k).otp.lcw = s.otp.lcw := by
  unfold State.releaseSlot
  split <;> simp

theorem foldl_frame {α : Type} (f : State → α → State)
    (hf : ∀ s a, (f s a).pending = s.pending ∧ (f s a).clk = s.clk ∧ (f s a).otp.lcw = s.otp.lcw) (l : List α)
    (s : State) :
    (l.foldl f s).pending = s.pending ∧ (l.foldl f s).clk = s.clk ∧ (l.foldl f s).otp.lcw = s.otp.lcw := by
  induction l generalizing s with
  | nil => simp
  | cons a t ih => simp [ih, hf]

@[simp] theorem State.releaseRun_frame (s : State) (k : Nat) :
    (State.releaseRun s k).pending = s.pending ∧ (State.releaseRun s k).clk = s.clk ∧
    (State.releaseRun s k).otp.lcw = s.otp.lcw := by
  unfold State.releaseRun; exact foldl_frame _ (by simp) _ _

@[simp] theorem State.wipeSlot_frame (s : State) (k : Nat) :
    (State.wipeSlot s k).pending = s.pending ∧ (State.wipeSlot s k).clk = s.clk ∧
    (State.wipeSlot s k).otp.lcw = s.otp.lcw := by
  simp [State.wipeSlot]

@[simp] theorem State.wipeWhere_frame (s : State) (p : Nat → BSlot → Bool) :
    (State.wipeWhere s p).pending = s.pending ∧ (State.wipeWhere s p).clk = s.clk ∧
    (State.wipeWhere s p).otp.lcw = s.otp.lcw := by
  simp [State.wipeWhere]

@[simp] theorem State.releaseWhere_frame (s : State) (p : Nat → BSlot → Bool) :
    (State.releaseWhere s p).pending = s.pending ∧ (State.releaseWhere s p).clk = s.clk ∧
    (State.releaseWhere s p).otp.lcw = s.otp.lcw := by
  unfold State.releaseWhere; exact foldl_frame _ (by simp) _ _

@[simp] theorem State.addRefs_frame (s : State) (l : List Nat) :
    (State.addRefs s l).pending = s.pending ∧ (State.addRefs s l).clk = s.clk ∧
    (State.addRefs s l).otp.lcw = s.otp.lcw := by
  induction l generalizing s with
  | nil => simp [State.addRefs]
  | cons k t ih => simp [State.addRefs, ih]

@[simp] theorem State.epochRef_frame (s : State) (hd : W64) :
    (State.epochRef s hd).pending = s.pending ∧ (State.epochRef s hd).clk = s.clk ∧
    (State.epochRef s hd).otp.lcw = s.otp.lcw := by
  simp [State.epochRef]

@[simp] theorem State.epochUnref_frame (s : State) (hd : W64) :
    (State.epochUnref s hd).pending = s.pending ∧ (State.epochUnref s hd).clk = s.clk ∧
    (State.epochUnref s hd).otp.lcw = s.otp.lcw := by
  simp [State.epochUnref]

theorem State.freeKey_frame (s : State) (k : Nat) {s' : State} {r : Bool} (h : State.freeKey s k = .ok (s', r)) :
    s'.pending = s.pending ∧ s'.clk = s.clk ∧ s'.otp.lcw = s.otp.lcw := by
  unfold State.freeKey at h
  repeat (rw [ite_error_ok] at h; replace h := h.2)
  rw [Except.ok.injEq, Prod.mk.injEq] at h
  obtain ⟨rfl, -⟩ := h
  simp

@[simp] theorem State.freeHolds_frame (s : State) (j : Job) :
    (State.freeHolds s j).pending = s.pending ∧ (State.freeHolds s j).clk = s.clk ∧
    (State.freeHolds s j).otp.lcw = s.otp.lcw := by
  unfold State.freeHolds
  dsimp only
  repeat' split
  all_goals simp

/-! ## Machine/Render.lean -/

@[simp] theorem State.count_frame (s : State) (p sub c n : Nat) :
    (State.count s p sub c n).pending = s.pending ∧ (State.count s p sub c n).clk = s.clk ∧
    (State.count s p sub c n).otp.lcw = s.otp.lcw := by
  simp [State.count]

@[simp] theorem State.saEvent_frame (s : State) (type dir slot : Nat) (an : BitVec 2) (sa : Nat) :
    (State.saEvent s type dir slot an sa).pending = s.pending ∧ (State.saEvent s type dir slot an sa).clk = s.clk ∧
    (State.saEvent s type dir slot an sa).otp.lcw = s.otp.lcw := by
  unfold State.saEvent
  dsimp only
  repeat' split
  all_goals simp

@[simp] theorem State.emptySlot_frame (s : State) (dir a i : Nat) :
    (State.emptySlot s dir a i).pending = s.pending ∧ (State.emptySlot s dir a i).clk = s.clk ∧
    (State.emptySlot s dir a i).otp.lcw = s.otp.lcw := by
  unfold State.emptySlot
  dsimp only
  repeat' split
  all_goals simp

@[simp] theorem State.deleteSa_frame (s : State) (dir a : Nat) :
    (State.deleteSa s dir a).pending = s.pending ∧ (State.deleteSa s dir a).clk = s.clk ∧
    (State.deleteSa s dir a).otp.lcw = s.otp.lcw := by
  unfold State.deleteSa
  dsimp only
  repeat' split
  all_goals simp

@[simp] theorem setRoles_frame (x0 : List (Nat × Option (Nat × Nat))) (s : State) :
    (setRoles x0 s).pending = s.pending ∧ (setRoles x0 s).clk = s.clk ∧ (setRoles x0 s).otp.lcw = s.otp.lcw := by
  (fun_induction setRoles x0 s <;> simp_all; done)

@[simp] theorem setStandings_frame (x0 : List Nat) (s : State) :
    (setStandings x0 s).pending = s.pending ∧ (setStandings x0 s).clk = s.clk ∧
    (setStandings x0 s).otp.lcw = s.otp.lcw := by
  (fun_induction setStandings x0 s <;> simp_all; done)

@[simp] theorem State.assignRender_frame (s : State) :
    (State.assignRender s).pending = s.pending ∧ (State.assignRender s).clk = s.clk ∧
    (State.assignRender s).otp.lcw = s.otp.lcw := by
  simp [State.assignRender]

@[simp] theorem State.setFlow_frame (s : State) (n d : Nat) (l : List Frm) :
    (State.setFlow s n d l).pending = s.pending ∧ (State.setFlow s n d l).clk = s.clk ∧
    (State.setFlow s n d l).otp.lcw = s.otp.lcw := by
  simp [State.setFlow]

@[simp] theorem State.flowSub_frame (s : State) (n sub : Nat) :
    (State.flowSub s n sub).pending = s.pending ∧ (State.flowSub s n sub).clk = s.clk ∧
    (State.flowSub s n sub).otp.lcw = s.otp.lcw := by
  unfold State.flowSub
  dsimp only
  repeat' split
  all_goals simp

@[simp] theorem flowSubs_frame (n : Nat) (x0 : List Nat) (s : State) :
    (flowSubs n x0 s).pending = s.pending ∧ (flowSubs n x0 s).clk = s.clk ∧
    (flowSubs n x0 s).otp.lcw = s.otp.lcw := by
  (fun_induction flowSubs n x0 s <;> simp_all; done)

@[simp] theorem flowPairs_frame (x0 : List Nat) (s : State) :
    (flowPairs x0 s).pending = s.pending ∧ (flowPairs x0 s).clk = s.clk ∧ (flowPairs x0 s).otp.lcw = s.otp.lcw := by
  (fun_induction flowPairs x0 s <;> grind [flowSubs_frame])

@[simp] theorem State.flowAll_frame (s : State) :
    (State.flowAll s).pending = s.pending ∧ (State.flowAll s).clk = s.clk ∧
    (State.flowAll s).otp.lcw = s.otp.lcw := by
  simp [State.flowAll]

@[simp] theorem dispatchLoop_frame (n d : Nat) (x0 : Nat) (s : State) :
    (dispatchLoop n d x0 s).pending = s.pending ∧ (dispatchLoop n d x0 s).clk = s.clk ∧
    (dispatchLoop n d x0 s).otp.lcw = s.otp.lcw := by
  (fun_induction dispatchLoop n d x0 s <;> simp_all; done)

@[simp] theorem State.dispatchFrames_frame (s : State) (n d : Nat) :
    (State.dispatchFrames s n d).pending = s.pending ∧ (State.dispatchFrames s n d).clk = s.clk ∧
    (State.dispatchFrames s n d).otp.lcw = s.otp.lcw := by
  simp [State.dispatchFrames]

@[simp] theorem dispatchPairs_frame (x0 : List Nat) (s : State) :
    (dispatchPairs x0 s).pending = s.pending ∧ (dispatchPairs x0 s).clk = s.clk ∧
    (dispatchPairs x0 s).otp.lcw = s.otp.lcw := by
  (fun_induction dispatchPairs x0 s <;> simp_all; done)

@[simp] theorem State.dispatchAll_frame (s : State) :
    (State.dispatchAll s).pending = s.pending ∧ (State.dispatchAll s).clk = s.clk ∧
    (State.dispatchAll s).otp.lcw = s.otp.lcw := by
  simp [State.dispatchAll]

@[simp] theorem dropFrames_frame (port c : Nat) (x0 : List Frm) (s : State) :
    (dropFrames port c x0 s).pending = s.pending ∧ (dropFrames port c x0 s).clk = s.clk ∧
    (dropFrames port c x0 s).otp.lcw = s.otp.lcw := by
  (fun_induction dropFrames port c x0 s <;> simp_all; done)

@[simp] theorem dropEngineFlows_frame (e : Nat) (pipe : Bool) (x0 : List Nat) (s : State) :
    (dropEngineFlows e pipe x0 s).pending = s.pending ∧ (dropEngineFlows e pipe x0 s).clk = s.clk ∧
    (dropEngineFlows e pipe x0 s).otp.lcw = s.otp.lcw := by
  (fun_induction dropEngineFlows e pipe x0 s <;> simp_all; done)

@[simp] theorem State.loseFrames_frame (s : State) (e : Nat) (pipe : Bool) :
    (State.loseFrames s e pipe).pending = s.pending ∧ (State.loseFrames s e pipe).clk = s.clk ∧
    (State.loseFrames s e pipe).otp.lcw = s.otp.lcw := by
  simp [State.loseFrames]

@[simp] theorem setSubs_frame (p : Nat) (g : SubPort → SubPort) (x0 : List Nat) (s : State) :
    (setSubs p g x0 s).pending = s.pending ∧ (setSubs p g x0 s).clk = s.clk ∧
    (setSubs p g x0 s).otp.lcw = s.otp.lcw := by
  (fun_induction setSubs p g x0 s <;> simp_all; done)

@[simp] theorem signalFaults_frame (old : State) (x0 : List (Nat × Nat)) (s : State) :
    (signalFaults old x0 s).pending = s.pending ∧ (signalFaults old x0 s).clk = s.clk ∧
    (signalFaults old x0 s).otp.lcw = s.otp.lcw := by
  (fun_induction signalFaults old x0 s <;> grind [State.emit_frame])

@[simp] theorem State.faultsSince_frame (s old : State) (n : Nat) :
    (State.faultsSince s old n).pending = s.pending ∧ (State.faultsSince s old n).clk = s.clk ∧
    (State.faultsSince s old n).otp.lcw = s.otp.lcw := by
  simp [State.faultsSince]

@[simp] theorem State.trainPair_frame (s : State) (n : Nat) :
    (State.trainPair s n).pending = s.pending ∧ (State.trainPair s n).clk = s.clk ∧
    (State.trainPair s n).otp.lcw = s.otp.lcw := by
  unfold State.trainPair
  split <;> simp

@[simp] theorem State.enablePair_frame (s : State) (n : Nat) :
    (State.enablePair s n).pending = s.pending ∧ (State.enablePair s n).clk = s.clk ∧
    (State.enablePair s n).otp.lcw = s.otp.lcw := by
  simp [State.enablePair]

@[simp] theorem State.disablePair_frame (s : State) (n : Nat) :
    (State.disablePair s n).pending = s.pending ∧ (State.disablePair s n).clk = s.clk ∧
    (State.disablePair s n).otp.lcw = s.otp.lcw := by
  unfold State.disablePair
  split <;> simp

@[simp] theorem disablePairs_frame (x0 : List Nat) (s : State) :
    (disablePairs x0 s).pending = s.pending ∧ (disablePairs x0 s).clk = s.clk ∧
    (disablePairs x0 s).otp.lcw = s.otp.lcw := by
  (fun_induction disablePairs x0 s <;> simp_all; done)

@[simp] theorem emptySas_frame (x0 : Tbl Sa) (s : State) :
    (emptySas x0 s).pending = s.pending ∧ (emptySas x0 s).clk = s.clk ∧ (emptySas x0 s).otp.lcw = s.otp.lcw := by
  (fun_induction emptySas x0 s <;> grind [State.epochUnref_frame])

/-! ## Machine/Retire.lean -/

@[simp] theorem State.planUnit_frame (s : State) (u : Nat) (g : PlanUnit → PlanUnit) :
    (State.planUnit s u g).pending = s.pending ∧ (State.planUnit s u g).clk = s.clk ∧
    (State.planUnit s u g).otp.lcw = s.otp.lcw := by
  unfold State.planUnit
  split <;> simp

@[simp] theorem State.showUnit_frame (s : State) (u : Nat) (st : USt) :
    (State.showUnit s u st).pending = s.pending ∧ (State.showUnit s u st).clk = s.clk ∧
    (State.showUnit s u st).otp.lcw = s.otp.lcw := by
  (unfold State.showUnit; (repeat' split) <;> simp [apply_ite State.pending, apply_ite State.clk, apply_ite State.otp, apply_ite Otp.lcw]; done)

@[simp] theorem State.setUnit_frame (s : State) (u : Nat) (st : USt) :
    (State.setUnit s u st).pending = s.pending ∧ (State.setUnit s u st).clk = s.clk ∧
    (State.setUnit s u st).otp.lcw = s.otp.lcw := by
  simp [State.setUnit]

@[simp] theorem State.beginRoutine_frame (s : State) (n : Nat) (measure : Bool) :
    (State.beginRoutine s n measure).pending = s.pending ∧ (State.beginRoutine s n measure).clk = s.clk ∧
    (State.beginRoutine s n measure).otp.lcw = s.otp.lcw := by
  simp [State.beginRoutine]

@[simp] theorem State.endNoEngine_frame (s : State) (j : Job) :
    (State.endNoEngine s j).pending = s.pending ∧ (State.endNoEngine s j).clk = s.clk ∧
    (State.endNoEngine s j).otp.lcw = s.otp.lcw := by
  (simp [State.endNoEngine, apply_ite State.pending, apply_ite State.clk, apply_ite State.otp, apply_ite Otp.lcw]; done)

@[simp] theorem failNoEngine_frame (x0 : List Job) (s : State) :
    (failNoEngine x0 s).pending = s.pending ∧ (failNoEngine x0 s).clk = s.clk ∧
    (failNoEngine x0 s).otp.lcw = s.otp.lcw := by
  (fun_induction failNoEngine x0 s <;> grind [State.endNoEngine_frame])

@[simp] theorem State.checkClasses_frame (s : State) :
    (State.checkClasses s).pending = s.pending ∧ (State.checkClasses s).clk = s.clk ∧
    (State.checkClasses s).otp.lcw = s.otp.lcw := by
  simp [State.checkClasses]

@[simp] theorem State.killOn_frame (s : State) (u : Nat) :
    (State.killOn s u).pending = s.pending ∧ (State.killOn s u).clk = s.clk ∧
    (State.killOn s u).otp.lcw = s.otp.lcw := by
  (unfold State.killOn; (repeat' split) <;> simp [apply_ite State.pending, apply_ite State.clk, apply_ite State.otp, apply_ite Otp.lcw]; done)

@[simp] theorem answerWaiters_frame (status : W16) (detail : Nat) (x0 : List (Nat × W32)) (s : State) :
    (answerWaiters status detail x0 s).pending = s.pending ∧ (answerWaiters status detail x0 s).clk = s.clk ∧
    (answerWaiters status detail x0 s).otp.lcw = s.otp.lcw := by
  (fun_induction answerWaiters status detail x0 s <;> simp_all; done)

@[simp] theorem State.dropTest_frame (s : State) (u : Nat) (status : W16) (detail : Nat) :
    (State.dropTest s u status detail).pending = s.pending ∧ (State.dropTest s u status detail).clk = s.clk ∧
    (State.dropTest s u status detail).otp.lcw = s.otp.lcw := by
  simp [State.dropTest]

@[simp] theorem State.swapClasses_frame (s : State) (u v : Nat) :
    (State.swapClasses s u v).pending = s.pending ∧ (State.swapClasses s u v).clk = s.clk ∧
    (State.swapClasses s u v).otp.lcw = s.otp.lcw := by
  simp [State.swapClasses]

@[simp] theorem State.bringIn_frame (s : State) (u v : Nat) :
    (State.bringIn s u v).pending = s.pending ∧ (State.bringIn s u v).clk = s.clk ∧
    (State.bringIn s u v).otp.lcw = s.otp.lcw := by
  simp [State.bringIn]

@[simp] theorem State.replaceUnit_frame (s : State) (u : Nat) :
    (State.replaceUnit s u).pending = s.pending ∧ (State.replaceUnit s u).clk = s.clk ∧
    (State.replaceUnit s u).otp.lcw = s.otp.lcw := by
  unfold State.replaceUnit
  dsimp only
  repeat' split
  all_goals simp

@[simp] theorem State.dropSaved_frame (s : State) (u : Nat) :
    (State.dropSaved s u).pending = s.pending ∧ (State.dropSaved s u).clk = s.clk ∧
    (State.dropSaved s u).otp.lcw = s.otp.lcw := by
  unfold State.dropSaved
  dsimp only
  repeat' split
  all_goals simp

@[simp] theorem State.retireUnit_frame (s : State) (u reason : Nat) :
    (State.retireUnit s u reason).pending = s.pending ∧ (State.retireUnit s u reason).clk = s.clk ∧
    (State.retireUnit s u reason).otp.lcw = s.otp.lcw := by
  unfold State.retireUnit
  dsimp only
  repeat' split
  all_goals simp

@[simp] theorem retireUnits_frame (reason : Nat) (x0 : List Nat) (s : State) :
    (retireUnits reason x0 s).pending = s.pending ∧ (retireUnits reason x0 s).clk = s.clk ∧
    (retireUnits reason x0 s).otp.lcw = s.otp.lcw := by
  (fun_induction retireUnits reason x0 s <;> simp_all; done)

@[simp] theorem State.retireQuadCore_frame (s : State) (i reason : Nat) :
    (State.retireQuadCore s i reason).pending = s.pending ∧ (State.retireQuadCore s i reason).clk = s.clk ∧
    (State.retireQuadCore s i reason).otp.lcw = s.otp.lcw := by
  unfold State.retireQuadCore
  dsimp only
  repeat' split
  all_goals simp

@[simp] theorem State.retireFor_frame (s : State) (w : UnitId) (reason : Nat) :
    (State.retireFor s w reason).pending = s.pending ∧ (State.retireFor s w reason).clk = s.clk ∧
    (State.retireFor s w reason).otp.lcw = s.otp.lcw := by
  (unfold State.retireFor; (repeat' split) <;> simp [apply_ite State.pending, apply_ite State.clk, apply_ite State.otp, apply_ite Otp.lcw]; done)

@[simp] theorem State.rerunOn_frame (s : State) (u : Nat) :
    (State.rerunOn s u).pending = s.pending ∧ (State.rerunOn s u).clk = s.clk ∧
    (State.rerunOn s u).otp.lcw = s.otp.lcw := by
  unfold State.rerunOn
  dsimp only
  repeat' split
  all_goals simp

@[simp] theorem State.tenures_frame (s : State) (q r k m : Nat) :
    (State.tenures s q r k m).pending = s.pending ∧ (State.tenures s q r k m).clk = s.clk ∧
    (State.tenures s q r k m).otp.lcw = s.otp.lcw := by
  unfold State.tenures
  split <;> simp

@[simp] theorem bankTenures_frame (q r : Nat) (bs : List Nat) (x0 : List Nat) (s : State) :
    (bankTenures q r bs x0 s).pending = s.pending ∧ (bankTenures q r bs x0 s).clk = s.clk ∧
    (bankTenures q r bs x0 s).otp.lcw = s.otp.lcw := by
  (fun_induction bankTenures q r bs x0 s <;> simp_all; done)

@[simp] theorem State.beatTenures_frame (s : State) (q r : Nat) (bs : List Nat) :
    (State.beatTenures s q r bs).pending = s.pending ∧ (State.beatTenures s q r bs).clk = s.clk ∧
    (State.beatTenures s q r bs).otp.lcw = s.otp.lcw := by
  simp [State.beatTenures]

@[simp] theorem State.wipeLath_frame (s : State) (n : Nat) :
    (State.wipeLath s n).pending = s.pending ∧ (State.wipeLath s n).clk = s.clk ∧
    (State.wipeLath s n).otp.lcw = s.otp.lcw := by
  simp [State.wipeLath]

@[simp] theorem State.resetLath_frame (s : State) (n : Nat) :
    (State.resetLath s n).pending = s.pending ∧ (State.resetLath s n).clk = s.clk ∧
    (State.resetLath s n).otp.lcw = s.otp.lcw := by
  simp [State.resetLath]

@[simp] theorem State.resetForTest_frame (s : State) (u : Nat) :
    (State.resetForTest s u).pending = s.pending ∧ (State.resetForTest s u).clk = s.clk ∧
    (State.resetForTest s u).otp.lcw = s.otp.lcw := by
  unfold State.resetForTest
  dsimp only
  repeat' split
  all_goals simp

@[simp] theorem State.retryFor_frame (s : State) (w : UnitId) :
    (State.retryFor s w).pending = s.pending ∧ (State.retryFor s w).clk = s.clk ∧
    (State.retryFor s w).otp.lcw = s.otp.lcw := by
  unfold State.retryFor
  dsimp only
  repeat' split
  all_goals simp

/-! ## Machine/Scrim.lean -/

@[simp] theorem State.evqPush_frame (s : State) (e : EvRec) :
    (State.evqPush s e).pending = s.pending ∧ (State.evqPush s e).clk = s.clk ∧
    (State.evqPush s e).otp.lcw = s.otp.lcw := by
  unfold State.evqPush
  dsimp only
  repeat' split
  all_goals simp

@[simp] theorem State.evqUpdate_frame (s : State) (r : Rec) :
    (State.evqUpdate s r).pending = s.pending ∧ (State.evqUpdate s r).clk = s.clk ∧
    (State.evqUpdate s r).otp.lcw = s.otp.lcw := by
  simp [State.evqUpdate]

@[simp] theorem State.openEv_frame (s : State) (r : Rec) (erase : Bool) (detail : Nat) :
    (State.openEv s r erase detail).pending = s.pending ∧ (State.openEv s r erase detail).clk = s.clk ∧
    (State.openEv s r erase detail).otp.lcw = s.otp.lcw := by
  simp [State.openEv]

@[simp] theorem State.closeEv_frame (s : State) (r : Rec) (auto : Bool) :
    (State.closeEv s r auto).pending = s.pending ∧ (State.closeEv s r auto).clk = s.clk ∧
    (State.closeEv s r auto).otp.lcw = s.otp.lcw := by
  unfold State.closeEv
  split <;> simp

@[simp] theorem abortRunning_frame (x0 : List Job) (s : State) :
    (abortRunning x0 s).pending = s.pending ∧ (abortRunning x0 s).clk = s.clk ∧
    (abortRunning x0 s).otp.lcw = s.otp.lcw := by
  (fun_induction abortRunning x0 s <;> grind [State.abortJob_frame])

@[simp] theorem abortAll_frame (x0 : List Job) (s : State) :
    (abortAll x0 s).pending = s.pending ∧ (abortAll x0 s).clk = s.clk ∧ (abortAll x0 s).otp.lcw = s.otp.lcw := by
  (fun_induction abortAll x0 s <;> grind [State.failJob_frame])

@[simp] theorem State.doQuiesce_frame (s : State) :
    (State.doQuiesce s).pending = s.pending ∧ (State.doQuiesce s).clk = s.clk ∧
    (State.doQuiesce s).otp.lcw = s.otp.lcw := by
  simp [State.doQuiesce]

@[simp] theorem State.closeDebug_frame (s : State) :
    (State.closeDebug s).pending = s.pending ∧ (State.closeDebug s).clk = s.clk ∧
    (State.closeDebug s).otp.lcw = s.otp.lcw := by
  simp [State.closeDebug]

@[simp] theorem State.dropTxn_frame (s : State) :
    (State.dropTxn s).pending = s.pending ∧ (State.dropTxn s).clk = s.clk ∧
    (State.dropTxn s).otp.lcw = s.otp.lcw := by
  simp [State.dropTxn]

@[simp] theorem State.doSession_frame (s : State) :
    (State.doSession s).pending = s.pending ∧ (State.doSession s).clk = s.clk ∧
    (State.doSession s).otp.lcw = s.otp.lcw := by
  simp [State.doSession]

@[simp] theorem State.doAll_frame (s : State) :
    (State.doAll s).pending = s.pending ∧ (State.doAll s).clk = s.clk ∧ (State.doAll s).otp.lcw = s.otp.lcw := by
  simp [State.doAll]

@[simp] theorem State.abandonMail_frame (s : State) :
    (State.abandonMail s).pending = s.pending ∧ (State.abandonMail s).clk = s.clk ∧
    (State.abandonMail s).otp.lcw = s.otp.lcw := by
  simp [State.abandonMail]

@[simp] theorem State.doHalt_frame (s : State) :
    (State.doHalt s).pending = s.pending ∧ (State.doHalt s).clk = s.clk ∧ (State.doHalt s).otp.lcw = s.otp.lcw := by
  simp [State.doHalt]

@[simp] theorem State.rise_frame (s : State) (a b : Nat) :
    (State.rise s a b).pending = s.pending ∧ (State.rise s a b).clk = s.clk ∧
    (State.rise s a b).otp.lcw = s.otp.lcw := by
  unfold State.rise
  dsimp only
  repeat' split
  all_goals simp

@[simp] theorem State.resume_frame (s : State) :
    (State.resume s).pending = s.pending ∧ (State.resume s).clk = s.clk ∧ (State.resume s).otp.lcw = s.otp.lcw := by
  unfold State.resume
  split <;> simp

@[simp] theorem State.closeRec_frame (s : State) (r : Rec) (auto : Bool) :
    (State.closeRec s r auto).pending = s.pending ∧ (State.closeRec s r auto).clk = s.clk ∧
    (State.closeRec s r auto).otp.lcw = s.otp.lcw := by
  unfold State.closeRec
  dsimp only
  repeat' split
  all_goals simp

@[simp] theorem State.countOcc_frame (s : State) (w : UnitId) :
    (State.countOcc s w).pending = s.pending ∧ (State.countOcc s w).clk = s.clk ∧
    (State.countOcc s w).otp.lcw = s.otp.lcw := by
  simp [State.countOcc]

@[simp] theorem State.unitAction_frame (s : State) (o : Occ) (rank : Nat) :
    (State.unitAction s o rank).pending = s.pending ∧ (State.unitAction s o rank).clk = s.clk ∧
    (State.unitAction s o rank).otp.lcw = s.otp.lcw := by
  (simp [State.unitAction, apply_ite State.pending, apply_ite State.clk, apply_ite State.otp, apply_ite Otp.lcw]; done)

@[simp] theorem State.closeIfDone_frame (s : State) (rid : Nat) :
    (State.closeIfDone s rid).pending = s.pending ∧ (State.closeIfDone s rid).clk = s.clk ∧
    (State.closeIfDone s rid).otp.lcw = s.otp.lcw := by
  (unfold State.closeIfDone; (repeat' split) <;> simp [apply_ite State.pending, apply_ite State.clk, apply_ite State.otp, apply_ite Otp.lcw]; done)

@[simp] theorem State.openRec_frame (s : State) (o : Occ) :
    (State.openRec s o).pending = s.pending ∧ (State.openRec s o).clk = s.clk ∧
    (State.openRec s o).otp.lcw = s.otp.lcw := by
  unfold State.openRec
  dsimp only
  repeat' split
  all_goals simp

@[simp] theorem State.mergeInto_frame (s : State) (r : Rec) (o : Occ) :
    (State.mergeInto s r o).pending = s.pending ∧ (State.mergeInto s r o).clk = s.clk ∧
    (State.mergeInto s r o).otp.lcw = s.otp.lcw := by
  unfold State.mergeInto
  dsimp only
  repeat' split
  all_goals simp

@[simp] theorem State.toDevRec_frame (s : State) (o : Occ) :
    (State.toDevRec s o).pending = s.pending ∧ (State.toDevRec s o).clk = s.clk ∧
    (State.toDevRec s o).otp.lcw = s.otp.lcw := by
  unfold State.toDevRec
  dsimp only
  repeat' split
  all_goals simp

@[simp] theorem State.markEngine_frame (s : State) (c unit : Nat) :
    (State.markEngine s c unit).pending = s.pending ∧ (State.markEngine s c unit).clk = s.clk ∧
    (State.markEngine s c unit).otp.lcw = s.otp.lcw := by
  (simp [State.markEngine, apply_ite State.pending, apply_ite State.clk, apply_ite State.otp, apply_ite Otp.lcw]; done)

@[simp] theorem State.seamLog_frame (s : State) (c : Nat) :
    (State.seamLog s c).pending = s.pending ∧ (State.seamLog s c).clk = s.clk ∧
    (State.seamLog s c).otp.lcw = s.otp.lcw := by
  unfold State.seamLog
  split <;> simp

@[simp] theorem State.occur_frame (s : State) (o : Occ) :
    (State.occur s o).pending = s.pending ∧ (State.occur s o).clk = s.clk ∧
    (State.occur s o).otp.lcw = s.otp.lcw := by
  unfold State.occur
  dsimp only
  repeat' split
  all_goals simp

@[simp] theorem State.report_frame (s : State) (c unit : Nat) :
    (State.report s c unit).pending = s.pending ∧ (State.report s c unit).clk = s.clk ∧
    (State.report s c unit).otp.lcw = s.otp.lcw := by
  simp [State.report]

@[simp] theorem State.reportUncounted_frame (s : State) (c unit : Nat) :
    (State.reportUncounted s c unit).pending = s.pending ∧ (State.reportUncounted s c unit).clk = s.clk ∧
    (State.reportUncounted s c unit).otp.lcw = s.otp.lcw := by
  simp [State.reportUncounted]

@[simp] theorem State.assertCause_frame (s : State) (c unit : Nat) (level : Bool) :
    (State.assertCause s c unit level).pending = s.pending ∧ (State.assertCause s c unit level).clk = s.clk ∧
    (State.assertCause s c unit level).otp.lcw = s.otp.lcw := by
  simp [State.assertCause]

@[simp] theorem State.reportHeld_frame (s : State) (c unit : Nat) :
    (State.reportHeld s c unit).pending = s.pending ∧ (State.reportHeld s c unit).clk = s.clk ∧
    (State.reportHeld s c unit).otp.lcw = s.otp.lcw := by
  simp [State.reportHeld]

@[simp] theorem State.closeRetry_frame (s : State) (w : UnitId) :
    (State.closeRetry s w).pending = s.pending ∧ (State.closeRetry s w).clk = s.clk ∧
    (State.closeRetry s w).otp.lcw = s.otp.lcw := by
  unfold State.closeRetry
  split <;> simp

end Sys2Proof.Machine
end

