-- ==== Sys2Proof/Laws/FrameArong.lean ====
section
/-!
SUPPORT. Three things that almost no operation touches: the queue of waiting commands, the clock, and the life-cycle words in
OTP. One lemma per operation, for commands, key custody, the generators and the administration commands.
-/
set_option linter.unusedSimpArgs false
set_option linter.unusedVariables false

namespace Sys2Proof.Machine

/-! ## Machine/Arong.lean -/

@[simp] theorem State.startCmd_frame (s : State) (x0 : Issuer) :
    (State.startCmd s x0).pending = s.pending ∧ (State.startCmd s x0).clk = s.clk ∧
    (State.startCmd s x0).otp.lcw = s.otp.lcw := by
  unfold State.startCmd
  dsimp only
  repeat' split
  all_goals simp

@[simp] theorem State.dmaFailed_frame (s : State) (e : DmaErr) :
    (State.dmaFailed s e).pending = s.pending ∧ (State.dmaFailed s e).clk = s.clk ∧
    (State.dmaFailed s e).otp.lcw = s.otp.lcw := by
  unfold State.dmaFailed
  split <;> simp

@[simp] theorem State.fail_frame (s : State) (hd : Hdr) (e : Err) :
    (State.fail s hd e).pending = s.pending ∧ (State.fail s hd e).clk = s.clk ∧
    (State.fail s hd e).otp.lcw = s.otp.lcw := by
  unfold State.fail
  dsimp only
  repeat' split
  all_goals simp

@[simp] theorem serveBad_frame (x0 : Nat) (s : State) :
    (serveBad x0 s).pending = s.pending ∧ (serveBad x0 s).clk = s.clk ∧ (serveBad x0 s).otp.lcw = s.otp.lcw := by
  (fun_induction serveBad x0 s <;> simp_all; done)

theorem State.notNow_frame (s : State) (hd : Hdr) {s' : State} (h : State.notNow s hd = some s') :
    s'.pending = s.pending ∧ s'.clk = s.clk ∧ s'.otp.lcw = s.otp.lcw := by
  (unfold State.notNow at h; (repeat' (first | split at h | (dsimp only at h; split at h))) <;>
    first | (simp only [reduceCtorEq] at h; done) | (simp only [Except.ok.injEq, Prod.mk.injEq, Option.some.injEq, Host.Outcome.next.injEq] at h; (first | subst h | (obtain ⟨rfl, -⟩ := h) | (obtain ⟨-, rfl⟩ := h)); (first | (simp; done) | (simp_all; done) | grind [State.emit_frame])))

/-- The answer of a command has the queue, the clock and the life-cycle words of `x`. -/
def Ans.pins (a : Ans) (x : State) : Prop :=
  match a with
  | .err _ => True
  | .bad y _ => y.pending = x.pending ∧ y.clk = x.clk ∧ y.otp.lcw = x.otp.lcw
  | .ok y _ => y.pending = x.pending ∧ y.clk = x.clk ∧ y.otp.lcw = x.otp.lcw
  | .wait y => y.pending = x.pending ∧ y.clk = x.clk ∧ y.otp.lcw = x.otp.lcw

@[simp] theorem Ans.pins_err (e : Err) (x : State) : (Ans.err e).pins x := trivial
@[simp] theorem Ans.pins_bad (y : State) (e : Err) (x : State) :
    (Ans.bad y e).pins x ↔ y.pending = x.pending ∧ y.clk = x.clk ∧ y.otp.lcw = x.otp.lcw := .rfl
@[simp] theorem Ans.pins_ok (y : State) (r : List Byte) (x : State) :
    (Ans.ok y r).pins x ↔ y.pending = x.pending ∧ y.clk = x.clk ∧ y.otp.lcw = x.otp.lcw := .rfl
@[simp] theorem Ans.pins_wait (y : State) (x : State) :
    (Ans.wait y).pins x ↔ y.pending = x.pending ∧ y.clk = x.clk ∧ y.otp.lcw = x.otp.lcw := .rfl

theorem State.settleAns_frame (s : State) (h : Hdr) (a : Ans) (x : State)
    (hs : s.pending = x.pending ∧ s.clk = x.clk ∧ s.otp.lcw = x.otp.lcw) (ha : a.pins x) :
    (s.settleAns h a).pending = x.pending ∧ (s.settleAns h a).clk = x.clk ∧
    (s.settleAns h a).otp.lcw = x.otp.lcw := by
  cases a <;> simp_all [State.settleAns]

/-- The answer of a command leaves the queue and the clock as `x` has them. -/
def Ans.keeps (a : Ans) (x : State) : Prop :=
  match a with
  | .err _ => True
  | .bad y _ => y.pending = x.pending ∧ y.clk = x.clk
  | .ok y _ => y.pending = x.pending ∧ y.clk = x.clk
  | .wait y => y.pending = x.pending ∧ y.clk = x.clk

@[simp] theorem Ans.keeps_err (e : Err) (x : State) : (Ans.err e).keeps x := trivial
@[simp] theorem Ans.keeps_bad (y : State) (e : Err) (x : State) : (Ans.bad y e).keeps x ↔ y.pending = x.pending ∧
    y.clk = x.clk := .rfl
@[simp] theorem Ans.keeps_ok (y : State) (r : List Byte)
    (x : State) : (Ans.ok y r).keeps x ↔ y.pending = x.pending ∧ y.clk = x.clk := .rfl
@[simp] theorem Ans.keeps_wait (y : State) (x : State) : (Ans.wait y).keeps x ↔ y.pending = x.pending ∧
    y.clk = x.clk := .rfl

theorem State.settleAns_keeps (s : State) (h : Hdr) (a : Ans) (x : State)
    (hs : s.pending = x.pending ∧ s.clk = x.clk) (ha : a.keeps x) :
    (s.settleAns h a).pending = x.pending ∧ (s.settleAns h a).clk = x.clk := by
  cases a <;> simp_all [State.settleAns]

/-- A command leaves the queue and the clock alone where its body does. -/
theorem State.run_keeps (s : State) (h : Hdr) (ci : CmdInfo) (f : State → Ans) (hf : ∀ x, (f x).keeps x) :
    (s.run h ci f).pending = s.pending ∧ (s.run h ci f).clk = s.clk := by
  have k := State.settleAns_keeps (s.startCmd h.iss) h (f (s.startCmd h.iss)) s (by simp)
    (by have := hf (s.startCmd h.iss); revert this; cases f (s.startCmd h.iss) <;> simp)
  unfold State.run
  split
  · rename_i e
    exact ⟨(State.notNow_frame _ _ e).1, (State.notNow_frame _ _ e).2.1⟩
  · dsimp only
    repeat' split
    all_goals (try (simp; done))
    all_goals simpa using k

/-- A command has the queue, the clock and the life-cycle words that its body leaves. -/
theorem State.run_frame (s : State) (h : Hdr) (ci : CmdInfo) (f : State → Ans) (hf : ∀ x, (f x).pins x) :
    (s.run h ci f).pending = s.pending ∧ (s.run h ci f).clk = s.clk ∧ (s.run h ci f).otp.lcw = s.otp.lcw := by
  have k := State.settleAns_frame (s.startCmd h.iss) h (f (s.startCmd h.iss)) s (by simp)
    (by have := hf (s.startCmd h.iss); revert this; cases f (s.startCmd h.iss) <;> simp)
  unfold State.run
  split
  · rename_i e
    exact State.notNow_frame _ _ e
  · dsimp only
    repeat' split
    all_goals (try (simp; done))
    all_goals simpa using k


@[simp] theorem State.setQuota_frame (s : State) (v q : Nat) :
    (State.setQuota s v q).pending = s.pending ∧ (State.setQuota s v q).clk = s.clk ∧
    (State.setQuota s v q).otp.lcw = s.otp.lcw := by
  simp [State.setQuota]

@[simp] theorem setQuotas_frame (g : Nat → Nat) (x0 : List Nat) (s : State) :
    (setQuotas g x0 s).pending = s.pending ∧ (setQuotas g x0 s).clk = s.clk ∧
    (setQuotas g x0 s).otp.lcw = s.otp.lcw := by
  (fun_induction setQuotas g x0 s <;> simp_all; done)

theorem effFnQuotaProfile_frame (profile : Nat) (s : State) {s' : State} {r : List Byte}
    (h : effFnQuotaProfile profile s = .ok (s', r)) :
    s'.pending = s.pending ∧ s'.clk = s.clk ∧ s'.otp.lcw = s.otp.lcw := by
  (unfold effFnQuotaProfile at h; (repeat (rw [ite_error_ok] at h; replace h := h.2)); (repeat' split at h) <;>
    first | (simp only [reduceCtorEq] at h; done) | (simp only [Except.ok.injEq, Prod.mk.injEq, Option.some.injEq, Host.Outcome.next.injEq] at h; (first | subst h | (obtain ⟨rfl, -⟩ := h) | (obtain ⟨-, rfl⟩ := h)); (first | (simp; done) | (simp_all; done) | grind [setQuotas_frame])))

theorem effFnQuotaVf_frame (v q : Nat) (s : State) {s' : State} {r : List Byte}
    (h : effFnQuotaVf v q s = .ok (s', r)) :
    s'.pending = s.pending ∧ s'.clk = s.clk ∧ s'.otp.lcw = s.otp.lcw := by
  unfold effFnQuotaVf at h
  repeat (rw [ite_error_ok] at h; replace h := h.2)
  rw [Except.ok.injEq, Prod.mk.injEq] at h
  obtain ⟨rfl, -⟩ := h
  simp

theorem effFnPerm_frame (v : Nat) (p : W32) (s : State) {s' : State} {r : List Byte}
    (h : effFnPerm v p s = .ok (s', r)) :
    s'.pending = s.pending ∧ s'.clk = s.clk ∧ s'.otp.lcw = s.otp.lcw := by
  unfold effFnPerm at h
  repeat (rw [ite_error_ok] at h; replace h := h.2)
  rw [Except.ok.injEq, Prod.mk.injEq] at h
  obtain ⟨rfl, -⟩ := h
  simp

theorem effQueAssign_frame (q f slot c : Nat) (s : State) {s' : State} {r : List Byte}
    (h : effQueAssign q f slot c s = .ok (s', r)) :
    s'.pending = s.pending ∧ s'.clk = s.clk ∧ s'.otp.lcw = s.otp.lcw := by
  (unfold effQueAssign at h; (repeat (rw [ite_error_ok] at h; replace h := h.2)); (repeat' split at h) <;>
    first | (simp only [reduceCtorEq] at h; done) | (simp only [Except.ok.injEq, Prod.mk.injEq, Option.some.injEq, Host.Outcome.next.injEq] at h; (first | subst h | (obtain ⟨rfl, -⟩ := h) | (obtain ⟨-, rfl⟩ := h)); (first | (simp; done) | (simp_all; done) | grind [State.updQueue_frame, State.updFn_frame])))

@[simp] theorem State.mapAwait_frame (s : State) (v q : Nat) (g : TCmd → List TCmd) :
    (State.mapAwait s v q g).pending = s.pending ∧ (State.mapAwait s v q g).clk = s.clk ∧
    (State.mapAwait s v q g).otp.lcw = s.otp.lcw := by
  simp [State.mapAwait]

theorem effQueRelease_frame (q : Nat) (s : State) {s' : State} {r : List Byte} (h : effQueRelease q s = .ok (s', r)) :
    s'.pending = s.pending ∧ s'.clk = s.clk ∧ s'.otp.lcw = s.otp.lcw := by
  (unfold effQueRelease at h; (repeat' (first | split at h | (dsimp only at h; split at h))) <;>
    first | (simp only [reduceCtorEq] at h; done) | (simp only [Except.ok.injEq, Prod.mk.injEq, Option.some.injEq, Host.Outcome.next.injEq] at h; (first | subst h | (obtain ⟨rfl, -⟩ := h) | (obtain ⟨-, rfl⟩ := h)); (first | (simp; done) | (simp_all; done) | grind [State.updQueue_frame, State.mapAwait_frame, State.updFn_frame])))

@[simp] theorem State.setCls_frame (s : State) (c : Nat) (x : Cls) :
    (State.setCls s c x).pending = s.pending ∧ (State.setCls s c x).clk = s.clk ∧
    (State.setCls s c x).otp.lcw = s.otp.lcw := by
  simp [State.setCls]

theorem effQueClassProfile_frame (c p : Nat) (s : State) {s' : State} {r : List Byte}
    (h : effQueClassProfile c p s = .ok (s', r)) :
    s'.pending = s.pending ∧ s'.clk = s.clk ∧ s'.otp.lcw = s.otp.lcw := by
  (unfold effQueClassProfile at h; (repeat (rw [ite_error_ok] at h; replace h := h.2)); (repeat' split at h) <;>
    first | (simp only [reduceCtorEq] at h; done) | (simp only [Except.ok.injEq, Prod.mk.injEq, Option.some.injEq, Host.Outcome.next.injEq] at h; (first | subst h | (obtain ⟨rfl, -⟩ := h) | (obtain ⟨-, rfl⟩ := h)); (first | (simp; done) | (simp_all; done) | grind [State.setCls_frame])))

theorem effQueClassMasks_frame (c w : Nat) (ms : List W64) (s : State) {s' : State} {r : List Byte}
    (h : effQueClassMasks c w ms s = .ok (s', r)) :
    s'.pending = s.pending ∧ s'.clk = s.clk ∧ s'.otp.lcw = s.otp.lcw := by
  unfold effQueClassMasks at h
  repeat (rw [ite_error_ok] at h; replace h := h.2)
  rw [Except.ok.injEq, Prod.mk.injEq] at h
  obtain ⟨rfl, -⟩ := h
  simp

theorem effQueMove_frame (q c : Nat) (s : State) {s' : State} {r : List Byte} (h : effQueMove q c s = .ok (s', r)) :
    s'.pending = s.pending ∧ s'.clk = s.clk ∧ s'.otp.lcw = s.otp.lcw := by
  (unfold effQueMove at h; (repeat (rw [ite_error_ok] at h; replace h := h.2)); (repeat' split at h) <;>
    first | (simp only [reduceCtorEq] at h; done) | (simp only [Except.ok.injEq, Prod.mk.injEq, Option.some.injEq, Host.Outcome.next.injEq] at h; (first | subst h | (obtain ⟨rfl, -⟩ := h) | (obtain ⟨-, rfl⟩ := h)); (first | (simp; done) | (simp_all; done) | grind [State.updQueue_frame, State.mapAwait_frame])))

theorem effPortModeProfile_frame (n p : Nat) (s : State) {s' : State} {r : List Byte}
    (h : effPortModeProfile n p s = .ok (s', r)) :
    s'.pending = s.pending ∧ s'.clk = s.clk ∧ s'.otp.lcw = s.otp.lcw := by
  unfold effPortModeProfile at h
  repeat (rw [ite_error_ok] at h; replace h := h.2)
  rw [Except.ok.injEq, Prod.mk.injEq] at h
  obtain ⟨rfl, -⟩ := h
  simp

theorem effPortModeParams_frame (n : Nat) (b : List Byte) (s : State) {s' : State} {r : List Byte}
    (h : effPortModeParams n b s = .ok (s', r)) :
    s'.pending = s.pending ∧ s'.clk = s.clk ∧ s'.otp.lcw = s.otp.lcw := by
  (unfold effPortModeParams at h; (repeat (rw [ite_error_ok] at h; replace h := h.2)); (repeat' split at h) <;>
    first | (simp only [reduceCtorEq] at h; done) | (simp only [Except.ok.injEq, Prod.mk.injEq, Option.some.injEq, Host.Outcome.next.injEq] at h; (first | subst h | (obtain ⟨rfl, -⟩ := h) | (obtain ⟨-, rfl⟩ := h)); (first | (simp; done) | (simp_all; done) | grind [State.updPair_frame])))

theorem effPortEnable_frame (n : Nat) (s : State) {s' : State} {r : List Byte} (h : effPortEnable n s = .ok (s', r)) :
    s'.pending = s.pending ∧ s'.clk = s.clk ∧ s'.otp.lcw = s.otp.lcw := by
  (unfold effPortEnable at h; (repeat' (first | split at h | (dsimp only at h; split at h))) <;>
    first | (simp only [reduceCtorEq] at h; done) | (simp only [Except.ok.injEq, Prod.mk.injEq, Option.some.injEq, Host.Outcome.next.injEq] at h; (first | subst h | (obtain ⟨rfl, -⟩ := h) | (obtain ⟨-, rfl⟩ := h)); (first | (simp; done) | (simp_all; done) | grind [State.enablePair_frame])))

theorem effPortDisable_frame (n : Nat) (s : State) {s' : State} {r : List Byte}
    (h : effPortDisable n s = .ok (s', r)) :
    s'.pending = s.pending ∧ s'.clk = s.clk ∧ s'.otp.lcw = s.otp.lcw := by
  unfold effPortDisable at h
  repeat (rw [ite_error_ok] at h; replace h := h.2)
  rw [Except.ok.injEq, Prod.mk.injEq] at h
  obtain ⟨rfl, -⟩ := h
  simp

@[simp] theorem State.addSa_frame (s : State) (dir a : Nat) (x : Sa) :
    (State.addSa s dir a x).pending = s.pending ∧ (State.addSa s dir a x).clk = s.clk ∧
    (State.addSa s dir a x).otp.lcw = s.otp.lcw := by
  simp [State.addSa]

theorem effSaCreateProfile_frame (dir a pb suite : Nat) (s : State) {s' : State} {r : List Byte}
    (h : effSaCreateProfile dir a pb suite s = .ok (s', r)) :
    s'.pending = s.pending ∧ s'.clk = s.clk ∧ s'.otp.lcw = s.otp.lcw := by
  (unfold effSaCreateProfile at h; (repeat' (first | split at h | (dsimp only at h; split at h))) <;>
    first | (simp only [reduceCtorEq] at h; done) | (simp only [Except.ok.injEq, Prod.mk.injEq, Option.some.injEq, Host.Outcome.next.injEq] at h; (first | subst h | (obtain ⟨rfl, -⟩ := h) | (obtain ⟨-, rfl⟩ := h)); (first | (simp; done) | (simp_all; done) | grind [State.addSa_frame])))

theorem effSaCreateParams_frame (dir a : Nat) (b : List Byte) (s : State) {s' : State} {r : List Byte}
    (h : effSaCreateParams dir a b s = .ok (s', r)) :
    s'.pending = s.pending ∧ s'.clk = s.clk ∧ s'.otp.lcw = s.otp.lcw := by
  (unfold effSaCreateParams at h; (repeat' (first | split at h | (dsimp only at h; split at h))) <;>
    first | (simp only [reduceCtorEq] at h; done) | (simp only [Except.ok.injEq, Prod.mk.injEq, Option.some.injEq, Host.Outcome.next.injEq] at h; (first | subst h | (obtain ⟨rfl, -⟩ := h) | (obtain ⟨-, rfl⟩ := h)); (first | (simp; done) | (simp_all; done) | grind [State.addSa_frame])))

theorem effSaStage_frame (dir a : Nat) (key : W64) (x : Option (Byte × W64 × W32 × BitVec 96)) (s : State)
    {s' : State}
    {r : List Byte} (h : effSaStage dir a key x s = .ok (s', r)) :
    s'.pending = s.pending ∧ s'.clk = s.clk ∧ s'.otp.lcw = s.otp.lcw := by
  unfold effSaStage at h
  repeat (rw [ite_error_ok] at h; replace h := h.2)
  split at h
  · cases h
  · rw [Except.ok.injEq, Prod.mk.injEq] at h
    obtain ⟨rfl, -⟩ := h
    simp

theorem effSaCommit_frame (dir a : Nat) (s : State) {s' : State} {r : List Byte}
    (h : effSaCommit dir a s = .ok (s', r)) :
    s'.pending = s.pending ∧ s'.clk = s.clk ∧ s'.otp.lcw = s.otp.lcw := by
  (unfold effSaCommit at h; (repeat (rw [ite_error_ok] at h; replace h := h.2)); (repeat' split at h) <;>
    first | (simp only [reduceCtorEq] at h; done) | (simp only [Except.ok.injEq, Prod.mk.injEq, Option.some.injEq, Host.Outcome.next.injEq] at h; (first | subst h | (obtain ⟨rfl, -⟩ := h) | (obtain ⟨-, rfl⟩ := h)); (first | (simp; done) | (simp_all; done) | grind [State.updSa_frame])))

theorem effSaDelete_frame (dir a : Nat) (s : State) {s' : State} {r : List Byte}
    (h : effSaDelete dir a s = .ok (s', r)) :
    s'.pending = s.pending ∧ s'.clk = s.clk ∧ s'.otp.lcw = s.otp.lcw := by
  unfold effSaDelete at h
  repeat (rw [ite_error_ok] at h; replace h := h.2)
  rw [Except.ok.injEq, Prod.mk.injEq] at h
  obtain ⟨rfl, -⟩ := h
  simp

theorem effSaTimersProfile_frame (p : Nat) (s : State) {s' : State} {r : List Byte}
    (h : effSaTimersProfile p s = .ok (s', r)) :
    s'.pending = s.pending ∧ s'.clk = s.clk ∧ s'.otp.lcw = s.otp.lcw := by
  (unfold effSaTimersProfile at h; (repeat (rw [ite_error_ok] at h; replace h := h.2)); (repeat' split at h) <;>
    first | (simp only [reduceCtorEq] at h; done) | (simp only [Except.ok.injEq, Prod.mk.injEq, Option.some.injEq, Host.Outcome.next.injEq] at h; (first | subst h | (obtain ⟨rfl, -⟩ := h) | (obtain ⟨-, rfl⟩ := h)); (first | (simp; done) | (simp_all; done) | grind [])))

theorem effSaTimersMs_frame (o d : Nat) (s : State) {s' : State} {r : List Byte}
    (h : effSaTimersMs o d s = .ok (s', r)) :
    s'.pending = s.pending ∧ s'.clk = s.clk ∧ s'.otp.lcw = s.otp.lcw := by
  unfold effSaTimersMs at h
  repeat (rw [ite_error_ok] at h; replace h := h.2)
  rw [Except.ok.injEq, Prod.mk.injEq] at h
  obtain ⟨rfl, -⟩ := h
  simp

theorem State.setBudget_frame (s : State) (profile tokens : Nat) (caps : Nat → Nat) {s' : State} {r : List Byte}
    (h : State.setBudget s profile tokens caps = .ok (s', r)) :
    s'.pending = s.pending ∧ s'.clk = s.clk ∧ s'.otp.lcw = s.otp.lcw := by
  unfold State.setBudget at h
  repeat (rw [ite_error_ok] at h; replace h := h.2)
  rw [Except.ok.injEq, Prod.mk.injEq] at h
  obtain ⟨rfl, -⟩ := h
  simp

theorem effFltBudgetProfile_frame (p : Nat) (s : State) {s' : State} {r : List Byte}
    (h : effFltBudgetProfile p s = .ok (s', r)) :
    s'.pending = s.pending ∧ s'.clk = s.clk ∧ s'.otp.lcw = s.otp.lcw := by
  unfold effFltBudgetProfile at h
  split at h <;> first | exact State.setBudget_frame _ _ _ _ h | simp at h

theorem effFltBudgetTokens_frame (t : Nat) (caps : List Nat) (s : State) {s' : State} {r : List Byte}
    (h : effFltBudgetTokens t caps s = .ok (s', r)) :
    s'.pending = s.pending ∧ s'.clk = s.clk ∧ s'.otp.lcw = s.otp.lcw := by
  (grind [effFltBudgetTokens, State.setBudget_frame])

theorem applyT_frame (c : TCmd) (s : State) {s' : State} {r : List Byte} (h : applyT c s = .ok (s', r)) :
    s'.pending = s.pending ∧ s'.clk = s.clk ∧ s'.otp.lcw = s.otp.lcw := by
  cases c <;> simp only [applyT] at h
  · exact effFnQuotaProfile_frame _ _ h
  · exact effFnQuotaVf_frame _ _ _ h
  · exact effFnPerm_frame _ _ _ h
  · exact effQueAssign_frame _ _ _ _ _ h
  · exact effQueRelease_frame _ _ h
  · exact effQueClassProfile_frame _ _ _ h
  · exact effQueClassMasks_frame _ _ _ _ h
  · exact effQueMove_frame _ _ _ h
  · exact effPortModeProfile_frame _ _ _ h
  · exact effPortModeParams_frame _ _ _ h
  · exact effPortEnable_frame _ _ h
  · exact effPortDisable_frame _ _ h
  · exact effSaCreateProfile_frame _ _ _ _ _ h
  · exact effSaCreateParams_frame _ _ _ _ h
  · exact effSaStage_frame _ _ _ _ _ h
  · exact effSaStage_frame _ _ _ _ _ h
  · exact effSaCommit_frame _ _ _ h
  · exact effSaDelete_frame _ _ _ h
  · exact effSaTimersProfile_frame _ _ h
  · exact effSaTimersMs_frame _ _ _ h
  · exact effFltBudgetProfile_frame _ _ h
  · exact effFltBudgetTokens_frame _ _ _ h

theorem applyAll_frame (x0 : Nat) (x1 : List TCmd) (s : State) {s' : State} (h : applyAll x0 x1 s = .ok s') :
    s'.pending = s.pending ∧ s'.clk = s.clk ∧ s'.otp.lcw = s.otp.lcw := by
  (fun_induction applyAll x0 x1 s <;> grind [applyT_frame])

@[simp] theorem markTxn_frame (v : Bool) (x0 : List TCmd) (s : State) :
    (markTxn v x0 s).pending = s.pending ∧ (markTxn v x0 s).clk = s.clk ∧ (markTxn v x0 s).otp.lcw = s.otp.lcw := by
  (fun_induction markTxn v x0 s <;> grind [State.updSlot_frame])

@[simp] theorem State.endTxn_frame (s : State) :
    (State.endTxn s).pending = s.pending ∧ (State.endTxn s).clk = s.clk ∧ (State.endTxn s).otp.lcw = s.otp.lcw := by
  unfold State.endTxn
  split <;> simp

@[simp] theorem State.stageT_frame (s : State) (hd : Hdr) (c : TCmd) :
    (State.stageT s hd c).pending = s.pending ∧ (State.stageT s hd c).clk = s.clk ∧
    (State.stageT s hd c).otp.lcw = s.otp.lcw := by
  unfold State.stageT
  dsimp only
  repeat' split
  all_goals simp

@[simp] theorem State.directT_frame (s : State) (hd : Hdr) (c : TCmd) :
    (State.directT s hd c).pending = s.pending ∧ (State.directT s hd c).clk = s.clk ∧
    (State.directT s hd c).otp.lcw = s.otp.lcw := by
  (grind [State.directT, applyT_frame, State.flowAll_frame, State.dispatchAll_frame, State.fail_frame, State.answer_frame])

@[simp] theorem State.runT_frame (s : State) (h : Hdr) (ci : CmdInfo) (c : Except Err TCmd) :
    (State.runT s h ci c).pending = s.pending ∧ (State.runT s h ci c).clk = s.clk ∧
    (State.runT s h ci c).otp.lcw = s.otp.lcw := by
  unfold State.runT
  split
  · rename_i e
    exact State.notNow_frame _ _ e
  · dsimp only
    repeat' split
    all_goals simp

theorem State.writeBuf_frame (s : State) (f : Nat) (b : Buf) (bytes : List Byte) {s' : State}
    (h : State.writeBuf s f b bytes = .ok s') :
    s'.pending = s.pending ∧ s'.clk = s.clk ∧ s'.otp.lcw = s.otp.lcw := by
  (unfold State.writeBuf at h; (repeat (rw [ite_error_ok] at h; replace h := h.2)); (repeat' split at h) <;>
    first | (simp only [reduceCtorEq] at h; done) | (simp only [Except.ok.injEq, Prod.mk.injEq, Option.some.injEq, Host.Outcome.next.injEq] at h; (first | subst h | (obtain ⟨rfl, -⟩ := h) | (obtain ⟨-, rfl⟩ := h)); (first | (simp; done) | (simp_all; done) | grind [State.wakeLink_frame, State.emit_frame])))

@[simp] theorem State.answerBuf_pins (x : State) (out : Buf) (bytes res : List Byte) :
    (x.answerBuf out bytes res).pins x := by
  unfold State.answerBuf
  split
  · simp
  · rename_i e
    simpa using State.writeBuf_frame _ _ _ _ e

/-! ## Machine/Custody.lean -/

@[simp] theorem State.fillSystem_frame (s : State) (k : Nat) (data : List Byte) :
    (State.fillSystem s k data).pending = s.pending ∧ (State.fillSystem s k data).clk = s.clk ∧
    (State.fillSystem s k data).otp.lcw = s.otp.lcw := by
  simp [State.fillSystem]

@[simp] theorem State.clearSystem_frame (s : State) (k : Nat) :
    (State.clearSystem s k).pending = s.pending ∧ (State.clearSystem s k).clk = s.clk ∧
    (State.clearSystem s k).otp.lcw = s.otp.lcw := by
  simp [State.clearSystem]

@[simp] theorem State.putImage_frame (s : State) (j : Journal) :
    (State.putImage s j).pending = s.pending ∧ (State.putImage s j).clk = s.clk ∧
    (State.putImage s j).otp.lcw = s.otp.lcw := by
  unfold State.putImage
  split <;> simp

@[simp] theorem State.writeAnchorBy_frame (s : State) (f : Anchor → Anchor) :
    (State.writeAnchorBy s f).pending = s.pending ∧ (State.writeAnchorBy s f).clk = s.clk ∧
    (State.writeAnchorBy s f).otp.lcw = s.otp.lcw := by
  simp [State.writeAnchorBy]

@[simp] theorem State.writeAnchor_frame (s : State) :
    (State.writeAnchor s).pending = s.pending ∧ (State.writeAnchor s).clk = s.clk ∧
    (State.writeAnchor s).otp.lcw = s.otp.lcw := by
  simp [State.writeAnchor]

@[simp] theorem State.loadEntry_frame (s : State) (k : Nat) (d : DirEnt) :
    (State.loadEntry s k d).pending = s.pending ∧ (State.loadEntry s k d).clk = s.clk ∧
    (State.loadEntry s k d).otp.lcw = s.otp.lcw := by
  unfold State.loadEntry
  dsimp only
  repeat' split
  all_goals simp

@[simp] theorem loadEntries_frame (x0 : Tbl DirEnt) (s : State) :
    (loadEntries x0 s).pending = s.pending ∧ (loadEntries x0 s).clk = s.clk ∧
    (loadEntries x0 s).otp.lcw = s.otp.lcw := by
  (fun_induction loadEntries x0 s <;> grind [State.loadEntry_frame])

@[simp] theorem State.drawFrom_frame (s : State) (n : Nat) :
    (State.drawFrom s n).2.pending = s.pending ∧ (State.drawFrom s n).2.clk = s.clk ∧
    (State.drawFrom s n).2.otp.lcw = s.otp.lcw := by
  simp [State.drawFrom]

@[simp] theorem State.drawMany_frame (s : State) (n k : Nat) :
    (State.drawMany s n k).pending = s.pending ∧ (State.drawMany s n k).clk = s.clk ∧
    (State.drawMany s n k).otp.lcw = s.otp.lcw := by
  simp [State.drawMany]

@[simp] theorem State.writeMark_frame (s : State) (src dst step word cand : Nat) :
    (State.writeMark s src dst step word cand).pending = s.pending ∧
    (State.writeMark s src dst step word cand).clk = s.clk ∧
    (State.writeMark s src dst step word cand).otp.lcw = s.otp.lcw := by
  simp [State.writeMark]

theorem programDus_frame (f : Nat) (s : State) {s' : State} {r : Nat} (h : programDus f s = some (s', r)) :
    s'.pending = s.pending ∧ s'.clk = s.clk ∧ s'.otp.lcw = s.otp.lcw := by
  induction f generalizing s s' r with
  | zero =>
    have k := State.drawFrom_frame s 18
    rw [programDus] at h; dsimp only at h
    split at h
    · cases h
    · simp only [Option.some.injEq, Prod.mk.injEq] at h
      obtain ⟨rfl, -⟩ := h
      simpa [Otp.setCand] using k
  | succ n ih =>
    have k := State.drawFrom_frame s 18
    rw [programDus] at h; dsimp only at h
    split at h
    · cases h
    · have g := ih _ h
      simp only [Otp.setCand] at g
      exact ⟨g.1.trans k.1, g.2.1.trans k.2.1, g.2.2.trans k.2.2⟩

@[simp] theorem State.scrapErase_frame (s : State) :
    (State.scrapErase s).pending = s.pending ∧ (State.scrapErase s).clk = s.clk ∧
    (State.scrapErase s).otp.lcw = s.otp.lcw := by
  simp [State.scrapErase]

@[simp] theorem State.answerLife_frame (s : State) (mbx : Option (Nat × W32)) (r : Resp) :
    (State.answerLife s mbx r).pending = s.pending ∧ (State.answerLife s mbx r).clk = s.clk ∧
    (State.answerLife s mbx r).otp.lcw = s.otp.lcw := by
  unfold State.answerLife
  split <;> simp

@[simp] theorem State.armLife_frame (s : State) (l : LifeReq) :
    (State.armLife s l).pending = s.pending ∧ (State.armLife s l).clk = s.clk ∧
    (State.armLife s l).otp.lcw = s.otp.lcw := by
  simp [State.armLife]

@[simp] theorem State.rekeyBuild_frame (s : State) :
    (State.rekeyBuild s).pending = s.pending ∧ (State.rekeyBuild s).clk = s.clk ∧
    (State.rekeyBuild s).otp.lcw = s.otp.lcw := by
  simp [State.rekeyBuild]

theorem State.dusStep_frame (s : State) (l : LifeReq) {s' : State} (h : State.dusStep s l = some s') :
    s'.pending = s.pending ∧ s'.clk = s.clk ∧ s'.otp.lcw = s.otp.lcw := by
  (unfold State.dusStep at h; (repeat' (first | split at h | (dsimp only at h; split at h))) <;>
    first | (simp only [reduceCtorEq] at h; done) | (simp only [Except.ok.injEq, Prod.mk.injEq, Option.some.injEq, Host.Outcome.next.injEq] at h; (first | subst h | (obtain ⟨rfl, -⟩ := h) | (obtain ⟨-, rfl⟩ := h)); (first | (simp; done) | (simp_all; done) | grind [State.writeMark_frame, programDus_frame, State.fillSystem_frame, State.rekeyBuild_frame])))

@[simp] theorem State.runScrap_frame (s : State) (l : LifeReq) (mbx : Option (Nat × W32)) :
    (State.runScrap s l mbx).pending = s.pending ∧ (State.runScrap s l mbx).clk = s.clk := by
  unfold State.runScrap
  dsimp only
  repeat' split
  all_goals simp

@[simp] theorem State.startCommit_frame (s : State) :
    (State.startCommit s).pending = s.pending ∧ (State.startCommit s).clk = s.clk := by
  (grind [State.startCommit, State.answerLife_frame, State.armLife_frame, State.runScrap_frame, State.dusStep_frame, State.report_frame])

@[simp] theorem State.requestCommit_frame (s : State) (c : Commit) :
    (State.requestCommit s c).pending = s.pending ∧ (State.requestCommit s c).clk = s.clk := by
  simp [State.requestCommit]

@[simp] theorem releaseRuns_frame (x0 : List Nat) (s : State) :
    (releaseRuns x0 s).pending = s.pending ∧ (releaseRuns x0 s).clk = s.clk ∧
    (releaseRuns x0 s).otp.lcw = s.otp.lcw := by
  (fun_induction releaseRuns x0 s <;> simp_all; done)

@[simp] theorem loadPuts_frame (j : Journal) (x0 : List Put) (s : State) :
    (loadPuts j x0 s).pending = s.pending ∧ (loadPuts j x0 s).clk = s.clk ∧
    (loadPuts j x0 s).otp.lcw = s.otp.lcw := by
  (fun_induction loadPuts j x0 s <;> simp_all; done)

@[simp] theorem State.applyCommit_frame (s : State) (c : Commit) (j : Journal) (m : Mram) :
    (s.applyCommit c j m).pending = s.pending ∧ (s.applyCommit c j m).clk = s.clk ∧
    (s.applyCommit c j m).otp.lcw = s.otp.lcw := by
  have g (x : State) (p : Put) := foldl_frame (fun (y : State) (i : Nat) => y.wipeSlot (p.slot + i)) (by simp)
    (List.range (runOf p.data.length)) x
  have k (x : State) := foldl_frame (fun (x : State) (p : Put) => (List.range (runOf p.data.length)).foldl (fun y i => y.wipeSlot (p.slot + i)) x)
    (fun x p => g x p) c.puts x
  unfold State.applyCommit
  cases c.att <;> simp [k]

@[simp] theorem State.erase_frame (s : State) (src : Nat) :
    (State.erase s src).pending = s.pending ∧ (State.erase s src).clk = s.clk ∧
    (State.erase s src).otp.lcw = s.otp.lcw := by
  simp [State.erase]

/-! ## Machine/Grit.lean -/

@[simp] theorem failWaiting_frame (n : Nat) (x0 : List Job) (s : State) :
    (failWaiting n x0 s).pending = s.pending ∧ (failWaiting n x0 s).clk = s.clk ∧
    (failWaiting n x0 s).otp.lcw = s.otp.lcw := by
  (fun_induction failWaiting n x0 s <;> grind [State.failJob_frame])

@[simp] theorem failGens_frame (c : GCause) (x0 : List Nat) (s : State) :
    (failGens c x0 s).pending = s.pending ∧ (failGens c x0 s).clk = s.clk ∧
    (failGens c x0 s).otp.lcw = s.otp.lcw := by
  (fun_induction failGens c x0 s <;> simp_all; done)

@[simp] theorem failRenderJobs_frame (q : Nat) (x0 : List Job) (s : State) :
    (failRenderJobs q x0 s).pending = s.pending ∧ (failRenderJobs q x0 s).clk = s.clk ∧
    (failRenderJobs q x0 s).otp.lcw = s.otp.lcw := by
  (fun_induction failRenderJobs q x0 s <;> grind [State.failJob_frame])

@[simp] theorem State.setFeed_frame (s : State) (q : Nat) (stall : Bool) :
    (State.setFeed s q stall).pending = s.pending ∧ (State.setFeed s q stall).clk = s.clk ∧
    (State.setFeed s q stall).otp.lcw = s.otp.lcw := by
  unfold State.setFeed
  split <;> simp

@[simp] theorem setFeeds_frame (stall : Bool) (x0 : List Nat) (s : State) :
    (setFeeds stall x0 s).pending = s.pending ∧ (setFeeds stall x0 s).clk = s.clk ∧
    (setFeeds stall x0 s).otp.lcw = s.otp.lcw := by
  (fun_induction setFeeds stall x0 s <;> simp_all; done)

@[simp] theorem State.gritFail_frame (s : State) :
    (State.gritFail s).pending = s.pending ∧ (State.gritFail s).clk = s.clk ∧
    (State.gritFail s).otp.lcw = s.otp.lcw := by
  simp [State.gritFail]

@[simp] theorem State.gritStart_frame (s : State) :
    (State.gritStart s).pending = s.pending ∧ (State.gritStart s).clk = s.clk ∧
    (State.gritStart s).otp.lcw = s.otp.lcw := by
  simp [State.gritStart]

@[simp] theorem State.endWaits_frame (s : State) (l : List Nat) :
    (State.endWaits s l).pending = s.pending ∧ (State.endWaits s l).clk = s.clk ∧
    (State.endWaits s l).otp.lcw = s.otp.lcw := by
  simp [State.endWaits]

@[simp] theorem State.seedPart_frame (s : State) (n t : Nat) :
    (State.seedPart s n t).pending = s.pending ∧ (State.seedPart s n t).clk = s.clk ∧
    (State.seedPart s n t).otp.lcw = s.otp.lcw := by
  unfold State.seedPart
  dsimp only
  repeat' split
  all_goals simp

@[simp] theorem setBits_frame (x0 : List (Nat × Nat)) (s : State) :
    (setBits x0 s).pending = s.pending ∧ (setBits x0 s).clk = s.clk ∧ (setBits x0 s).otp.lcw = s.otp.lcw := by
  (fun_induction setBits x0 s <;> simp_all; done)

theorem execSourceWindowEnd_frame (i : Nat) (w : WindowTest) (s : State) {s' : State}
    (h : execSourceWindowEnd i w s = .next s') :
    s'.pending = s.pending ∧ s'.clk = s.clk ∧ s'.otp.lcw = s.otp.lcw := by
  unfold execSourceWindowEnd at h
  dsimp only at h
  repeat' split at h
  all_goals (rw [Host.Outcome.next.injEq] at h; subst h; simp)

theorem execSeedDone_frame (lost : Bool) (t : Nat) (s : State) {s' : State} (h : execSeedDone lost t s = .next s') :
    s'.pending = s.pending ∧ s'.clk = s.clk ∧ s'.otp.lcw = s.otp.lcw := by
  unfold execSeedDone at h
  dsimp only at h
  repeat' split at h
  all_goals (rw [Host.Outcome.next.injEq] at h; subst h; simp)

theorem execGritStartTimeout_frame (s : State) {s' : State} (h : execGritStartTimeout s = .next s') :
    s'.pending = s.pending ∧ s'.clk = s.clk ∧ s'.otp.lcw = s.otp.lcw := by
  unfold execGritStartTimeout at h
  split at h <;> (rw [Host.Outcome.next.injEq] at h; subst h; simp)

theorem execReseedDue_frame (n : Nat) (byCount : Bool) (s : State) {s' : State}
    (h : execReseedDue n byCount s = .next s') :
    s'.pending = s.pending ∧ s'.clk = s.clk ∧ s'.otp.lcw = s.otp.lcw := by
  unfold execReseedDue at h
  split at h <;> (rw [Host.Outcome.next.injEq] at h; subst h; simp)

theorem execReseedComplete_frame (n : Nat) (s : State) {s' : State} (h : execReseedComplete n s = .next s') :
    s'.pending = s.pending ∧ s'.clk = s.clk ∧ s'.otp.lcw = s.otp.lcw := by
  unfold execReseedComplete at h
  dsimp only at h
  repeat' split at h
  all_goals (rw [Host.Outcome.next.injEq] at h; subst h; simp)

theorem execGenOverdue_frame (n : Nat) (byCount : Bool) (s : State) {s' : State}
    (h : execGenOverdue n byCount s = .next s') :
    s'.pending = s.pending ∧ s'.clk = s.clk ∧ s'.otp.lcw = s.otp.lcw := by
  unfold execGenOverdue at h
  repeat' split at h
  all_goals (rw [Host.Outcome.next.injEq] at h; subst h; simp)

theorem execMaskFeedStall_frame (q : Nat) (stall : Bool) (s : State) {s' : State}
    (h : execMaskFeedStall q stall s = .next s') :
    s'.pending = s.pending ∧ s'.clk = s.clk ∧ s'.otp.lcw = s.otp.lcw := by
  unfold execMaskFeedStall at h
  repeat' split at h
  all_goals (rw [Host.Outcome.next.injEq] at h; subst h; simp)

theorem execGrtStatus_frame (hd : Hdr) (s : State) {s' : State} (h : execGrtStatus hd s = .next s') :
    s'.pending = s.pending ∧ s'.clk = s.clk ∧ s'.otp.lcw = s.otp.lcw := by
  rw [execGrtStatus, Host.Outcome.next.injEq] at h
  subst h
  apply State.run_frame
  intro x
  dsimp only
  all_goals simp

theorem execGrtKat_frame (hd : Hdr) (target : Nat) (pass : Bool) (s : State) {s' : State}
    (h : execGrtKat hd target pass s = .next s') :
    s'.pending = s.pending ∧ s'.clk = s.clk ∧ s'.otp.lcw = s.otp.lcw := by
  rw [execGrtKat, Host.Outcome.next.injEq] at h
  subst h
  apply State.run_frame
  intro x
  dsimp only
  repeat' split
  all_goals simp

/-! ## Machine/Keys.lean -/

theorem execKeyInfo_frame (hd : Hdr) (key : W64) (s : State) {s' : State} (h : execKeyInfo hd key s = .next s') :
    s'.pending = s.pending ∧ s'.clk = s.clk ∧ s'.otp.lcw = s.otp.lcw := by
  rw [execKeyInfo, Host.Outcome.next.injEq] at h
  subst h
  apply State.run_frame
  intro x
  repeat' split
  all_goals simp

theorem execKeyFree_frame (h : Hdr) (key : W64) (s : State) {s' : State} (hx : execKeyFree h key s = .next s') :
    s'.pending = s.pending ∧ s'.clk = s.clk := by
  simp only [execKeyFree, Host.Outcome.next.injEq] at hx
  subst hx
  apply State.run_keeps
  intro x
  split
  · simp
  · split
    · simp
    · rename_i e
      have f := State.freeKey_frame _ _ e
      split <;> simp [f.1, f.2.1]

theorem execKeyList_frame (h : Hdr) (first : Nat) (out : Buf) (s : State) {s' : State}
    (hx : execKeyList h first out s = .next s') :
    s'.pending = s.pending ∧ s'.clk = s.clk ∧ s'.otp.lcw = s.otp.lcw := by
  simp only [execKeyList, Host.Outcome.next.injEq] at hx
  subst hx
  apply State.run_frame
  intro x
  try dsimp only
  repeat' split
  all_goals simp

@[simp] theorem State.addKey_pins (x : State) (ks : KeySpec) : (x.addKey ks).pins x := by
  unfold State.addKey
  split
  · simp
  · have f := State.allocKey_frame x ks
    split <;> (rename_i e; rw [e] at f; exact f)

theorem execKeyImport_frame (h : Hdr) (usage : Nat) (alg : W16) (wrap : W64) (blob : Buf) (s : State) {s' : State}
    (hx : execKeyImport h usage alg wrap blob s = .next s') :
    s'.pending = s.pending ∧ s'.clk = s.clk ∧ s'.otp.lcw = s.otp.lcw := by
  simp only [execKeyImport, Host.Outcome.next.injEq] at hx
  subst hx
  apply State.run_frame
  intro x
  try dsimp only
  repeat' split
  all_goals simp

theorem execKeyUpdate_frame (h : Hdr) (record : Buf) (s : State) {s' : State}
    (hx : execKeyUpdate h record s = .next s') :
    s'.pending = s.pending ∧ s'.clk = s.clk := by
  simp only [execKeyUpdate, Host.Outcome.next.injEq] at hx
  subst hx
  apply State.run_keeps
  intro x
  try dsimp only
  repeat' split
  all_goals simp

theorem execKeyAttest_frame (hd : Hdr) (challenge : W256) (s : State) {s' : State}
    (h : execKeyAttest hd challenge s = .next s') :
    s'.pending = s.pending ∧ s'.clk = s.clk ∧ s'.otp.lcw = s.otp.lcw := by
  rw [execKeyAttest, Host.Outcome.next.injEq] at h
  subst h
  apply State.run_frame
  intro x
  repeat' split
  all_goals simp

theorem execSlotWipe_frame (s : State) {s' : State} (h : execSlotWipe s = .next s') :
    s'.pending = s.pending ∧ s'.clk = s.clk ∧ s'.otp.lcw = s.otp.lcw := by
  unfold execSlotWipe at h
  split at h <;> (rw [Host.Outcome.next.injEq] at h; subst h; simp)

@[simp] theorem State.refreshSas_frame (s : State) :
    (State.refreshSas s).pending = s.pending ∧ (State.refreshSas s).clk = s.clk ∧
    (State.refreshSas s).otp.lcw = s.otp.lcw := by
  simp [State.refreshSas]

theorem execRefreshSweep_frame (s0 : State) {s' : State} (h : execRefreshSweep s0 = .next s') :
    s'.pending = s0.pending ∧ s'.clk = s0.clk ∧ s'.otp.lcw = s0.otp.lcw := by
  unfold execRefreshSweep at h
  split at h <;> (rw [Host.Outcome.next.injEq] at h; subst h; simp)

@[simp] theorem State.failCommit_frame (s : State) (c : Commit) (e : Err) :
    (State.failCommit s c e).pending = s.pending ∧ (State.failCommit s c e).clk = s.clk := by
  unfold State.failCommit
  dsimp only
  repeat' split
  all_goals simp

@[simp] theorem State.answerCommit_frame (s : State) (c : Commit) :
    (State.answerCommit s c).pending = s.pending ∧ (State.answerCommit s c).clk = s.clk ∧
    (State.answerCommit s c).otp.lcw = s.otp.lcw := by
  unfold State.answerCommit
  dsimp only
  repeat' split
  all_goals simp

theorem State.lifeTail_frame (s : State) (src : Nat) (l : LifeReq) (former : Journal) (word cand : Nat) {s' : State}
    (h : State.lifeTail s src l former word cand = some s') :
    s'.pending = s.pending ∧ s'.clk = s.clk := by
  (unfold State.lifeTail at h; (repeat' (first | split at h | (dsimp only at h; split at h))) <;>
    first | (simp only [reduceCtorEq] at h; done) | (simp only [Except.ok.injEq, Prod.mk.injEq, Option.some.injEq, Host.Outcome.next.injEq] at h; (first | subst h | (obtain ⟨rfl, -⟩ := h) | (obtain ⟨-, rfl⟩ := h)); (first | (simp; done) | (simp_all; done) | grind [State.writeMark_frame, State.writeAnchorBy_frame])))

@[simp] theorem State.dropPersistent_frame (s : State) :
    (State.dropPersistent s).pending = s.pending ∧ (State.dropPersistent s).clk = s.clk ∧
    (State.dropPersistent s).otp.lcw = s.otp.lcw := by
  simp [State.dropPersistent]

@[simp] theorem State.writeAnchorAs_frame (s : State) (dst : Nat) :
    (State.writeAnchorAs s dst).pending = s.pending ∧ (State.writeAnchorAs s dst).clk = s.clk ∧
    (State.writeAnchorAs s dst).otp.lcw = s.otp.lcw := by
  simp [State.writeAnchorAs]

@[simp] theorem State.putBeside_frame (s : State) (former j : Journal) :
    (State.putBeside s former j).pending = s.pending ∧ (State.putBeside s former j).clk = s.clk ∧
    (State.putBeside s former j).otp.lcw = s.otp.lcw := by
  unfold State.putBeside
  split <;> simp

@[simp] theorem State.endLife_frame (s : State) (l : LifeReq) (mbx : Option (Nat × W32)) :
    (State.endLife s l mbx).pending = s.pending ∧ (State.endLife s l mbx).clk = s.clk := by
  (grind [State.endLife, State.writeAnchorAs_frame, State.lifeTail_frame, State.report_frame, State.dropPersistent_frame, State.putBeside_frame, State.writeMark_frame, State.answerLife_frame])

theorem execJournalCommitDone_frame (ok : Bool) (s : State) {s' : State} (h : execJournalCommitDone ok s = .next s') :
    s'.pending = s.pending ∧ s'.clk = s.clk := by
  unfold execJournalCommitDone at h
  repeat' split at h
  all_goals (rw [Host.Outcome.next.injEq] at h; subst h; simp)

theorem execPersistRestore_frame (s : State) {s' : State} (h : execPersistRestore s = .next s') :
    s'.pending = s.pending ∧ s'.clk = s.clk ∧ s'.otp.lcw = s.otp.lcw := by
  unfold execPersistRestore at h
  split at h <;> (rw [Host.Outcome.next.injEq] at h; subst h; simp)

/-! ## Machine/Admin.lean -/

theorem execDevInfo_frame (hd : Hdr) (s : State) {s' : State} (h : execDevInfo hd s = .next s') :
    s'.pending = s.pending ∧ s'.clk = s.clk ∧ s'.otp.lcw = s.otp.lcw := by
  rw [execDevInfo, Host.Outcome.next.injEq] at h
  subst h
  apply State.run_frame
  intro x
  repeat' split
  all_goals simp

theorem execDevStatus_frame (hd : Hdr) (s : State) {s' : State} (h : execDevStatus hd s = .next s') :
    s'.pending = s.pending ∧ s'.clk = s.clk ∧ s'.otp.lcw = s.otp.lcw := by
  rw [execDevStatus, Host.Outcome.next.injEq] at h
  subst h
  apply State.run_frame
  intro x
  dsimp only
  all_goals simp

theorem execDevExpert_frame (hd : Hdr) (enable : Nat) (s : State) {s' : State}
    (h : execDevExpert hd enable s = .next s') :
    s'.pending = s.pending ∧ s'.clk = s.clk ∧ s'.otp.lcw = s.otp.lcw := by
  rw [execDevExpert, Host.Outcome.next.injEq] at h
  subst h
  apply State.run_frame
  intro x
  repeat' split
  all_goals simp

theorem execDevLog_frame (h : Hdr) (first : W32) (out : Buf) (s : State) {s' : State}
    (hx : execDevLog h first out s = .next s') :
    s'.pending = s.pending ∧ s'.clk = s.clk ∧ s'.otp.lcw = s.otp.lcw := by
  simp only [execDevLog, Host.Outcome.next.injEq] at hx
  subst hx
  apply State.run_frame
  intro x
  try dsimp only
  repeat' split
  all_goals simp

theorem execFnInfo_frame (hd : Hdr) (vf : Nat) (s : State) {s' : State} (h : execFnInfo hd vf s = .next s') :
    s'.pending = s.pending ∧ s'.clk = s.clk ∧ s'.otp.lcw = s.otp.lcw := by
  rw [execFnInfo, Host.Outcome.next.injEq] at h
  subst h
  apply State.run_frame
  intro x
  dsimp only
  repeat' split
  all_goals simp

theorem execFnQuota_frame (hd : Hdr) (profile vf quota : Nat) (s : State) {s' : State}
    (h : execFnQuota hd profile vf quota s = .next s') :
    s'.pending = s.pending ∧ s'.clk = s.clk ∧ s'.otp.lcw = s.otp.lcw := by
  rw [execFnQuota, Host.Outcome.next.injEq] at h
  subst h
  simp

theorem execFnPerm_frame (hd : Hdr) (vf : Nat) (perm : W32) (s : State) {s' : State}
    (h : execFnPerm hd vf perm s = .next s') :
    s'.pending = s.pending ∧ s'.clk = s.clk ∧ s'.otp.lcw = s.otp.lcw := by
  rw [execFnPerm, Host.Outcome.next.injEq] at h
  subst h
  simp

theorem execQueAssign_frame (hd : Hdr) (q fn slot cls : Nat) (s : State) {s' : State}
    (h : execQueAssign hd q fn slot cls s = .next s') :
    s'.pending = s.pending ∧ s'.clk = s.clk ∧ s'.otp.lcw = s.otp.lcw := by
  rw [execQueAssign, Host.Outcome.next.injEq] at h
  subst h
  simp

theorem execQueRelease_frame (hd : Hdr) (q : Nat) (s : State) {s' : State} (h : execQueRelease hd q s = .next s') :
    s'.pending = s.pending ∧ s'.clk = s.clk ∧ s'.otp.lcw = s.otp.lcw := by
  rw [execQueRelease, Host.Outcome.next.injEq] at h
  subst h
  simp

theorem execQueClass_frame (hd : Hdr) (cls profile weight : Nat) (masks : List W64) (s : State) {s' : State}
    (h : execQueClass hd cls profile weight masks s = .next s') :
    s'.pending = s.pending ∧ s'.clk = s.clk ∧ s'.otp.lcw = s.otp.lcw := by
  rw [execQueClass, Host.Outcome.next.injEq] at h
  subst h
  simp

theorem execQueInfo_frame (hd : Hdr) (queue : Nat) (s : State) {s' : State} (h : execQueInfo hd queue s = .next s') :
    s'.pending = s.pending ∧ s'.clk = s.clk ∧ s'.otp.lcw = s.otp.lcw := by
  rw [execQueInfo, Host.Outcome.next.injEq] at h
  subst h
  apply State.run_frame
  intro x
  dsimp only
  repeat' split
  all_goals simp

theorem execQueMove_frame (hd : Hdr) (q cls : Nat) (s : State) {s' : State} (h : execQueMove hd q cls s = .next s') :
    s'.pending = s.pending ∧ s'.clk = s.clk ∧ s'.otp.lcw = s.otp.lcw := by
  rw [execQueMove, Host.Outcome.next.injEq] at h
  subst h
  simp

theorem execTxnBegin_frame (hd : Hdr) (timeout : Nat) (s : State) {s' : State}
    (h : execTxnBegin hd timeout s = .next s') :
    s'.pending = s.pending ∧ s'.clk = s.clk ∧ s'.otp.lcw = s.otp.lcw := by
  rw [execTxnBegin, Host.Outcome.next.injEq] at h
  subst h
  apply State.run_frame
  intro x
  repeat' split
  all_goals simp

theorem execTxnCommit_frame (hd : Hdr) (s : State) {s' : State} (h : execTxnCommit hd s = .next s') :
    s'.pending = s.pending ∧ s'.clk = s.clk ∧ s'.otp.lcw = s.otp.lcw := by
  rw [execTxnCommit, Host.Outcome.next.injEq] at h
  subst h
  apply State.run_frame
  intro x
  repeat' split
  all_goals simp

theorem execTxnRollback_frame (hd : Hdr) (s : State) {s' : State} (h : execTxnRollback hd s = .next s') :
    s'.pending = s.pending ∧ s'.clk = s.clk ∧ s'.otp.lcw = s.otp.lcw := by
  rw [execTxnRollback, Host.Outcome.next.injEq] at h
  subst h
  apply State.run_frame
  intro x
  repeat' split
  all_goals simp

theorem execTxnStatus_frame (hd : Hdr) (s : State) {s' : State} (h : execTxnStatus hd s = .next s') :
    s'.pending = s.pending ∧ s'.clk = s.clk ∧ s'.otp.lcw = s.otp.lcw := by
  rw [execTxnStatus, Host.Outcome.next.injEq] at h
  subst h
  apply State.run_frame
  intro x
  repeat' split
  all_goals simp

theorem execTxnTimeout_frame (s : State) {s' : State} (h : execTxnTimeout s = .next s') :
    s'.pending = s.pending ∧ s'.clk = s.clk ∧ s'.otp.lcw = s.otp.lcw := by
  unfold execTxnTimeout at h
  split at h <;> (rw [Host.Outcome.next.injEq] at h; subst h; simp)

@[simp] theorem State.answerTxn_frame (s : State) (p : PendCommit) (e : W64) :
    (State.answerTxn s p e).pending = s.pending ∧ (State.answerTxn s p e).clk = s.clk ∧
    (State.answerTxn s p e).otp.lcw = s.otp.lcw := by
  simp [State.answerTxn]

@[simp] theorem answerEnables_frame (l : List (Nat × W32 × Nat)) (s : State) :
    (answerEnables l s).pending = s.pending ∧ (answerEnables l s).clk = s.clk ∧
    (answerEnables l s).otp.lcw = s.otp.lcw := by
  induction l generalizing s with
  | nil => simp [answerEnables]
  | cons a t ih =>
    obtain ⟨slot, seq, n⟩ := a
    rw [answerEnables]
    simp only [ih]
    split <;> simp

@[simp] theorem State.checkEnables_frame (s : State) :
    (State.checkEnables s).pending = s.pending ∧ (State.checkEnables s).clk = s.clk ∧
    (State.checkEnables s).otp.lcw = s.otp.lcw := by
  have g := foldl_frame (fun (x : State) (n : Nat) => x.trainPair n) (by simp) (List.range 8) s
  have k (y : State) (l : List (Nat × W32 × Nat)) := answerEnables_frame l y
  unfold State.checkEnables
  dsimp only
  repeat' split
  all_goals simp only [serveBad_frame, State.answerTxn_frame, k, g, and_self]

theorem execCommitEpoch_frame (s : State) {s' : State} (h : execCommitEpoch s = .next s') :
    s'.pending = s.pending ∧ s'.clk = s.clk ∧ s'.otp.lcw = s.otp.lcw := by
  rw [execCommitEpoch] at h
  split at h
  · rw [Host.Outcome.next.injEq] at h; subst h; exact ⟨rfl, rfl, rfl⟩
  · split at h
    · rw [Host.Outcome.next.injEq] at h; subst h; exact ⟨rfl, rfl, rfl⟩
    · dsimp only at h
      split at h
      · rw [Host.Outcome.next.injEq] at h; subst h; simp
      · rename_i s1 e
        have f := applyAll_frame _ _ _ e
        split at h <;>
        · rw [Host.Outcome.next.injEq] at h
          subst h
          simp [f]

theorem execPortMode_frame (hd : Hdr) (pair profile : Nat) (params : Buf) (s : State) {s' : State}
    (h : execPortMode hd pair profile params s = .next s') :
    s'.pending = s.pending ∧ s'.clk = s.clk ∧ s'.otp.lcw = s.otp.lcw := by
  rw [execPortMode, Host.Outcome.next.injEq] at h
  subst h
  simp

theorem execPortEnable_frame (hd : Hdr) (pair : Nat) (s : State) {s' : State}
    (h : execPortEnable hd pair s = .next s') :
    s'.pending = s.pending ∧ s'.clk = s.clk ∧ s'.otp.lcw = s.otp.lcw := by
  rw [execPortEnable, Host.Outcome.next.injEq] at h
  subst h
  simp

theorem execPortDisable_frame (hd : Hdr) (pair : Nat) (s : State) {s' : State}
    (h : execPortDisable hd pair s = .next s') :
    s'.pending = s.pending ∧ s'.clk = s.clk ∧ s'.otp.lcw = s.otp.lcw := by
  rw [execPortDisable, Host.Outcome.next.injEq] at h
  subst h
  simp

theorem execPortStatus_frame (hd : Hdr) (port : Nat) (s : State) {s' : State}
    (h : execPortStatus hd port s = .next s') :
    s'.pending = s.pending ∧ s'.clk = s.clk ∧ s'.otp.lcw = s.otp.lcw := by
  rw [execPortStatus, Host.Outcome.next.injEq] at h
  subst h
  apply State.run_frame
  intro x
  repeat' split
  all_goals simp

theorem execPortRecal_frame (hd : Hdr) (port lane disruptive : Nat) (s : State) {s' : State}
    (h : execPortRecal hd port lane disruptive s = .next s') :
    s'.pending = s.pending ∧ s'.clk = s.clk ∧ s'.otp.lcw = s.otp.lcw := by
  rw [execPortRecal, Host.Outcome.next.injEq] at h
  subst h
  apply State.run_frame
  intro x
  dsimp only
  repeat' split
  all_goals simp

theorem execSaCreate_frame (hd : Hdr) (dir sa pair suite : Nat) (params : Buf) (s : State) {s' : State}
    (h : execSaCreate hd dir sa pair suite params s = .next s') :
    s'.pending = s.pending ∧ s'.clk = s.clk ∧ s'.otp.lcw = s.otp.lcw := by
  rw [execSaCreate, Host.Outcome.next.injEq] at h
  subst h
  simp

theorem execSaStage_frame (hd : Hdr) (dir sa : Nat) (key : W64) (an : Byte) (pn : W64) (ssci : W32)
    (salt : BitVec 96) (s : State) {s' : State} (h : execSaStage hd dir sa key an pn ssci salt s = .next s') :
    s'.pending = s.pending ∧ s'.clk = s.clk ∧ s'.otp.lcw = s.otp.lcw := by
  rw [execSaStage, Host.Outcome.next.injEq] at h
  subst h
  simp

theorem execSaCommit_frame (hd : Hdr) (dir sa : Nat) (s : State) {s' : State}
    (h : execSaCommit hd dir sa s = .next s') :
    s'.pending = s.pending ∧ s'.clk = s.clk ∧ s'.otp.lcw = s.otp.lcw := by
  rw [execSaCommit, Host.Outcome.next.injEq] at h
  subst h
  simp

theorem execSaDelete_frame (hd : Hdr) (dir sa : Nat) (s : State) {s' : State}
    (h : execSaDelete hd dir sa s = .next s') :
    s'.pending = s.pending ∧ s'.clk = s.clk ∧ s'.otp.lcw = s.otp.lcw := by
  rw [execSaDelete, Host.Outcome.next.injEq] at h
  subst h
  simp

theorem execSaTimers_frame (hd : Hdr) (profile overlap drain : Nat) (s : State) {s' : State}
    (h : execSaTimers hd profile overlap drain s = .next s') :
    s'.pending = s.pending ∧ s'.clk = s.clk ∧ s'.otp.lcw = s.otp.lcw := by
  rw [execSaTimers, Host.Outcome.next.injEq] at h
  subst h
  simp

theorem execSaStatus_frame (hd : Hdr) (dir sa : Nat) (s : State) {s' : State}
    (h : execSaStatus hd dir sa s = .next s') :
    s'.pending = s.pending ∧ s'.clk = s.clk ∧ s'.otp.lcw = s.otp.lcw := by
  rw [execSaStatus, Host.Outcome.next.injEq] at h
  subst h
  apply State.run_frame
  intro x
  dsimp only
  repeat' split
  all_goals simp

theorem execFltBudget_frame (hd : Hdr) (profile tokens : Nat) (caps : List Nat) (s : State) {s' : State}
    (h : execFltBudget hd profile tokens caps s = .next s') :
    s'.pending = s.pending ∧ s'.clk = s.clk ∧ s'.otp.lcw = s.otp.lcw := by
  rw [execFltBudget, Host.Outcome.next.injEq] at h
  subst h
  simp

theorem execFltStatus_frame (hd : Hdr) (s : State) {s' : State} (h : execFltStatus hd s = .next s') :
    s'.pending = s.pending ∧ s'.clk = s.clk ∧ s'.otp.lcw = s.otp.lcw := by
  rw [execFltStatus, Host.Outcome.next.injEq] at h
  subst h
  apply State.run_frame
  intro x
  dsimp only
  all_goals simp

theorem execScrStatus_frame (hd : Hdr) (s : State) {s' : State} (h : execScrStatus hd s = .next s') :
    s'.pending = s.pending ∧ s'.clk = s.clk ∧ s'.otp.lcw = s.otp.lcw := by
  rw [execScrStatus, Host.Outcome.next.injEq] at h
  subst h
  apply State.run_frame
  intro x
  repeat' split
  all_goals simp

@[simp] theorem clrCauses_frame (x0 : List Nat) (s : State) :
    (clrCauses x0 s).pending = s.pending ∧ (clrCauses x0 s).clk = s.clk ∧ (clrCauses x0 s).otp.lcw = s.otp.lcw := by
  (fun_induction clrCauses x0 s <;> simp_all; done)

@[simp] theorem closeEmpty_frame (x0 : List Rec) (s : State) :
    (closeEmpty x0 s).pending = s.pending ∧ (closeEmpty x0 s).clk = s.clk ∧
    (closeEmpty x0 s).otp.lcw = s.otp.lcw := by
  (fun_induction closeEmpty x0 s <;> grind [State.closeRec_frame])

theorem execScrClear_frame (hd : Hdr) (cause : Nat) (s : State) {s' : State}
    (h : execScrClear hd cause s = .next s') :
    s'.pending = s.pending ∧ s'.clk = s.clk ∧ s'.otp.lcw = s.otp.lcw := by
  rw [execScrClear, Host.Outcome.next.injEq] at h
  subst h
  apply State.run_frame
  intro x
  repeat' split
  all_goals simp

@[simp] theorem State.fixRanks_frame (s : State) :
    (State.fixRanks s).pending = s.pending ∧ (State.fixRanks s).clk = s.clk ∧
    (State.fixRanks s).otp.lcw = s.otp.lcw := by
  unfold State.fixRanks
  split <;> simp

theorem execScrConfig_frame (hd : Hdr) (profile cause rank quiet : Nat) (s : State) {s' : State}
    (h : execScrConfig hd profile cause rank quiet s = .next s') :
    s'.pending = s.pending ∧ s'.clk = s.clk ∧ s'.otp.lcw = s.otp.lcw := by
  rw [execScrConfig, Host.Outcome.next.injEq] at h
  subst h
  apply State.run_frame
  intro x
  repeat' split
  all_goals simp

theorem execMbxDoorbell_frame (vf : Nat) (slot : Nat) (bad : Option (W16 × W32)) (s : State) {s' : State}
    (h : execMbxDoorbell vf slot bad s = .next s') :
    s'.pending = s.pending ∧ s'.clk = s.clk ∧ s'.otp.lcw = s.otp.lcw := by
  unfold execMbxDoorbell at h
  repeat' split at h
  all_goals (rw [Host.Outcome.next.injEq] at h; subst h; simp)

theorem execMbxDoneClear_frame (mask : W32) (s : State) {s' : State} (h : execMbxDoneClear mask s = .next s') :
    s'.pending = s.pending ∧ s'.clk = s.clk ∧ s'.otp.lcw = s.otp.lcw := by
  unfold execMbxDoneClear at h
  split at h <;> (rw [Host.Outcome.next.injEq] at h; subst h; simp)

theorem execVmbDoneClear_frame (vf : Nat) (s : State) {s' : State} (h : execVmbDoneClear vf s = .next s') :
    s'.pending = s.pending ∧ s'.clk = s.clk ∧ s'.otp.lcw = s.otp.lcw := by
  unfold execVmbDoneClear at h
  split at h <;> (rw [Host.Outcome.next.injEq] at h; subst h; simp)

@[simp] theorem State.undoCmd_frame (s : State) (n : Nat) :
    (State.undoCmd s n).pending = s.pending ∧ (State.undoCmd s n).clk = s.clk := by
  simp [State.undoCmd]

theorem execCmdTimeLimit_frame (hd : Hdr) (s : State) {s' : State} (h : execCmdTimeLimit hd s = .next s') :
    s'.pending = s.pending ∧ s'.clk = s.clk := by
  unfold execCmdTimeLimit at h
  repeat' split at h
  all_goals (rw [Host.Outcome.next.injEq] at h; subst h; simp)

theorem execSmbusTimeout_frame (s : State) {s' : State} (h : execSmbusTimeout s = .next s') :
    s'.pending = s.pending ∧ s'.clk = s.clk ∧ s'.otp.lcw = s.otp.lcw := by
  rw [execSmbusTimeout, Host.Outcome.next.injEq] at h
  subst h
  simp

end Sys2Proof.Machine
end

