-- ==== Sys2Proof/Laws/FrameJobs.lean ====
section
/-!
SUPPORT. Three things that almost no operation touches: the queue of waiting commands, the clock, and the life-cycle words in
OTP. One lemma per operation, for functions, queues and jobs.
-/
set_option linter.unusedSimpArgs false
set_option linter.unusedVariables false

namespace Sys2Proof.Machine

/-! ## Machine/Func.lean -/

theorem foldl_keeps {α : Type} (f : State → α → State)
    (hf : ∀ s a, (f s a).pending = s.pending ∧ (f s a).clk = s.clk) (l : List α) (s : State) :
    (l.foldl f s).pending = s.pending ∧ (l.foldl f s).clk = s.clk := by
  induction l generalizing s with
  | nil => simp
  | cons a t ih => simp [ih, hf]

@[simp] theorem State.sendPending_frame (s : State) (f : Nat) :
    (State.sendPending s f).pending = s.pending ∧ (State.sendPending s f).clk = s.clk ∧
    (State.sendPending s f).otp.lcw = s.otp.lcw := by
  have k (l : List Nat) (x : State) := foldl_frame (fun (x : State) v =>
    (x.updFn f (fun y => { y with vecs := Tbl.upd {} y.vecs v (fun w => { w with pend := false }) })).wakeLink.emit (.msix f v)) (by simp) l x
  unfold State.sendPending
  dsimp only
  rw [(k _ _).1, (k _ _).2.1, (k _ _).2.2]
  split <;> simp

@[simp] theorem State.cfgRetry_frame (s : State) (f : Nat) :
    (State.cfgRetry s f).pending = s.pending ∧ (State.cfgRetry s f).clk = s.clk ∧
    (State.cfgRetry s f).otp.lcw = s.otp.lcw := by
  unfold State.cfgRetry
  split <;> simp

theorem execMsixUnmask_frame (f : Nat) (vec : Option Nat) (enable : Bool) (s : State) {s' : State}
    (h : execMsixUnmask f vec enable s = .next s') :
    s'.pending = s.pending ∧ s'.clk = s.clk ∧ s'.otp.lcw = s.otp.lcw := by
  unfold execMsixUnmask at h
  repeat' split at h
  all_goals (rw [Host.Outcome.next.injEq] at h; subst h; simp)

@[simp] theorem writeHeld_frame (x0 : List HeldRec) (s : State) :
    (writeHeld x0 s).pending = s.pending ∧ (writeHeld x0 s).clk = s.clk ∧ (writeHeld x0 s).otp.lcw = s.otp.lcw := by
  (fun_induction writeHeld x0 s <;> grind [State.returnToken_frame, State.putRecord_frame])

@[simp] theorem coverAll_frame (x0 : List Nat) (s : State) :
    (coverAll x0 s).pending = s.pending ∧ (coverAll x0 s).clk = s.clk ∧ (coverAll x0 s).otp.lcw = s.otp.lcw := by
  (fun_induction coverAll x0 s <;> simp_all; done)

@[simp] theorem raiseDue_frame (x0 : List Nat) (s : State) :
    (raiseDue x0 s).pending = s.pending ∧ (raiseDue x0 s).clk = s.clk ∧ (raiseDue x0 s).otp.lcw = s.otp.lcw := by
  (fun_induction raiseDue x0 s <;> grind [State.updQueue_frame, State.raiseQueueIrq_frame])

@[simp] theorem State.flushHeld_frame (s : State) (f : Nat) :
    (State.flushHeld s f).pending = s.pending ∧ (State.flushHeld s f).clk = s.clk ∧
    (State.flushHeld s f).otp.lcw = s.otp.lcw := by
  unfold State.flushHeld
  split <;> simp

theorem execBusMasterEnable_frame (f : Nat) (s : State) {s' : State} (h : execBusMasterEnable f s = .next s') :
    s'.pending = s.pending ∧ s'.clk = s.clk ∧ s'.otp.lcw = s.otp.lcw := by
  unfold execBusMasterEnable at h
  split at h <;> (rw [Host.Outcome.next.injEq] at h; subst h; simp)

@[simp] theorem discardJobs_frame (x0 : List Job) (s : State) :
    (discardJobs x0 s).pending = s.pending ∧ (discardJobs x0 s).clk = s.clk ∧
    (discardJobs x0 s).otp.lcw = s.otp.lcw := by
  (fun_induction discardJobs x0 s <;> grind [State.dropJob_frame, State.dropRefs_frame, State.updJob_frame, State.freeHolds_frame, State.returnToken_frame, State.leaveEngine_frame, State.borrowWipe_frame])

@[simp] theorem State.resetQueues_frame (s0 : State) (f : Nat) :
    (State.resetQueues s0 f).pending = s0.pending ∧ (State.resetQueues s0 f).clk = s0.clk ∧
    (State.resetQueues s0 f).otp.lcw = s0.otp.lcw := by
  unfold State.resetQueues
  dsimp only
  simp [foldl_frame]

@[simp] theorem State.resetSlots_frame (s : State) (f : Nat) (g : Byte) :
    (State.resetSlots s f g).pending = s.pending ∧ (State.resetSlots s f g).clk = s.clk ∧
    (State.resetSlots s f g).otp.lcw = s.otp.lcw := by
  unfold State.resetSlots
  split <;> simp

@[simp] theorem dropStaged_frame (x0 : List (Nat × Sa)) (s : State) :
    (dropStaged x0 s).pending = s.pending ∧ (dropStaged x0 s).clk = s.clk ∧
    (dropStaged x0 s).otp.lcw = s.otp.lcw := by
  (fun_induction dropStaged x0 s <;> grind [State.emptySlot_frame])

@[simp] theorem State.resetMailbox_frame (s : State) (f : Nat) :
    (State.resetMailbox s f).pending = s.pending ∧ (State.resetMailbox s f).clk = s.clk ∧
    (State.resetMailbox s f).otp.lcw = s.otp.lcw := by
  unfold State.resetMailbox
  split <;> simp

@[simp] theorem State.startFlr_frame (s : State) (f : Nat) (st : VfState) :
    (State.startFlr s f st).pending = s.pending ∧ (State.startFlr s f st).clk = s.clk ∧
    (State.startFlr s f st).otp.lcw = s.otp.lcw := by
  unfold State.startFlr
  dsimp only
  repeat' split
  all_goals simp

@[simp] theorem startFlrs_frame (st : VfState) (x0 : List Nat) (s : State) :
    (startFlrs st x0 s).pending = s.pending ∧ (startFlrs st x0 s).clk = s.clk ∧
    (startFlrs st x0 s).otp.lcw = s.otp.lcw := by
  (fun_induction startFlrs st x0 s <;> simp_all; done)

@[simp] theorem State.removeVfs_frame (s : State) :
    (State.removeVfs s).pending = s.pending ∧ (State.removeVfs s).clk = s.clk ∧
    (State.removeVfs s).otp.lcw = s.otp.lcw := by
  simp [State.removeVfs]

@[simp] theorem State.resetSriov_frame (s : State) :
    (State.resetSriov s).pending = s.pending ∧ (State.resetSriov s).clk = s.clk ∧
    (State.resetSriov s).otp.lcw = s.otp.lcw := by
  simp [State.resetSriov]

theorem execFlr_frame (f : Nat) (s : State) {s' : State} (h : execFlr f s = .next s') :
    s'.pending = s.pending ∧ s'.clk = s.clk ∧ s'.otp.lcw = s.otp.lcw := by
  unfold execFlr at h
  repeat' split at h
  all_goals (rw [Host.Outcome.next.injEq] at h; subst h; simp)

@[simp] theorem applyQueues_frame (x0 : List TCmd) (s : State) :
    (applyQueues x0 s).pending = s.pending ∧ (applyQueues x0 s).clk = s.clk ∧
    (applyQueues x0 s).otp.lcw = s.otp.lcw := by
  (fun_induction applyQueues x0 s <;> grind [applyT_frame])

theorem execFlrComplete_frame (f : Nat) (s : State) {s' : State} (h : execFlrComplete f s = .next s') :
    s'.pending = s.pending ∧ s'.clk = s.clk ∧ s'.otp.lcw = s.otp.lcw := by
  unfold execFlrComplete at h
  dsimp only at h
  repeat' split at h
  all_goals (rw [Host.Outcome.next.injEq] at h; subst h; simp)

@[simp] theorem State.createVf_frame (s : State) (q v : Nat) :
    (State.createVf s q v).pending = s.pending ∧ (State.createVf s q v).clk = s.clk ∧
    (State.createVf s q v).otp.lcw = s.otp.lcw := by
  simp [State.createVf]

@[simp] theorem createVfs_frame (q : Nat) (x0 : List Nat) (s : State) :
    (createVfs q x0 s).pending = s.pending ∧ (createVfs q x0 s).clk = s.clk ∧
    (createVfs q x0 s).otp.lcw = s.otp.lcw := by
  (fun_induction createVfs q x0 s <;> simp_all; done)

theorem execVfEnable_frame (s : State) {s' : State} (h : execVfEnable s = .next s') :
    s'.pending = s.pending ∧ s'.clk = s.clk ∧ s'.otp.lcw = s.otp.lcw := by
  unfold execVfEnable at h
  dsimp only at h
  repeat' split at h
  all_goals (rw [Host.Outcome.next.injEq] at h; subst h; simp)

theorem execVfReady_frame (v : Nat) (s : State) {s' : State} (h : execVfReady v s = .next s') :
    s'.pending = s.pending ∧ s'.clk = s.clk ∧ s'.otp.lcw = s.otp.lcw := by
  unfold execVfReady at h
  split at h <;> (rw [Host.Outcome.next.injEq] at h; subst h; simp)

theorem execVfDisable_frame (s : State) {s' : State} (h : execVfDisable s = .next s') :
    s'.pending = s.pending ∧ s'.clk = s.clk ∧ s'.otp.lcw = s.otp.lcw := by
  unfold execVfDisable at h
  repeat' split at h
  all_goals (rw [Host.Outcome.next.injEq] at h; subst h; simp)

theorem execD3hotEntry_frame (f : Nat) (s : State) {s' : State} (h : execD3hotEntry f s = .next s') :
    s'.pending = s.pending ∧ s'.clk = s.clk ∧ s'.otp.lcw = s.otp.lcw := by
  unfold execD3hotEntry at h
  repeat' split at h
  all_goals (rw [Host.Outcome.next.injEq] at h; subst h; simp)

theorem execD3hotExit_frame (f : Nat) (s : State) {s' : State} (h : execD3hotExit f s = .next s') :
    s'.pending = s.pending ∧ s'.clk = s.clk ∧ s'.otp.lcw = s.otp.lcw := by
  unfold execD3hotExit at h
  split at h <;> (rw [Host.Outcome.next.injEq] at h; subst h; simp)

@[simp] theorem State.linkDown_frame (s : State) :
    (State.linkDown s).pending = s.pending ∧ (State.linkDown s).clk = s.clk ∧
    (State.linkDown s).otp.lcw = s.otp.lcw := by
  unfold State.linkDown
  dsimp only
  repeat' split
  all_goals simp

theorem execLinkDown_frame (s : State) {s' : State} (h : execLinkDown s = .next s') :
    s'.pending = s.pending ∧ s'.clk = s.clk ∧ s'.otp.lcw = s.otp.lcw := by
  rw [execLinkDown, Host.Outcome.next.injEq] at h
  subst h
  simp

theorem execLinkChange_frame (speed width : Nat) (flit : Bool) (s : State) {s' : State}
    (h : execLinkChange speed width flit s = .next s') : s'.pending = s.pending ∧ s'.clk = s.clk ∧
    s'.otp.lcw = s.otp.lcw := by
  have k (x : State) := foldl_frame (fun (x : State) f => x.sendPending f) (by simp) (List.range 256) x
  simp only [execLinkChange, Host.Outcome.next.injEq] at h
  subst h
  rw [(k _).1, (k _).2.1, (k _).2.2]
  split <;> simp

theorem execDmaReadError_frame (id : JobId) (e : DmaErr) (s : State) {s' : State}
    (h : execDmaReadError id e s = .next s') :
    s'.pending = s.pending ∧ s'.clk = s.clk ∧ s'.otp.lcw = s.otp.lcw := by
  unfold execDmaReadError at h
  repeat' split at h
  all_goals (rw [Host.Outcome.next.injEq] at h; subst h; simp)

theorem execPcieLinkError_frame (kind : Nat) (s : State) {s' : State} (h : execPcieLinkError kind s = .next s') :
    s'.pending = s.pending ∧ s'.clk = s.clk ∧ s'.otp.lcw = s.otp.lcw := by
  unfold execPcieLinkError at h
  split at h <;> (rw [Host.Outcome.next.injEq] at h; subst h; simp)

/-! ## Machine/Queue.lean -/

@[simp] theorem State.noRegister_frame (s : State) (f : Nat) :
    (State.noRegister s f).pending = s.pending ∧ (State.noRegister s f).clk = s.clk ∧
    (State.noRegister s f).otp.lcw = s.otp.lcw := by
  simp [State.noRegister]

@[simp] theorem State.onPage_frame (s : State) (f p : Nat) (g : Nat → State → State)
    (hg : ∀ y0 y1, (g y0 y1).pending = y1.pending ∧ (g y0 y1).clk = y1.clk ∧ (g y0 y1).otp.lcw = y1.otp.lcw) :
    (State.onPage s f p g).pending = s.pending ∧ (State.onPage s f p g).clk = s.clk ∧
    (State.onPage s f p g).otp.lcw = s.otp.lcw := by
  (unfold State.onPage; (repeat' split) <;> simp [apply_ite State.pending, apply_ite State.clk, apply_ite State.otp, apply_ite Otp.lcw, hg]; done)

@[simp] theorem consume_frame (q f : Nat) (base : W16) (x0 : List Nat) (s : State) :
    (consume q f base x0 s).pending = s.pending ∧ (consume q f base x0 s).clk = s.clk ∧
    (consume q f base x0 s).otp.lcw = s.otp.lcw := by
  (fun_induction consume q f base x0 s <;> grind [State.updQueue_frame, State.report_frame])

theorem execQuePiWrite_frame (f page : Nat) (v : W16) (s : State) {s' : State}
    (h : execQuePiWrite f page v s = .next s') :
    s'.pending = s.pending ∧ s'.clk = s.clk ∧ s'.otp.lcw = s.otp.lcw := by
  (unfold execQuePiWrite at h; (repeat' (first | split at h | (dsimp only at h; split at h))) <;>
    first | (simp only [reduceCtorEq] at h; done) | (simp only [Except.ok.injEq, Prod.mk.injEq, Option.some.injEq, Host.Outcome.next.injEq] at h; (first | subst h | (obtain ⟨rfl, -⟩ := h) | (obtain ⟨-, rfl⟩ := h)); (first | (simp; done) | (simp_all; done) | grind [State.updQueue_frame, State.report_frame, State.onPage_frame, State.activity_frame, consume_frame])))

theorem execPushSlotWrite_frame (f page off : Nat) (data : List Byte) (s : State) {s' : State}
    (h : execPushSlotWrite f page off data s = .next s') :
    s'.pending = s.pending ∧ s'.clk = s.clk ∧ s'.otp.lcw = s.otp.lcw := by
  unfold execPushSlotWrite at h
  dsimp only at h
  repeat' split at h
  all_goals (rw [Host.Outcome.next.injEq] at h; subst h; simp)

theorem execQueueEnable_frame (f page : Nat) (irq : Bool) (s : State) {s' : State}
    (h : execQueueEnable f page irq s = .next s') :
    s'.pending = s.pending ∧ s'.clk = s.clk ∧ s'.otp.lcw = s.otp.lcw := by
  (unfold execQueueEnable at h; (repeat' (first | split at h | (dsimp only at h; split at h))) <;>
    first | (simp only [reduceCtorEq] at h; done) | (simp only [Except.ok.injEq, Prod.mk.injEq, Option.some.injEq, Host.Outcome.next.injEq] at h; (first | subst h | (obtain ⟨rfl, -⟩ := h) | (obtain ⟨-, rfl⟩ := h)); (first | (simp; done) | (simp_all; done) | grind [State.updQueue_frame, State.report_frame, State.onPage_frame])))

theorem execQueueDisable_frame (f page : Nat) (irq : Bool) (s : State) {s' : State}
    (h : execQueueDisable f page irq s = .next s') :
    s'.pending = s.pending ∧ s'.clk = s.clk ∧ s'.otp.lcw = s.otp.lcw := by
  rw [execQueueDisable, Host.Outcome.next.injEq] at h
  subst h
  simp

theorem execQueueStopped_frame (q : Nat) (s : State) {s' : State} (h : execQueueStopped q s = .next s') :
    s'.pending = s.pending ∧ s'.clk = s.clk ∧ s'.otp.lcw = s.otp.lcw := by
  unfold execQueueStopped at h
  split at h <;> (rw [Host.Outcome.next.injEq] at h; subst h; simp)

theorem execQueInvalHold_frame (f page : Nat) (idx : W16) (s : State) {s' : State}
    (h : execQueInvalHold f page idx s = .next s') :
    s'.pending = s.pending ∧ s'.clk = s.clk ∧ s'.otp.lcw = s.otp.lcw := by
  rw [execQueInvalHold, Host.Outcome.next.injEq] at h
  subst h
  simp

theorem execQueInvalRelease_frame (f page : Nat) (idx : W16) (s : State) {s' : State}
    (h : execQueInvalRelease f page idx s = .next s') :
    s'.pending = s.pending ∧ s'.clk = s.clk ∧ s'.otp.lcw = s.otp.lcw := by
  rw [execQueInvalRelease, Host.Outcome.next.injEq] at h
  subst h
  simp

theorem execQueModWrite_frame (f page timer count : Nat) (s : State) {s' : State}
    (h : execQueModWrite f page timer count s = .next s') :
    s'.pending = s.pending ∧ s'.clk = s.clk ∧ s'.otp.lcw = s.otp.lcw := by
  rw [execQueModWrite, Host.Outcome.next.injEq] at h
  subst h
  simp

theorem execQueModTimer_frame (q : Nat) (s : State) {s' : State} (h : execQueModTimer q s = .next s') :
    s'.pending = s.pending ∧ s'.clk = s.clk ∧ s'.otp.lcw = s.otp.lcw := by
  unfold execQueModTimer at h
  dsimp only at h
  repeat' split at h
  all_goals (rw [Host.Outcome.next.injEq] at h; subst h; simp)

@[simp] theorem State.countDma_frame (s : State) (e : Err) :
    (State.countDma s e).pending = s.pending ∧ (State.countDma s e).clk = s.clk ∧
    (State.countDma s e).otp.lcw = s.otp.lcw := by
  unfold State.countDma
  split <;> simp

@[simp] theorem State.failEntry_frame (s : State) (q : Nat) (i : W16) (d : Desc) (e : Err) :
    (State.failEntry s q i d e).pending = s.pending ∧ (State.failEntry s q i d e).clk = s.clk ∧
    (State.failEntry s q i d e).otp.lcw = s.otp.lcw := by
  simp [State.failEntry]

@[simp] theorem State.receive_frame (s : State) (q : Nat) (i : W16) (d : Desc) (pushed : Bool) (li lo : SglRead) :
    (State.receive s q i d pushed li lo).pending = s.pending ∧ (State.receive s q i d pushed li lo).clk = s.clk ∧
    (State.receive s q i d pushed li lo).otp.lcw = s.otp.lcw := by
  unfold State.receive
  dsimp only
  split
  · simp
  · split <;> simp

theorem execDescriptorFetch_frame (q : Nat) (r : Fetched) (s : State) {s' : State}
    (h : execDescriptorFetch q r s = .next s') :
    s'.pending = s.pending ∧ s'.clk = s.clk ∧ s'.otp.lcw = s.otp.lcw := by
  unfold execDescriptorFetch at h
  dsimp only at h
  repeat' split at h
  all_goals (rw [Host.Outcome.next.injEq] at h; subst h; simp)

@[simp] theorem State.reserveCtx_frame (s : State) (n : Nat) (id : JobId) (f : Nat) (d : Desc) :
    (State.reserveCtx s n id f d).pending = s.pending ∧ (State.reserveCtx s n id f d).clk = s.clk ∧
    (State.reserveCtx s n id f d).otp.lcw = s.otp.lcw := by
  simp [State.reserveCtx]

@[simp] theorem retagEntries_frame (set e : Nat) (x0 : List Nat) (s : State) :
    (retagEntries set e x0 s).pending = s.pending ∧ (retagEntries set e x0 s).clk = s.clk ∧
    (retagEntries set e x0 s).otp.lcw = s.otp.lcw := by
  (fun_induction retagEntries set e x0 s <;> simp_all; done)

@[simp] theorem evict_frame (q need : Nat) (x0 : List Nat) (s : State) :
    (evict q need x0 s).pending = s.pending ∧ (evict q need x0 s).clk = s.clk ∧
    (evict q need x0 s).otp.lcw = s.otp.lcw := by
  (fun_induction evict q need x0 s <;> grind [State.updHss_frame])

@[simp] theorem State.useHss_frame (s : State) (k : Nat) :
    (State.useHss s k).pending = s.pending ∧ (State.useHss s k).clk = s.clk ∧
    (State.useHss s k).otp.lcw = s.otp.lcw := by
  simp [State.useHss]

@[simp] theorem State.giveHome_frame (s : State) (k : Nat) :
    (State.giveHome s k).pending = s.pending ∧ (State.giveHome s k).clk = s.clk ∧
    (State.giveHome s k).otp.lcw = s.otp.lcw := by
  unfold State.giveHome
  dsimp only
  repeat' split
  all_goals simp

@[simp] theorem State.takeIndex_frame (s : State) (k total : Nat) :
    (State.takeIndex s k total).pending = s.pending ∧ (State.takeIndex s k total).clk = s.clk ∧
    (State.takeIndex s k total).otp.lcw = s.otp.lcw := by
  simp [State.takeIndex]

@[simp] theorem State.addJob_frame (s : State) (j : Job) :
    (State.addJob s j).pending = s.pending ∧ (State.addJob s j).clk = s.clk ∧
    (State.addJob s j).otp.lcw = s.otp.lcw := by
  simp [State.addJob]

theorem State.take_frame (s : State) (id : JobId) (f : Nat) (d : Desc) (slots : List Nat) {t : Taken}
    (h : s.take id f d slots = .ok t) : t.s.pending = s.pending ∧ t.s.clk = s.clk ∧ t.s.otp.lcw = s.otp.lcw := by
  unfold State.take at h
  dsimp only at h
  repeat' split at h
  all_goals (first | (simp only [reduceCtorEq] at h; done) | (simp only [Except.ok.injEq] at h; subst h; simp))

theorem State.dispatchDesc_frame (s : State) (id : JobId) (f cls : Nat) (d : Desc) (so : List SglEnt)
    (mbx : Option (Nat × W32)) {s' : State} (h : State.dispatchDesc s id f cls d so mbx = .ok (some s')) :
    s'.pending = s.pending ∧ s'.clk = s.clk ∧ s'.otp.lcw = s.otp.lcw := by
  unfold State.dispatchDesc at h
  dsimp only at h
  repeat' split at h
  all_goals (first | (simp only [reduceCtorEq, Except.ok.injEq] at h; done) | skip)
  all_goals
    rename_i e _ 
    simp only [Except.ok.injEq, Option.some.injEq] at h
    subst h
    have g := State.take_frame _ _ _ _ _ (by assumption)
    simp [g.1, g.2.1, g.2.2]

theorem execJobDispatch_frame (q : Nat) (s : State) {s' : State} (h : execJobDispatch q s = .next s') :
    s'.pending = s.pending ∧ s'.clk = s.clk ∧ s'.otp.lcw = s.otp.lcw := by
  (unfold execJobDispatch at h; (repeat' (first | split at h | (dsimp only at h; split at h))) <;>
    first | (simp only [reduceCtorEq] at h; done) | (simp only [Except.ok.injEq, Prod.mk.injEq, Option.some.injEq, Host.Outcome.next.injEq] at h; (first | subst h | (obtain ⟨rfl, -⟩ := h) | (obtain ⟨-, rfl⟩ := h)); (first | (simp; done) | (simp_all; done) | grind [State.fnEvent_frame, State.updQueue_frame, State.dispatchDesc_frame, State.failEntry_frame])))

@[simp] theorem State.nopDone_frame (s : State) (q : Nat) (op : Byte) :
    (State.nopDone s q op).pending = s.pending ∧ (State.nopDone s q op).clk = s.clk ∧
    (State.nopDone s q op).otp.lcw = s.otp.lcw := by
  unfold State.nopDone
  dsimp only
  repeat' split
  all_goals simp

theorem execFence_frame (q : Nat) (s : State) {s' : State} (h : execFence q s = .next s') :
    s'.pending = s.pending ∧ s'.clk = s.clk ∧ s'.otp.lcw = s.otp.lcw := by
  rw [execFence, Host.Outcome.next.injEq] at h
  subst h
  simp

theorem execNop_frame (q : Nat) (s : State) {s' : State} (h : execNop q s = .next s') :
    s'.pending = s.pending ∧ s'.clk = s.clk ∧ s'.otp.lcw = s.otp.lcw := by
  rw [execNop, Host.Outcome.next.injEq] at h
  subst h
  simp

theorem execJobEnd_frame (id : JobId) (s : State) {s' : State} (h : execJobEnd id s = .next s') :
    s'.pending = s.pending ∧ s'.clk = s.clk ∧ s'.otp.lcw = s.otp.lcw := by
  unfold execJobEnd at h
  repeat' split at h
  all_goals (rw [Host.Outcome.next.injEq] at h; subst h; simp)

theorem execL1Entry_frame (s : State) {s' : State} (h : execL1Entry s = .next s') :
    s'.pending = s.pending ∧ s'.clk = s.clk ∧ s'.otp.lcw = s.otp.lcw := by
  unfold execL1Entry at h
  split at h <;> (rw [Host.Outcome.next.injEq] at h; subst h; simp)

theorem execOpFamily_frame (h : Hdr) (code : Byte) (d : Desc) (li lo : SglRead) (s : State) {s' : State}
    (hx : execOpFamily h code d li lo s = .next s') :
    s'.pending = s.pending ∧ s'.clk = s.clk ∧ s'.otp.lcw = s.otp.lcw := by
  rw [execOpFamily] at hx
  split at hx
  · rw [Host.Outcome.next.injEq] at hx; subst hx; exact ⟨rfl, rfl, rfl⟩
  rw [Host.Outcome.next.injEq] at hx
  subst hx
  apply State.run_frame
  intro x
  try dsimp only
  repeat' split
  all_goals (first | (simp; done) | (rename_i e; have f := State.dispatchDesc_frame _ _ _ _ _ _ _ e; simp [f]))

/-! ## Machine/JobRun.lean -/

@[simp] theorem State.runJob_frame (s : State) (id : JobId) (op : Nat) (inp : JobIn)
    (f : Job → List Byte → State → State) (hf : ∀ y0 y1 y2, (f y0 y1 y2).pending = y2.pending ∧
    (f y0 y1 y2).clk = y2.clk ∧ (f y0 y1 y2).otp.lcw = y2.otp.lcw) :
    (State.runJob s id op inp f).pending = s.pending ∧ (State.runJob s id op inp f).clk = s.clk ∧
    (State.runJob s id op inp f).otp.lcw = s.otp.lcw := by
  (unfold State.runJob; (repeat' split) <;> simp [apply_ite State.pending, apply_ite State.clk, apply_ite State.otp, apply_ite Otp.lcw, hf]; done)

@[simp] theorem State.withWords_frame (s : State) (id : JobId) (gens : List Nat) (f : List W512 → State → State)
    (hf : ∀ ws x, (f ws x).pending = x.pending ∧ (f ws x).clk = x.clk ∧ (f ws x).otp.lcw = x.otp.lcw) :
    (State.withWords s id gens f).pending = s.pending ∧ (State.withWords s id gens f).clk = s.clk ∧
    (State.withWords s id gens f).otp.lcw = s.otp.lcw := by
  induction gens generalizing s f with
  | nil => simpa [State.withWords] using hf [] s
  | cons g t ih =>
    rw [State.withWords]
    have k := State.drawFrom_frame s g
    split
    · simp
    · split
      · simp
      · have e := ih (s.drawFrom g).2 (fun ws x => f ((s.drawFrom g).1 :: ws) x) (fun ws x => hf _ x)
        exact ⟨e.1.trans k.1, e.2.1.trans k.2.1, e.2.2.trans k.2.2⟩

@[simp] theorem State.whenSeeded_frame (s : State) (id : JobId) (g : Nat) (f : State → State)
    (hf : ∀ y0, (f y0).pending = y0.pending ∧ (f y0).clk = y0.clk ∧ (f y0).otp.lcw = y0.otp.lcw) :
    (State.whenSeeded s id g f).pending = s.pending ∧ (State.whenSeeded s id g f).clk = s.clk ∧
    (State.whenSeeded s id g f).otp.lcw = s.otp.lcw := by
  (unfold State.whenSeeded; (repeat' split) <;> simp [apply_ite State.pending, apply_ite State.clk, apply_ite State.otp, apply_ite Otp.lcw, hf]; done)

@[simp] theorem State.withHawk_frame (s : State) (j : Job) (own : Nat) (f : List W512 → State → State)
    (hf : ∀ y0 y1, (f y0 y1).pending = y1.pending ∧ (f y0 y1).clk = y1.clk ∧ (f y0 y1).otp.lcw = y1.otp.lcw) :
    (State.withHawk s j own f).pending = s.pending ∧ (State.withHawk s j own f).clk = s.clk ∧
    (State.withHawk s j own f).otp.lcw = s.otp.lcw := by
  simp [State.withHawk, hf]

theorem execRngWaitTimeout_frame (id : JobId) (n : Nat) (s : State) {s' : State}
    (h : execRngWaitTimeout id n s = .next s') :
    s'.pending = s.pending ∧ s'.clk = s.clk ∧ s'.otp.lcw = s.otp.lcw := by
  unfold execRngWaitTimeout at h
  repeat' split at h
  all_goals (rw [Host.Outcome.next.injEq] at h; subst h; simp)

@[simp] theorem State.withMasks_frame (s : State) (j : Job) (pre : List Nat) (f : List W512 → State → State)
    (hf : ∀ y0 y1, (f y0 y1).pending = y1.pending ∧ (f y0 y1).clk = y1.clk ∧ (f y0 y1).otp.lcw = y1.otp.lcw) :
    (State.withMasks s j pre f).pending = s.pending ∧ (State.withMasks s j pre f).clk = s.clk ∧
    (State.withMasks s j pre f).otp.lcw = s.otp.lcw := by
  unfold State.withMasks
  split <;> simp [hf]

@[simp] theorem State.finish_frame (s : State) (j : Job) (out : List Byte) (keys : List KeySpec) (rest : List Byte) :
    (State.finish s j out keys rest).pending = s.pending ∧ (State.finish s j out keys rest).clk = s.clk ∧
    (State.finish s j out keys rest).otp.lcw = s.otp.lcw := by
  (grind [State.finish, State.failJob_frame, State.endJob_frame, State.allocKeys_frame])

@[simp] theorem State.selfFail_frame (s : State) (j : Job) (cause : Nat) :
    (State.selfFail s j cause).pending = s.pending ∧ (State.selfFail s j cause).clk = s.clk ∧
    (State.selfFail s j cause).otp.lcw = s.otp.lcw := by
  unfold State.selfFail
  split <;> simp

@[simp] theorem State.aead_frame (s : State) (id : JobId) (op : Nat) (inp : JobIn)
    (f : List Byte → List Byte → Desc → List Byte → Option (List Byte)) :
    (State.aead s id op inp f).pending = s.pending ∧ (State.aead s id op inp f).clk = s.clk ∧
    (State.aead s id op inp f).otp.lcw = s.otp.lcw := by
  (grind [State.aead, State.withWords_frame, State.drawMany_frame, State.failJob_frame, State.endJob_frame, State.runJob_frame])

theorem execAeadSeal_frame (id : JobId) (inp : JobIn) (s : State) {s' : State}
    (h : execAeadSeal id inp s = .next s') :
    s'.pending = s.pending ∧ s'.clk = s.clk ∧ s'.otp.lcw = s.otp.lcw := by
  rw [execAeadSeal, Host.Outcome.next.injEq] at h
  subst h
  simp

theorem execAeadOpen_frame (id : JobId) (inp : JobIn) (s : State) {s' : State}
    (h : execAeadOpen id inp s = .next s') :
    s'.pending = s.pending ∧ s'.clk = s.clk ∧ s'.otp.lcw = s.otp.lcw := by
  rw [execAeadOpen, Host.Outcome.next.injEq] at h
  subst h
  simp

theorem execGmacTag_frame (id : JobId) (inp : JobIn) (s : State) {s' : State} (h : execGmacTag id inp s = .next s') :
    s'.pending = s.pending ∧ s'.clk = s.clk ∧ s'.otp.lcw = s.otp.lcw := by
  rw [execGmacTag, Host.Outcome.next.injEq] at h
  subst h
  simp

theorem execGmacCheck_frame (id : JobId) (inp : JobIn) (s : State) {s' : State}
    (h : execGmacCheck id inp s = .next s') :
    s'.pending = s.pending ∧ s'.clk = s.clk ∧ s'.otp.lcw = s.otp.lcw := by
  rw [execGmacCheck, Host.Outcome.next.injEq] at h
  subst h
  simp

/-! ## Machine/Lattice.lean -/

@[simp] theorem State.putTransient_frame (s : State) (k : Nat) (data : List Byte) :
    (State.putTransient s k data).pending = s.pending ∧ (State.putTransient s k data).clk = s.clk ∧
    (State.putTransient s k data).otp.lcw = s.otp.lcw := by
  simp [State.putTransient]

theorem execHybridLathPart_frame (id : JobId) (inp : JobIn) (ok : Bool) (s : State) {s' : State}
    (h : execHybridLathPart id inp ok s = .next s') :
    s'.pending = s.pending ∧ s'.clk = s.clk ∧ s'.otp.lcw = s.otp.lcw := by
  unfold execHybridLathPart at h
  split at h
  · cases h; exact ⟨rfl, rfl, rfl⟩
  · split at h
    · cases h; exact ⟨rfl, rfl, rfl⟩
    · split at h
      · rw [Host.Outcome.next.injEq] at h; subst h; simp
      · rw [Host.Outcome.next.injEq] at h; subst h; simp
      · rw [Host.Outcome.next.injEq] at h
        subst h
        obtain ⟨w1, w2, w3⟩ := State.wakeLink_frame s
        rw [← w1, ← w2, ← w3]
        apply State.withHawk_frame
        intro ws x
        dsimp only
        repeat' split
        all_goals simp

@[simp] theorem State.kem_frame (s : State) (id : JobId) (op : Nat) (inp : JobIn)
    (f : Job → List Byte → List Byte → List Byte → State → State)
    (hf : ∀ y0 y1 y2 y3 y4, (f y0 y1 y2 y3 y4).pending = y4.pending ∧ (f y0 y1 y2 y3 y4).clk = y4.clk ∧
    (f y0 y1 y2 y3 y4).otp.lcw = y4.otp.lcw) :
    (State.kem s id op inp f).pending = s.pending ∧ (State.kem s id op inp f).clk = s.clk ∧
    (State.kem s id op inp f).otp.lcw = s.otp.lcw := by
  (simp [State.kem, apply_ite State.pending, apply_ite State.clk, apply_ite State.otp, apply_ite Otp.lcw, hf]; done)

@[simp] theorem State.agree_frame (s : State) (j : Job) (secret out : List Byte) :
    (State.agree s j secret out).pending = s.pending ∧ (State.agree s j secret out).clk = s.clk ∧
    (State.agree s j secret out).otp.lcw = s.otp.lcw := by
  simp [State.agree]

theorem execKemKeygen_frame (id : JobId) (inp : JobIn) (ok : Bool) (s : State) {s' : State}
    (h : execKemKeygen id inp ok s = .next s') :
    s'.pending = s.pending ∧ s'.clk = s.clk ∧ s'.otp.lcw = s.otp.lcw := by
  unfold execKemKeygen at h
  split at h <;> (rw [Host.Outcome.next.injEq] at h; subst h; simp)

theorem execKemEncaps_frame (id : JobId) (inp : JobIn) (s : State) {s' : State}
    (h : execKemEncaps id inp s = .next s') :
    s'.pending = s.pending ∧ s'.clk = s.clk ∧ s'.otp.lcw = s.otp.lcw := by
  rw [execKemEncaps, Host.Outcome.next.injEq] at h
  subst h
  simp

theorem execKemDecaps_frame (id : JobId) (inp : JobIn) (s : State) {s' : State}
    (h : execKemDecaps id inp s = .next s') :
    s'.pending = s.pending ∧ s'.clk = s.clk ∧ s'.otp.lcw = s.otp.lcw := by
  rw [execKemDecaps, Host.Outcome.next.injEq] at h
  subst h
  simp

theorem execHybEncaps_frame (id : JobId) (inp : JobIn) (s : State) {s' : State}
    (h : execHybEncaps id inp s = .next s') :
    s'.pending = s.pending ∧ s'.clk = s.clk ∧ s'.otp.lcw = s.otp.lcw := by
  rw [execHybEncaps, Host.Outcome.next.injEq] at h
  subst h
  simp

theorem execHybDecaps_frame (id : JobId) (inp : JobIn) (s : State) {s' : State}
    (h : execHybDecaps id inp s = .next s') :
    s'.pending = s.pending ∧ s'.clk = s.clk ∧ s'.otp.lcw = s.otp.lcw := by
  rw [execHybDecaps, Host.Outcome.next.injEq] at h
  subst h
  simp

theorem execKemRekey_frame (id : JobId) (inp : JobIn) (s : State) {s' : State}
    (h : execKemRekey id inp s = .next s') :
    s'.pending = s.pending ∧ s'.clk = s.clk ∧ s'.otp.lcw = s.otp.lcw := by
  rw [execKemRekey, Host.Outcome.next.injEq] at h
  subst h
  simp

@[simp] theorem State.verifyJob_frame (s : State) (j : Job) (fam : Byte) (pkLen sigLen : Nat) (b : List Byte) :
    (State.verifyJob s j fam pkLen sigLen b).pending = s.pending ∧
    (State.verifyJob s j fam pkLen sigLen b).clk = s.clk ∧
    (State.verifyJob s j fam pkLen sigLen b).otp.lcw = s.otp.lcw := by
  unfold State.verifyJob
  split <;> simp

theorem execDsaKeygen_frame (id : JobId) (inp : JobIn) (ok : Bool) (s : State) {s' : State}
    (h : execDsaKeygen id inp ok s = .next s') :
    s'.pending = s.pending ∧ s'.clk = s.clk ∧ s'.otp.lcw = s.otp.lcw := by
  unfold execDsaKeygen at h
  split at h <;> (rw [Host.Outcome.next.injEq] at h; subst h; simp)

theorem execDsaSign_frame (id : JobId) (inp : JobIn) (ok : Bool) (s : State) {s' : State}
    (h : execDsaSign id inp ok s = .next s') :
    s'.pending = s.pending ∧ s'.clk = s.clk ∧ s'.otp.lcw = s.otp.lcw := by
  (rw [execDsaSign, Host.Outcome.next.injEq] at h; subst h; apply State.runJob_frame; intro j b x; (try dsimp only); (repeat' split) <;>
    first | (simp; done) | (apply State.withWords_frame; intros; (try dsimp only); (repeat' split) <;> simp))

theorem execDsaVerify_frame (id : JobId) (inp : JobIn) (s : State) {s' : State}
    (h : execDsaVerify id inp s = .next s') :
    s'.pending = s.pending ∧ s'.clk = s.clk ∧ s'.otp.lcw = s.otp.lcw := by
  rw [execDsaVerify, Host.Outcome.next.injEq] at h
  subst h
  simp

/-! ## Machine/HashCode.lean -/

theorem execSlhKeygen_frame (id : JobId) (inp : JobIn) (ok : Bool) (s : State) {s' : State}
    (h : execSlhKeygen id inp ok s = .next s') :
    s'.pending = s.pending ∧ s'.clk = s.clk ∧ s'.otp.lcw = s.otp.lcw := by
  unfold execSlhKeygen at h
  split at h <;> (rw [Host.Outcome.next.injEq] at h; subst h; simp)

theorem execSlhSign_frame (id : JobId) (inp : JobIn) (ok : Bool) (s : State) {s' : State}
    (h : execSlhSign id inp ok s = .next s') :
    s'.pending = s.pending ∧ s'.clk = s.clk ∧ s'.otp.lcw = s.otp.lcw := by
  unfold execSlhSign at h
  split at h <;> (rw [Host.Outcome.next.injEq] at h; subst h; simp)

theorem execSlhVerify_frame (id : JobId) (inp : JobIn) (s : State) {s' : State}
    (h : execSlhVerify id inp s = .next s') :
    s'.pending = s.pending ∧ s'.clk = s.clk ∧ s'.otp.lcw = s.otp.lcw := by
  rw [execSlhVerify, Host.Outcome.next.injEq] at h
  subst h
  simp

theorem State.runJob_keeps (s : State) (id : JobId) (op : Nat) (inp : JobIn) (f : Job → List Byte → State → State)
    (hf : ∀ j b x, (f j b x).pending = x.pending ∧ (f j b x).clk = x.clk) :
    (s.runJob id op inp f).pending = s.pending ∧ (s.runJob id op inp f).clk = s.clk := by
  unfold State.runJob
  repeat' (first | split | dsimp only)
  all_goals (first | (simp; done) | simp [hf])

theorem State.withWords_keeps (s : State) (id : JobId) (gens : List Nat) (f : List W512 → State → State)
    (hf : ∀ ws x, (f ws x).pending = x.pending ∧ (f ws x).clk = x.clk) :
    (State.withWords s id gens f).pending = s.pending ∧ (State.withWords s id gens f).clk = s.clk := by
  induction gens generalizing s f with
  | nil => simpa [State.withWords] using hf [] s
  | cons g t ih =>
    rw [State.withWords]
    have k := State.drawFrom_frame s g
    split
    · simp
    · split
      · simp
      · have e := ih (s.drawFrom g).2 (fun ws x => f ((s.drawFrom g).1 :: ws) x) (fun ws x => hf _ x)
        exact ⟨e.1.trans k.1, e.2.trans k.2.1⟩

theorem execLmsKeygen_frame (id : JobId) (inp : JobIn) (ok : Bool) (s : State) {s' : State}
    (h : execLmsKeygen id inp ok s = .next s') : s'.pending = s.pending ∧ s'.clk = s.clk := by
  unfold execLmsKeygen at h
  split at h <;> (rw [Host.Outcome.next.injEq] at h; subst h)
  · simp
  · apply State.runJob_keeps
    intro j b x
    apply State.withWords_keeps
    intro ws y
    dsimp only
    repeat' split
    all_goals simp

theorem execLmsSign_frame (id : JobId) (inp : JobIn) (ok : Bool) (s : State) {s' : State}
    (h : execLmsSign id inp ok s = .next s') :
    s'.pending = s.pending ∧ s'.clk = s.clk ∧ s'.otp.lcw = s.otp.lcw := by
  (rw [execLmsSign, Host.Outcome.next.injEq] at h; subst h; apply State.runJob_frame; intro j b x; (try dsimp only); (repeat' split) <;>
    first | (simp; done) | (apply State.withWords_frame; intros; (try dsimp only); (repeat' split) <;> simp))

theorem execLmsVerify_frame (id : JobId) (inp : JobIn) (s : State) {s' : State}
    (h : execLmsVerify id inp s = .next s') :
    s'.pending = s.pending ∧ s'.clk = s.clk ∧ s'.otp.lcw = s.otp.lcw := by
  (rw [execLmsVerify, Host.Outcome.next.injEq] at h; subst h; apply State.runJob_frame; intro j b x; (try dsimp only); (repeat' split) <;>
    first | (simp; done) | (apply State.withWords_frame; intros; (try dsimp only); (repeat' split) <;> simp))

@[simp] theorem failAbove_frame (k limit : Nat) (x0 : List Job) (s : State) :
    (failAbove k limit x0 s).pending = s.pending ∧ (failAbove k limit x0 s).clk = s.clk ∧
    (failAbove k limit x0 s).otp.lcw = s.otp.lcw := by
  (fun_induction failAbove k limit x0 s <;> grind [State.failJob_frame])

@[simp] theorem State.copyRes_frame (s : State) (i : Nat) :
    (State.copyRes s i).pending = s.pending ∧ (State.copyRes s i).clk = s.clk ∧
    (State.copyRes s i).otp.lcw = s.otp.lcw := by
  simp [State.copyRes]

@[simp] theorem clearAhead_frame (x0 : Nat) (s : State) :
    (clearAhead x0 s).pending = s.pending ∧ (clearAhead x0 s).clk = s.clk ∧
    (clearAhead x0 s).otp.lcw = s.otp.lcw := by
  (fun_induction clearAhead x0 s <;> simp_all; done)

theorem execReservationWriteDone_frame (k : Nat) (how : ResWrite) (s0 : State) {s' : State}
    (h : execReservationWriteDone k how s0 = .next s') :
    s'.pending = s0.pending ∧ s'.clk = s0.clk ∧ s'.otp.lcw = s0.otp.lcw := by
  unfold execReservationWriteDone at h
  dsimp only at h
  repeat' split at h
  all_goals (rw [Host.Outcome.next.injEq] at h; subst h; simp)

theorem execLmsRebuildDone_frame (k : Nat) (s : State) {s' : State} (h : execLmsRebuildDone k s = .next s') :
    s'.pending = s.pending ∧ s'.clk = s.clk ∧ s'.otp.lcw = s.otp.lcw := by
  unfold execLmsRebuildDone at h
  split at h <;> (rw [Host.Outcome.next.injEq] at h; subst h; simp)

theorem execHqcKeygen_frame (id : JobId) (inp : JobIn) (ok : Bool) (s : State) {s' : State}
    (h : execHqcKeygen id inp ok s = .next s') :
    s'.pending = s.pending ∧ s'.clk = s.clk ∧ s'.otp.lcw = s.otp.lcw := by
  unfold execHqcKeygen at h
  split at h <;> (rw [Host.Outcome.next.injEq] at h; subst h; simp)

theorem execHqcEncaps_frame (id : JobId) (inp : JobIn) (s : State) {s' : State}
    (h : execHqcEncaps id inp s = .next s') :
    s'.pending = s.pending ∧ s'.clk = s.clk ∧ s'.otp.lcw = s.otp.lcw := by
  (rw [execHqcEncaps, Host.Outcome.next.injEq] at h; subst h; apply State.runJob_frame; intro j b x; (try dsimp only); (repeat' split) <;>
    first | (simp; done) | (apply State.withWords_frame; intros; (try dsimp only); (repeat' split) <;> simp))

theorem execHqcDecaps_frame (id : JobId) (inp : JobIn) (s : State) {s' : State}
    (h : execHqcDecaps id inp s = .next s') :
    s'.pending = s.pending ∧ s'.clk = s.clk ∧ s'.otp.lcw = s.otp.lcw := by
  rw [execHqcDecaps, Host.Outcome.next.injEq] at h
  subst h
  simp

theorem mceTry_frame (f n : Nat) (s : State) : (mceTry f n s).2.pending = s.pending ∧ (mceTry f n s).2.clk = s.clk ∧
    (mceTry f n s).2.otp.lcw = s.otp.lcw := by
  induction f generalizing n s with
  | zero => simp [mceTry]
  | succ k ih =>
    have g := State.drawFrom_frame s genDevice
    rw [mceTry]
    dsimp only
    split
    · exact g
    · have e := ih (n + 1) (s.drawFrom genDevice).2
      exact ⟨e.1.trans g.1, e.2.1.trans g.2.1, e.2.2.trans g.2.2⟩

theorem execMceKeygen_frame (id : JobId) (inp : JobIn) (ok : Bool) (s : State) {s' : State}
    (h : execMceKeygen id inp ok s = .next s') : s'.pending = s.pending ∧ s'.clk = s.clk ∧
    s'.otp.lcw = s.otp.lcw := by
  rw [execMceKeygen, Host.Outcome.next.injEq] at h
  subst h
  apply State.runJob_frame
  intro j b x
  apply State.withMasks_frame
  intro ws y
  have k := mceTry_frame 64 1 y
  split
  · rename_i e; rw [e] at k; simpa using k
  · rename_i e; rw [e] at k
    dsimp only
    split
    · simpa using k
    · simpa using k

theorem execMceEncaps_frame (id : JobId) (inp : JobIn) (s : State) {s' : State}
    (h : execMceEncaps id inp s = .next s') :
    s'.pending = s.pending ∧ s'.clk = s.clk ∧ s'.otp.lcw = s.otp.lcw := by
  rw [execMceEncaps, Host.Outcome.next.injEq] at h
  subst h
  simp

theorem execMceDecaps_frame (id : JobId) (inp : JobIn) (s : State) {s' : State}
    (h : execMceDecaps id inp s = .next s') :
    s'.pending = s.pending ∧ s'.clk = s.clk ∧ s'.otp.lcw = s.otp.lcw := by
  rw [execMceDecaps, Host.Outcome.next.injEq] at h
  subst h
  simp

theorem execMceCache_frame (id : JobId) (inp : JobIn) (s : State) {s' : State}
    (h : execMceCache id inp s = .next s') :
    s'.pending = s.pending ∧ s'.clk = s.clk ∧ s'.otp.lcw = s.otp.lcw := by
  (rw [execMceCache, Host.Outcome.next.injEq] at h; subst h; apply State.runJob_frame; intro j b x; (try dsimp only); (repeat' split) <;>
    first | (simp; done) | (apply State.withWords_frame; intros; (try dsimp only); (repeat' split) <;> simp))

theorem execRegionAlloc_frame (id : JobId) (q : Nat) (s : State) {s' : State}
    (h : execRegionAlloc id q s = .next s') :
    s'.pending = s.pending ∧ s'.clk = s.clk ∧ s'.otp.lcw = s.otp.lcw := by
  unfold execRegionAlloc at h
  dsimp only at h
  repeat' split at h
  all_goals (rw [Host.Outcome.next.injEq] at h; subst h; simp)

theorem execMceKeyLoaded_frame (id : JobId) (inp : JobIn) (s : State) {s' : State}
    (h : execMceKeyLoaded id inp s = .next s') :
    s'.pending = s.pending ∧ s'.clk = s.clk ∧ s'.otp.lcw = s.otp.lcw := by
  unfold execMceKeyLoaded at h
  repeat' split at h
  all_goals (rw [Host.Outcome.next.injEq] at h; subst h; simp)

/-! ## Machine/Sponge.lean -/

@[simp] theorem State.coreUnits_frame (s0 : State) (j : Job) (n : Nat) :
    (State.coreUnits s0 j n).pending = s0.pending ∧ (State.coreUnits s0 j n).clk = s0.clk ∧
    (State.coreUnits s0 j n).otp.lcw = s0.otp.lcw := by
  unfold State.coreUnits
  dsimp only
  repeat' split
  all_goals simp

@[simp] theorem State.phase_frame (s : State) (j : Job) (b : List Byte) (fin : Ctx → List Byte) (pre tail off : Nat) :
    (State.phase s j b fin pre tail off).pending = s.pending ∧ (State.phase s j b fin pre tail off).clk = s.clk ∧
    (State.phase s j b fin pre tail off).otp.lcw = s.otp.lcw := by
  unfold State.phase
  dsimp only
  repeat' split
  all_goals simp

theorem execHashDigest_frame (id : JobId) (inp : JobIn) (s : State) {s' : State}
    (h : execHashDigest id inp s = .next s') :
    s'.pending = s.pending ∧ s'.clk = s.clk ∧ s'.otp.lcw = s.otp.lcw := by
  rw [execHashDigest, Host.Outcome.next.injEq] at h
  subst h
  simp

theorem execMacHmac_frame (id : JobId) (inp : JobIn) (s : State) {s' : State} (h : execMacHmac id inp s = .next s') :
    s'.pending = s.pending ∧ s'.clk = s.clk ∧ s'.otp.lcw = s.otp.lcw := by
  rw [execMacHmac, Host.Outcome.next.injEq] at h
  subst h
  simp

theorem execMacKmac_frame (id : JobId) (inp : JobIn) (s : State) {s' : State} (h : execMacKmac id inp s = .next s') :
    s'.pending = s.pending ∧ s'.clk = s.clk ∧ s'.otp.lcw = s.otp.lcw := by
  rw [execMacKmac, Host.Outcome.next.injEq] at h
  subst h
  simp

theorem execKdfDerive_frame (id : JobId) (inp : JobIn) (s : State) {s' : State}
    (h : execKdfDerive id inp s = .next s') :
    s'.pending = s.pending ∧ s'.clk = s.clk ∧ s'.otp.lcw = s.otp.lcw := by
  rw [execKdfDerive, Host.Outcome.next.injEq] at h
  subst h
  simp

theorem execHashImport_frame (id : JobId) (inp : JobIn) (s : State) {s' : State}
    (h : execHashImport id inp s = .next s') :
    s'.pending = s.pending ∧ s'.clk = s.clk ∧ s'.otp.lcw = s.otp.lcw := by
  (rw [execHashImport, Host.Outcome.next.injEq] at h; subst h; apply State.runJob_frame; intro j b x; (try dsimp only); (repeat' split) <;>
    first | (simp; done) | (apply State.withWords_frame; intros; (try dsimp only); (repeat' split) <;> simp))

theorem execHashExport_frame (h : Hdr) (n : Nat) (out : Buf) (s : State) {s' : State}
    (hx : execHashExport h n out s = .next s') :
    s'.pending = s.pending ∧ s'.clk = s.clk ∧ s'.otp.lcw = s.otp.lcw := by
  simp only [execHashExport, Host.Outcome.next.injEq] at hx
  subst hx
  apply State.run_frame
  intro x
  try dsimp only
  repeat' split
  all_goals (first | (simp; done) | (rename_i e; have f := State.writeBuf_frame _ _ _ _ e; simp [f]))

theorem execCtxFree_frame (hd : Hdr) (n : Nat) (s : State) {s' : State} (h : execCtxFree hd n s = .next s') :
    s'.pending = s.pending ∧ s'.clk = s.clk ∧ s'.otp.lcw = s.otp.lcw := by
  rw [execCtxFree, Host.Outcome.next.injEq] at h
  subst h
  apply State.run_frame
  intro x
  repeat' split
  all_goals simp

theorem execPoolYield_frame (id : JobId) (s : State) {s' : State} (h : execPoolYield id s = .next s') :
    s'.pending = s.pending ∧ s'.clk = s.clk ∧ s'.otp.lcw = s.otp.lcw := by
  unfold execPoolYield at h
  dsimp only at h
  repeat' split at h
  all_goals (rw [Host.Outcome.next.injEq] at h; subst h; simp)

theorem execPoolResume_frame (id : JobId) (s : State) {s' : State} (h : execPoolResume id s = .next s') :
    s'.pending = s.pending ∧ s'.clk = s.clk ∧ s'.otp.lcw = s.otp.lcw := by
  unfold execPoolResume at h
  repeat' split at h
  all_goals (rw [Host.Outcome.next.injEq] at h; subst h; simp)

/-! ## Machine/HawkOps.lean -/

@[simp] theorem State.early_frame (s : State) (j : Job) (st : W16) :
    (State.early s j st).pending = s.pending ∧ (State.early s j st).clk = s.clk ∧
    (State.early s j st).otp.lcw = s.otp.lcw := by
  simp [State.early]

theorem execEcKeygen_frame (id : JobId) (inp : JobIn) (ok : Bool) (s : State) {s' : State}
    (h : execEcKeygen id inp ok s = .next s') :
    s'.pending = s.pending ∧ s'.clk = s.clk ∧ s'.otp.lcw = s.otp.lcw := by
  unfold execEcKeygen at h
  split at h <;> (rw [Host.Outcome.next.injEq] at h; subst h; simp)

theorem execEcDh_frame (id : JobId) (inp : JobIn) (ok : Bool) (s : State) {s' : State}
    (h : execEcDh id inp ok s = .next s') :
    s'.pending = s.pending ∧ s'.clk = s.clk ∧ s'.otp.lcw = s.otp.lcw := by
  (rw [execEcDh, Host.Outcome.next.injEq] at h; subst h; apply State.runJob_frame; intro j b x; (try dsimp only); (repeat' split) <;>
    first | (simp; done) | (apply State.withWords_frame; intros; (try dsimp only); (repeat' split) <;> simp))

theorem execEcSign_frame (id : JobId) (inp : JobIn) (ok : Bool) (s : State) {s' : State}
    (h : execEcSign id inp ok s = .next s') :
    s'.pending = s.pending ∧ s'.clk = s.clk ∧ s'.otp.lcw = s.otp.lcw := by
  unfold execEcSign at h
  split at h <;> (rw [Host.Outcome.next.injEq] at h; subst h; simp)

theorem execEcVerify_frame (id : JobId) (inp : JobIn) (s : State) {s' : State}
    (h : execEcVerify id inp s = .next s') :
    s'.pending = s.pending ∧ s'.clk = s.clk ∧ s'.otp.lcw = s.otp.lcw := by
  (rw [execEcVerify, Host.Outcome.next.injEq] at h; subst h; apply State.runJob_frame; intro j b x; (try dsimp only); (repeat' split) <;>
    first | (simp; done) | (apply State.withWords_frame; intros; (try dsimp only); (repeat' split) <;> simp))

theorem execRsaSign_frame (id : JobId) (inp : JobIn) (ok : Bool) (s : State) {s' : State}
    (h : execRsaSign id inp ok s = .next s') :
    s'.pending = s.pending ∧ s'.clk = s.clk ∧ s'.otp.lcw = s.otp.lcw := by
  unfold execRsaSign at h
  split at h <;> (rw [Host.Outcome.next.injEq] at h; subst h; simp)

theorem execRsaVerify_frame (id : JobId) (inp : JobIn) (s : State) {s' : State}
    (h : execRsaVerify id inp s = .next s') :
    s'.pending = s.pending ∧ s'.clk = s.clk ∧ s'.otp.lcw = s.otp.lcw := by
  (rw [execRsaVerify, Host.Outcome.next.injEq] at h; subst h; apply State.runJob_frame; intro j b x; (try dsimp only); (repeat' split) <;>
    first | (simp; done) | (apply State.withWords_frame; intros; (try dsimp only); (repeat' split) <;> simp))

theorem execRsaEncrypt_frame (id : JobId) (inp : JobIn) (s : State) {s' : State}
    (h : execRsaEncrypt id inp s = .next s') :
    s'.pending = s.pending ∧ s'.clk = s.clk ∧ s'.otp.lcw = s.otp.lcw := by
  (rw [execRsaEncrypt, Host.Outcome.next.injEq] at h; subst h; apply State.runJob_frame; intro j b x; (try dsimp only); (repeat' split) <;>
    first | (simp; done) | (apply State.withWords_frame; intros; (try dsimp only); (repeat' split) <;> simp))

theorem execRsaDecrypt_frame (id : JobId) (inp : JobIn) (ok : Bool) (s : State) {s' : State}
    (h : execRsaDecrypt id inp ok s = .next s') :
    s'.pending = s.pending ∧ s'.clk = s.clk ∧ s'.otp.lcw = s.otp.lcw := by
  (rw [execRsaDecrypt, Host.Outcome.next.injEq] at h; subst h; apply State.runJob_frame; intro j b x; (try dsimp only); (repeat' split) <;>
    first | (simp; done) | (apply State.withWords_frame; intros; (try dsimp only); (repeat' split) <;> simp))

theorem execBnModexp_frame (id : JobId) (inp : JobIn) (s : State) {s' : State}
    (h : execBnModexp id inp s = .next s') :
    s'.pending = s.pending ∧ s'.clk = s.clk ∧ s'.otp.lcw = s.otp.lcw := by
  (rw [execBnModexp, Host.Outcome.next.injEq] at h; subst h; apply State.runJob_frame; intro j b x; (try dsimp only); (repeat' split) <;>
    first | (simp; done) | (apply State.withWords_frame; intros; (try dsimp only); (repeat' split) <;> simp))

theorem execBnModmul_frame (id : JobId) (inp : JobIn) (s : State) {s' : State}
    (h : execBnModmul id inp s = .next s') :
    s'.pending = s.pending ∧ s'.clk = s.clk ∧ s'.otp.lcw = s.otp.lcw := by
  (rw [execBnModmul, Host.Outcome.next.injEq] at h; subst h; apply State.runJob_frame; intro j b x; (try dsimp only); (repeat' split) <;>
    first | (simp; done) | (apply State.withWords_frame; intros; (try dsimp only); (repeat' split) <;> simp))

end Sys2Proof.Machine
end

