-- ==== Sys2Proof/Laws/FrameLath.lean ====
section
/-!
SUPPORT. Three things that almost no operation touches: the queue of waiting commands, the clock, and the life-cycle words in
OTP. One lemma per operation, for frames and Lath microwords.
-/
set_option linter.unusedSimpArgs false
set_option linter.unusedVariables false

namespace Sys2Proof.Machine

/-! ## Machine/Frames.lean -/

@[simp] theorem State.sendFrame_frame (s : State) (port sub : Nat) (l : List Byte) :
    (State.sendFrame s port sub l).pending = s.pending ∧ (State.sendFrame s port sub l).clk = s.clk ∧
    (State.sendFrame s port sub l).otp.lcw = s.otp.lcw := by
  simp [State.sendFrame]

@[simp] theorem State.rxCount_frame (s : State) (n : Nat) (f : Frm) (a : Nat) (drop : Bool) (g : Sa → Sa) :
    (State.rxCount s n f a drop g).pending = s.pending ∧ (State.rxCount s n f a drop g).clk = s.clk ∧
    (State.rxCount s n f a drop g).otp.lcw = s.otp.lcw := by
  (simp [State.rxCount, apply_ite State.pending, apply_ite State.clk, apply_ite State.otp, apply_ite Otp.lcw]; done)

@[simp] theorem State.egressRx_frame (s : State) (n : Nat) (f : Frm) (a i : Nat) (pn : W64) (crypt : Bool) :
    (State.egressRx s n f a i pn crypt).pending = s.pending ∧ (State.egressRx s n f a i pn crypt).clk = s.clk ∧
    (State.egressRx s n f a i pn crypt).otp.lcw = s.otp.lcw := by
  unfold State.egressRx
  dsimp only
  repeat' split
  all_goals simp

@[simp] theorem State.egressFrm_frame (s : State) (n d : Nat) (f : Frm) :
    (State.egressFrm s n d f).pending = s.pending ∧ (State.egressFrm s n d f).clk = s.clk ∧
    (State.egressFrm s n d f).otp.lcw = s.otp.lcw := by
  unfold State.egressFrm
  dsimp only
  repeat' split
  all_goals simp

@[simp] theorem egressLoop_frame (n d : Nat) (x0 : Nat) (s : State) :
    (egressLoop n d x0 s).pending = s.pending ∧ (egressLoop n d x0 s).clk = s.clk ∧
    (egressLoop n d x0 s).otp.lcw = s.otp.lcw := by
  (fun_induction egressLoop n d x0 s <;> simp_all; done)

@[simp] theorem State.runFlow_frame (s : State) (n d : Nat) :
    (State.runFlow s n d).pending = s.pending ∧ (State.runFlow s n d).clk = s.clk ∧
    (State.runFlow s n d).otp.lcw = s.otp.lcw := by
  simp [State.runFlow]

@[simp] theorem State.admitFrame_frame (s : State) (n d : Nat) (f : Frm) :
    (State.admitFrame s n d f).pending = s.pending ∧ (State.admitFrame s n d f).clk = s.clk ∧
    (State.admitFrame s n d f).otp.lcw = s.otp.lcw := by
  simp [State.admitFrame]

@[simp] theorem State.takePn_frame (s : State) (a i : Nat) :
    (State.takePn s a i).pending = s.pending ∧ (State.takePn s a i).clk = s.clk ∧
    (State.takePn s a i).otp.lcw = s.otp.lcw := by
  unfold State.takePn
  dsimp only
  repeat' split
  all_goals simp

@[simp] theorem State.pnOut_frame (s : State) (a i : Nat) :
    (State.pnOut s a i).pending = s.pending ∧ (State.pnOut s a i).clk = s.clk ∧
    (State.pnOut s a i).otp.lcw = s.otp.lcw := by
  unfold State.pnOut
  dsimp only
  repeat' split
  all_goals simp

@[simp] theorem State.classifyTx_frame (s : State) (n sub : Nat) (l : List Byte) :
    (State.classifyTx s n sub l).pending = s.pending ∧ (State.classifyTx s n sub l).clk = s.clk ∧
    (State.classifyTx s n sub l).otp.lcw = s.otp.lcw := by
  unfold State.classifyTx
  dsimp only
  repeat' split
  all_goals simp

@[simp] theorem State.classifySec_frame (s : State) (n sub : Nat) (l : List Byte) :
    (s.classifySec n sub l).pending = s.pending ∧ (s.classifySec n sub l).clk = s.clk ∧
    (s.classifySec n sub l).otp.lcw = s.otp.lcw := by
  unfold State.classifySec
  dsimp only
  repeat' split
  all_goals simp

@[simp] theorem State.classifyEsp_frame (s : State) (n sub : Nat) (l : List Byte) :
    (State.classifyEsp s n sub l).pending = s.pending ∧ (State.classifyEsp s n sub l).clk = s.clk ∧
    (State.classifyEsp s n sub l).otp.lcw = s.otp.lcw := by
  unfold State.classifyEsp
  dsimp only
  repeat' split
  all_goals simp

@[simp] theorem State.macControl_frame (s : State) (n sub : Nat) (l : List Byte) :
    (State.macControl s n sub l).pending = s.pending ∧ (State.macControl s n sub l).clk = s.clk ∧
    (State.macControl s n sub l).otp.lcw = s.otp.lcw := by
  simp [State.macControl]

@[simp] theorem State.rxFrame_frame (s : State) (n d sub corr unc : Nat) (f : Frame) (classify : State → State)
    (hclassify : ∀ y0, (classify y0).pending = y0.pending ∧ (classify y0).clk = y0.clk ∧
    (classify y0).otp.lcw = y0.otp.lcw) :
    (State.rxFrame s n d sub corr unc f classify).pending = s.pending ∧
    (State.rxFrame s n d sub corr unc f classify).clk = s.clk ∧
    (State.rxFrame s n d sub corr unc f classify).otp.lcw = s.otp.lcw := by
  unfold State.rxFrame
  dsimp only
  repeat' split
  all_goals simp [hclassify]

theorem execHostFrameRx_frame (n sub corr unc : Nat) (f : Frame) (s : State) {s' : State}
    (h : execHostFrameRx n sub corr unc f s = .next s') :
    s'.pending = s.pending ∧ s'.clk = s.clk ∧ s'.otp.lcw = s.otp.lcw := by
  rw [execHostFrameRx, Host.Outcome.next.injEq] at h
  subst h
  simp

theorem execLineFrameRx_frame (n sub corr unc : Nat) (f : Frame) (s : State) {s' : State}
    (h : execLineFrameRx n sub corr unc f s = .next s') : s'.pending = s.pending ∧ s'.clk = s.clk ∧
    s'.otp.lcw = s.otp.lcw := by
  rw [execLineFrameRx, Host.Outcome.next.injEq] at h
  subst h
  apply State.rxFrame_frame
  intro x
  split <;> simp

theorem execRenderFrameDone_frame (e : Nat) (s : State) {s' : State} (h : execRenderFrameDone e s = .next s') :
    s'.pending = s.pending ∧ s'.clk = s.clk ∧ s'.otp.lcw = s.otp.lcw := by
  unfold execRenderFrameDone at h
  split at h <;> (rw [Host.Outcome.next.injEq] at h; subst h; simp)

theorem execPauseRefresh_frame (n sub : Nat) (s : State) {s' : State} (h : execPauseRefresh n sub s = .next s') :
    s'.pending = s.pending ∧ s'.clk = s.clk ∧ s'.otp.lcw = s.otp.lcw := by
  unfold execPauseRefresh at h
  dsimp only at h
  repeat' split at h
  all_goals (rw [Host.Outcome.next.injEq] at h; subst h; simp)

theorem execPauseExpiry_frame (n sub : Nat) (prios : Byte) (s : State) {s' : State}
    (h : execPauseExpiry n sub prios s = .next s') :
    s'.pending = s.pending ∧ s'.clk = s.clk ∧ s'.otp.lcw = s.otp.lcw := by
  unfold execPauseExpiry at h
  split at h <;> (rw [Host.Outcome.next.injEq] at h; subst h; simp)

theorem execOverlapTimer_frame (a i : Nat) (s : State) {s' : State} (h : execOverlapTimer a i s = .next s') :
    s'.pending = s.pending ∧ s'.clk = s.clk ∧ s'.otp.lcw = s.otp.lcw := by
  unfold execOverlapTimer at h
  dsimp only at h
  repeat' split at h
  all_goals (rw [Host.Outcome.next.injEq] at h; subst h; simp)

theorem execDrainTimer_frame (dir a i : Nat) (s : State) {s' : State} (h : execDrainTimer dir a i s = .next s') :
    s'.pending = s.pending ∧ s'.clk = s.clk ∧ s'.otp.lcw = s.otp.lcw := by
  unfold execDrainTimer at h
  dsimp only at h
  repeat' split at h
  all_goals (rw [Host.Outcome.next.injEq] at h; subst h; simp)

@[simp] theorem State.portChange_frame (s old : State) (port : Nat) :
    (State.portChange s old port).pending = s.pending ∧ (State.portChange s old port).clk = s.clk ∧
    (State.portChange s old port).otp.lcw = s.otp.lcw := by
  simp [State.portChange]

@[simp] theorem answerRecal_frame (port sub : Nat) (x0 : List (Nat × W32 × Nat × Nat)) (s : State) :
    (answerRecal port sub x0 s).pending = s.pending ∧ (answerRecal port sub x0 s).clk = s.clk ∧
    (answerRecal port sub x0 s).otp.lcw = s.otp.lcw := by
  (fun_induction answerRecal port sub x0 s <;> grind [State.answerPf_frame])

theorem execPortUp_frame (port sub : Nat) (s : State) {s' : State} (h : execPortUp port sub s = .next s') :
    s'.pending = s.pending ∧ s'.clk = s.clk ∧ s'.otp.lcw = s.otp.lcw := by
  unfold execPortUp at h
  split at h <;> (rw [Host.Outcome.next.injEq] at h; subst h; simp)

theorem execPortLockLoss_frame (port sub : Nat) (fec : Bool) (s : State) {s' : State}
    (h : execPortLockLoss port sub fec s = .next s') :
    s'.pending = s.pending ∧ s'.clk = s.clk ∧ s'.otp.lcw = s.otp.lcw := by
  unfold execPortLockLoss at h
  dsimp only at h
  repeat' split at h
  all_goals (rw [Host.Outcome.next.injEq] at h; subst h; simp)

theorem execRemoteFault_frame (port sub : Nat) (s : State) {s' : State} (h : execRemoteFault port sub s = .next s') :
    s'.pending = s.pending ∧ s'.clk = s.clk ∧ s'.otp.lcw = s.otp.lcw := by
  unfold execRemoteFault at h
  split at h <;> (rw [Host.Outcome.next.injEq] at h; subst h; simp)

@[simp] theorem State.endTakeover_frame (s : State) (u : Nat) :
    (State.endTakeover s u).pending = s.pending ∧ (State.endTakeover s u).clk = s.clk ∧
    (State.endTakeover s u).otp.lcw = s.otp.lcw := by
  unfold State.endTakeover
  split <;> simp

theorem execRenderTakeover_frame (u : Nat) (s : State) {s' : State} (h : execRenderTakeover u s = .next s') :
    s'.pending = s.pending ∧ s'.clk = s.clk ∧ s'.otp.lcw = s.otp.lcw := by
  unfold execRenderTakeover at h
  dsimp only at h
  repeat' split at h
  all_goals (rw [Host.Outcome.next.injEq] at h; subst h; simp)

/-! ## Machine/Lath.lean -/

@[simp] theorem State.startDrain_frame (s : State) (u : Nat) :
    (State.startDrain s u).pending = s.pending ∧ (State.startDrain s u).clk = s.clk ∧
    (State.startDrain s u).otp.lcw = s.otp.lcw := by
  unfold State.startDrain
  dsimp only
  repeat' split
  all_goals simp

@[simp] theorem State.backInline_frame (s : State) (u : Nat) :
    (State.backInline s u).pending = s.pending ∧ (State.backInline s u).clk = s.clk ∧
    (State.backInline s u).otp.lcw = s.otp.lcw := by
  unfold State.backInline
  dsimp only
  repeat' split
  all_goals simp

@[simp] theorem State.endDrain_frame (s : State) (u : Nat) :
    (State.endDrain s u).pending = s.pending ∧ (State.endDrain s u).clk = s.clk ∧
    (State.endDrain s u).otp.lcw = s.otp.lcw := by
  unfold State.endDrain
  dsimp only
  repeat' split
  all_goals simp

@[simp] theorem serveTests_frame (x0 : List TestEnt) (s : State) :
    (serveTests x0 s).pending = s.pending ∧ (serveTests x0 s).clk = s.clk ∧
    (serveTests x0 s).otp.lcw = s.otp.lcw := by
  (fun_induction serveTests x0 s <;> grind [State.startDrain_frame])

@[simp] theorem State.serveQueue_frame (s : State) :
    (State.serveQueue s).pending = s.pending ∧ (State.serveQueue s).clk = s.clk ∧
    (State.serveQueue s).otp.lcw = s.otp.lcw := by
  unfold State.serveQueue
  split <;> simp

@[simp] theorem State.dropActive_frame (s : State) (u : Nat) :
    (State.dropActive s u).pending = s.pending ∧ (State.dropActive s u).clk = s.clk ∧
    (State.dropActive s u).otp.lcw = s.otp.lcw := by
  simp [State.dropActive]

@[simp] theorem loadLoop_frame (x0 : Nat) (s : State) :
    (loadLoop x0 s).pending = s.pending ∧ (loadLoop x0 s).clk = s.clk ∧ (loadLoop x0 s).otp.lcw = s.otp.lcw := by
  (fun_induction loadLoop x0 s <;> grind [State.serveQueue_frame, State.answerPf_frame, State.updLath_frame])

@[simp] theorem State.loadPutty_frame (s : State) (p : Putty) (wait : Option (Nat × W32)) :
    (State.loadPutty s p wait).pending = s.pending ∧ (State.loadPutty s p wait).clk = s.clk ∧
    (State.loadPutty s p wait).otp.lcw = s.otp.lcw := by
  simp [State.loadPutty]

@[simp] theorem State.patchFault_frame (s : State) :
    (State.patchFault s).pending = s.pending ∧ (State.patchFault s).clk = s.clk ∧
    (State.patchFault s).otp.lcw = s.otp.lcw := by
  unfold State.patchFault
  dsimp only
  repeat' split
  all_goals simp

@[simp] theorem State.engCause_frame (s : State) (n b : Nat) :
    (State.engCause s n b).pending = s.pending ∧ (State.engCause s n b).clk = s.clk ∧
    (State.engCause s n b).otp.lcw = s.otp.lcw := by
  unfold State.engCause
  split <;> simp

@[simp] theorem State.beginLath_frame (s : State) (j : Job) :
    (State.beginLath s j).pending = s.pending ∧ (State.beginLath s j).clk = s.clk ∧
    (State.beginLath s j).otp.lcw = s.otp.lcw := by
  simp [State.beginLath]

theorem execEngineWipeDone_frame (hawk : Bool) (n : Nat) (s : State) {s' : State}
    (h : execEngineWipeDone hawk n s = .next s') :
    s'.pending = s.pending ∧ s'.clk = s.clk ∧ s'.otp.lcw = s.otp.lcw := by
  unfold execEngineWipeDone at h
  repeat' split at h
  all_goals (rw [Host.Outcome.next.injEq] at h; subst h; simp)

theorem execPreemptRequest_frame (n : Nat) (s : State) {s' : State} (h : execPreemptRequest n s = .next s') :
    s'.pending = s.pending ∧ s'.clk = s.clk ∧ s'.otp.lcw = s.otp.lcw := by
  unfold execPreemptRequest at h
  split at h <;> (rw [Host.Outcome.next.injEq] at h; subst h; simp)

@[simp] theorem State.suspend_frame (s : State) (n : Nat) (j : Job) :
    (State.suspend s n j).pending = s.pending ∧ (State.suspend s n j).clk = s.clk ∧
    (State.suspend s n j).otp.lcw = s.otp.lcw := by
  simp [State.suspend]

theorem execJobResume_frame (n : Nat) (s : State) {s' : State} (h : execJobResume n s = .next s') :
    s'.pending = s.pending ∧ s'.clk = s.clk ∧ s'.otp.lcw = s.otp.lcw := by
  unfold execJobResume at h
  repeat' split at h
  all_goals (rw [Host.Outcome.next.injEq] at h; subst h; simp)

@[simp] theorem State.halt_frame (s : State) (n : Nat) (j : Job) :
    (State.halt s n j).pending = s.pending ∧ (State.halt s n j).clk = s.clk ∧
    (State.halt s n j).otp.lcw = s.otp.lcw := by
  (grind [State.halt, State.failJob_frame, State.resetLath_frame, State.endJob_frame, State.patchFault_frame, State.assign_frame, State.allocKeys_frame])

/-! ## Machine/Operands.lean -/

theorem wordRow_frame (n : Nat) (s : State) (f : Lath → Job → State)
    (hf : ∀ e j, (f e j).pending = s.pending ∧ (f e j).clk = s.clk ∧ (f e j).otp.lcw = s.otp.lcw) {s' : State}
    (h : wordRow n s f = .next s') : s'.pending = s.pending ∧ s'.clk = s.clk ∧ s'.otp.lcw = s.otp.lcw := by
  unfold wordRow at h
  repeat' split at h
  · cases h
  all_goals (rw [Host.Outcome.next.injEq] at h; subst h)
  · exact hf _ _
  · simp
  · simp

theorem slotRow_frame (n : Nat) (s : State) (f : Lath → Job → State)
    (hf : ∀ e j, (f e j).pending = s.pending ∧ (f e j).clk = s.clk ∧ (f e j).otp.lcw = s.otp.lcw) {s' : State}
    (h : slotRow n s f = .next s') : s'.pending = s.pending ∧ s'.clk = s.clk ∧ s'.otp.lcw = s.otp.lcw := by
  refine wordRow_frame n s _ (fun e j => ?_) h
  split
  · simp
  · exact hf e j

@[simp] theorem State.stage_frame (s : State) (n : Nat) (g : Stage → Stage) :
    (State.stage s n g).pending = s.pending ∧ (State.stage s n g).clk = s.clk ∧
    (State.stage s n g).otp.lcw = s.otp.lcw := by
  simp [State.stage]

@[simp] theorem State.waitSlot_frame (s : State) (n : Nat) (j : Job) :
    (State.waitSlot s n j).pending = s.pending ∧ (State.waitSlot s n j).clk = s.clk ∧
    (State.waitSlot s n j).otp.lcw = s.otp.lcw := by
  unfold State.waitSlot
  split <;> simp

@[simp] theorem State.stageX_frame (s : State) (n r : Nat) (v : W64) :
    (State.stageX s n r v).pending = s.pending ∧ (State.stageX s n r v).clk = s.clk ∧
    (State.stageX s n r v).otp.lcw = s.otp.lcw := by
  unfold State.stageX
  split <;> simp

@[simp] theorem State.stageV_frame (s : State) (n r : Nat) (l : List W32) :
    (State.stageV s n r l).pending = s.pending ∧ (State.stageV s n r l).clk = s.clk ∧
    (State.stageV s n r l).otp.lcw = s.otp.lcw := by
  simp [State.stageV]

theorem vecRowJ_frame (n : Nat) (reads : List Nat) (ok : Lath → Bool) (s : State) (f : Lath → Job → State)
    (hf : ∀ e j, (f e j).pending = s.pending ∧ (f e j).clk = s.clk ∧ (f e j).otp.lcw = s.otp.lcw) {s' : State}
    (h : vecRowJ n reads ok s f = .next s') : s'.pending = s.pending ∧ s'.clk = s.clk ∧ s'.otp.lcw = s.otp.lcw := by
  refine slotRow_frame n s _ (fun e j => ?_) h
  repeat' split
  · simp
  · simp
  · simp
  · exact hf e j

theorem vecRow_frame (n : Nat) (reads : List Nat) (ok : Lath → Bool) (s : State) (f : Lath → State)
    (hf : ∀ e, (f e).pending = s.pending ∧ (f e).clk = s.clk ∧ (f e).otp.lcw = s.otp.lcw) {s' : State}
    (h : vecRow n reads ok s f = .next s') : s'.pending = s.pending ∧ s'.clk = s.clk ∧ s'.otp.lcw = s.otp.lcw :=
  vecRowJ_frame n reads ok s _ (fun e _ => hf e) h

@[simp] theorem State.elemOp_frame (s : State) (n : Nat) (e : Lath) (k d : Nat) (g : Nat → W32) :
    (State.elemOp s n e k d g).pending = s.pending ∧ (State.elemOp s n e k d g).clk = s.clk ∧
    (State.elemOp s n e k d g).otp.lcw = s.otp.lcw := by
  unfold State.elemOp
  split <;> simp

@[simp] theorem State.localWrite1_frame (s : State) (n a : Nat) (b : Byte) :
    (State.localWrite1 s n a b).pending = s.pending ∧ (State.localWrite1 s n a b).clk = s.clk ∧
    (State.localWrite1 s n a b).otp.lcw = s.otp.lcw := by
  unfold State.localWrite1
  split <;> simp

@[simp] theorem localWrite_frame (n a : Nat) (x0 : List Byte) (s : State) :
    (localWrite n a x0 s).pending = s.pending ∧ (localWrite n a x0 s).clk = s.clk ∧
    (localWrite n a x0 s).otp.lcw = s.otp.lcw := by
  (fun_induction localWrite n a x0 s <;> simp_all; done)

@[simp] theorem State.drawWords_frame (s : State) (g k : Nat) :
    (State.drawWords s g k).2.pending = s.pending ∧ (State.drawWords s g k).2.clk = s.clk ∧
    (State.drawWords s g k).2.otp.lcw = s.otp.lcw := by
  induction k generalizing s with
  | zero => simp [State.drawWords]
  | succ n ih => simp [State.drawWords, ih]

theorem State.maskDraw_frame (s : State) (n : Nat) (e : Lath) (j : Job) (c : Nat) (f : List W32 → State → State)
    (hf : ∀ ws x, (f ws x).pending = x.pending ∧ (f ws x).clk = x.clk ∧ (f ws x).otp.lcw = x.otp.lcw) :
    (s.maskDraw n e j c f).pending = s.pending ∧ (s.maskDraw n e j c f).clk = s.clk ∧
    (s.maskDraw n e j c f).otp.lcw = s.otp.lcw := by
  unfold State.maskDraw
  repeat' split
  · exact hf _ _
  all_goals (try (simp; done))
  rename_i ws s1 e
  have k := State.drawWords_frame s (maskGenOf n) c
  rw [e] at k
  have g := hf (words32 ws) ((s1.updGen (maskGenOf n) fun g => g.unbuffer c).tenures (n / 4) (n % 4) 7 c)
  simp only [State.tenures_frame, State.updGen_frame] at g
  exact ⟨g.1.trans k.1, g.2.1.trans k.2.1, g.2.2.trans k.2.2⟩

/-! ## Machine/Flags.lean -/

@[simp] theorem State.stageF_frame (s : State) (n : Nat) (f : FlagSet) :
    (State.stageF s n f).pending = s.pending ∧ (State.stageF s n f).clk = s.clk ∧
    (State.stageF s n f).otp.lcw = s.otp.lcw := by
  simp [State.stageF]

/-! ## Machine/Scalar.lean -/

theorem seqRow_frame (n : Nat) (safe : Bool) (s : State) (f : Lath → Job → State → State)
    (hf : ∀ e j x, (f e j x).pending = x.pending ∧ (f e j x).clk = x.clk ∧ (f e j x).otp.lcw = x.otp.lcw) {s' : State}
    (h : seqRow n safe s f = .next s') : s'.pending = s.pending ∧ s'.clk = s.clk ∧ s'.otp.lcw = s.otp.lcw := by
  refine wordRow_frame n s _ (fun e j => ?_) h
  dsimp only
  repeat' split
  · simp
  · simp
  · simp
  · have g := hf ((((s.updLath n (fun x => x.issue safe)).updLath n Lath.commit).lath n)) j
      ((s.updLath n (fun x => x.issue safe)).updLath n Lath.commit)
    simpa using g

@[simp] theorem State.goto_frame (s : State) (n : Nat) (a : UAddr) :
    (State.goto s n a).pending = s.pending ∧ (State.goto s n a).clk = s.clk ∧
    (State.goto s n a).otp.lcw = s.otp.lcw := by
  unfold State.goto
  dsimp only
  repeat' split
  all_goals simp

theorem execMSeq_frame (n : Nat) (next : BitVec 14) (s : State) {s' : State} (h : execMSeq n next s = .next s') :
    s'.pending = s.pending ∧ s'.clk = s.clk ∧ s'.otp.lcw = s.otp.lcw := by
  unfold execMSeq at h
  exact seqRow_frame _ _ _ _ (by intros; simp) h

theorem execMBranch_frame (n : Nat) (csel : BitVec 6) (next : BitVec 14) (s : State) {s' : State}
    (h : execMBranch n csel next s = .next s') :
    s'.pending = s.pending ∧ s'.clk = s.clk ∧ s'.otp.lcw = s.otp.lcw := by
  unfold execMBranch at h
  exact seqRow_frame _ _ _ _ (by intros; (repeat' split) <;> simp) h

theorem execMCall_frame (n : Nat) (next : BitVec 14) (s : State) {s' : State} (h : execMCall n next s = .next s') :
    s'.pending = s.pending ∧ s'.clk = s.clk ∧ s'.otp.lcw = s.otp.lcw := by
  unfold execMCall at h
  exact seqRow_frame _ _ _ _ (by intros; (repeat' split) <;> simp) h

theorem execMReturn_frame (n : Nat) (s : State) {s' : State} (h : execMReturn n s = .next s') :
    s'.pending = s.pending ∧ s'.clk = s.clk ∧ s'.otp.lcw = s.otp.lcw := by
  unfold execMReturn at h
  exact seqRow_frame _ _ _ _ (by intros; (repeat' split) <;> simp) h

theorem execMSafe_frame (n : Nat) (next : BitVec 14) (s : State) {s' : State} (h : execMSafe n next s = .next s') :
    s'.pending = s.pending ∧ s'.clk = s.clk ∧ s'.otp.lcw = s.otp.lcw := by
  (unfold execMSafe at h; (try dsimp only at h); (repeat' split at h) <;>
    first | exact seqRow_frame _ _ _ _ (by intros; (try dsimp only); (repeat' split) <;> first | (simp; done) | (simp_all; done) | grind [State.suspend_frame, seqRow_frame, State.endJob_frame, State.goto_frame]) h)

theorem execMHalt_frame (n : Nat) (s : State) {s' : State} (h : execMHalt n s = .next s') :
    s'.pending = s.pending ∧ s'.clk = s.clk ∧ s'.otp.lcw = s.otp.lcw := by
  unfold execMHalt at h
  exact seqRow_frame _ _ _ _ (by intros; simp) h

theorem execMDispatch_frame (n : Nat) (reg : BitVec 5) (next : BitVec 14) (s : State) {s' : State}
    (h : execMDispatch n reg next s = .next s') :
    s'.pending = s.pending ∧ s'.clk = s.clk ∧ s'.otp.lcw = s.otp.lcw := by
  unfold execMDispatch at h
  exact seqRow_frame _ _ _ _ (by intros; simp) h

theorem execMPjump_frame (n : Nat) (next : BitVec 14) (s : State) {s' : State} (h : execMPjump n next s = .next s') :
    s'.pending = s.pending ∧ s'.clk = s.clk ∧ s'.otp.lcw = s.otp.lcw := by
  unfold execMPjump at h
  exact seqRow_frame _ _ _ _ (by intros; simp) h

theorem execMRjump_frame (n : Nat) (next : BitVec 14) (s : State) {s' : State} (h : execMRjump n next s = .next s') :
    s'.pending = s.pending ∧ s'.clk = s.clk ∧ s'.otp.lcw = s.otp.lcw := by
  unfold execMRjump at h
  exact seqRow_frame _ _ _ _ (by intros; simp) h

theorem scalarRow_frame (n : Nat) (rd : BitVec 5) (s : State) (f : Lath → W64 × FlagSet) {s' : State}
    (h : scalarRow n rd s f = .next s') : s'.pending = s.pending ∧ s'.clk = s.clk ∧ s'.otp.lcw = s.otp.lcw :=
  slotRow_frame n s _ (fun e j => by simp) h

theorem regRow_frame (n : Nat) (rd rs1 rs2 : BitVec 5) (s : State) (f : W64 → W64 → W64 × FlagSet) {s' : State}
    (h : regRow n rd rs1 rs2 s f = .next s') :
    s'.pending = s.pending ∧ s'.clk = s.clk ∧ s'.otp.lcw = s.otp.lcw := by
  unfold regRow at h
  exact scalarRow_frame _ _ _ _  h

theorem immRow_frame (n : Nat) (rd rs1 : BitVec 5) (imm : W64) (s : State) (f : W64 → W64 → W64 × FlagSet)
    {s' : State} (h : immRow n rd rs1 imm s f = .next s') :
    s'.pending = s.pending ∧ s'.clk = s.clk ∧ s'.otp.lcw = s.otp.lcw := by
  unfold immRow at h
  exact scalarRow_frame _ _ _ _  h

theorem execMAdd_frame (n : Nat) (rd rs1 rs2 : BitVec 5) (s : State) {s' : State}
    (h : execMAdd n rd rs1 rs2 s = .next s') :
    s'.pending = s.pending ∧ s'.clk = s.clk ∧ s'.otp.lcw = s.otp.lcw := by
  unfold execMAdd at h
  exact regRow_frame _ _ _ _ _ _ h

theorem execMSub_frame (n : Nat) (rd rs1 rs2 : BitVec 5) (s : State) {s' : State}
    (h : execMSub n rd rs1 rs2 s = .next s') :
    s'.pending = s.pending ∧ s'.clk = s.clk ∧ s'.otp.lcw = s.otp.lcw := by
  unfold execMSub at h
  exact regRow_frame _ _ _ _ _ _ h

theorem execMAnd_frame (n : Nat) (rd rs1 rs2 : BitVec 5) (s : State) {s' : State}
    (h : execMAnd n rd rs1 rs2 s = .next s') :
    s'.pending = s.pending ∧ s'.clk = s.clk ∧ s'.otp.lcw = s.otp.lcw := by
  unfold execMAnd at h
  exact regRow_frame _ _ _ _ _ _ h

theorem execMOr_frame (n : Nat) (rd rs1 rs2 : BitVec 5) (s : State) {s' : State}
    (h : execMOr n rd rs1 rs2 s = .next s') :
    s'.pending = s.pending ∧ s'.clk = s.clk ∧ s'.otp.lcw = s.otp.lcw := by
  unfold execMOr at h
  exact regRow_frame _ _ _ _ _ _ h

theorem execMXor_frame (n : Nat) (rd rs1 rs2 : BitVec 5) (s : State) {s' : State}
    (h : execMXor n rd rs1 rs2 s = .next s') :
    s'.pending = s.pending ∧ s'.clk = s.clk ∧ s'.otp.lcw = s.otp.lcw := by
  unfold execMXor at h
  exact regRow_frame _ _ _ _ _ _ h

theorem execMSll_frame (n : Nat) (rd rs1 rs2 : BitVec 5) (s : State) {s' : State}
    (h : execMSll n rd rs1 rs2 s = .next s') :
    s'.pending = s.pending ∧ s'.clk = s.clk ∧ s'.otp.lcw = s.otp.lcw := by
  unfold execMSll at h
  exact regRow_frame _ _ _ _ _ _ h

theorem execMSrl_frame (n : Nat) (rd rs1 rs2 : BitVec 5) (s : State) {s' : State}
    (h : execMSrl n rd rs1 rs2 s = .next s') :
    s'.pending = s.pending ∧ s'.clk = s.clk ∧ s'.otp.lcw = s.otp.lcw := by
  unfold execMSrl at h
  exact regRow_frame _ _ _ _ _ _ h

theorem execMSra_frame (n : Nat) (rd rs1 rs2 : BitVec 5) (s : State) {s' : State}
    (h : execMSra n rd rs1 rs2 s = .next s') :
    s'.pending = s.pending ∧ s'.clk = s.clk ∧ s'.otp.lcw = s.otp.lcw := by
  unfold execMSra at h
  exact regRow_frame _ _ _ _ _ _ h

theorem execMMul_frame (n : Nat) (rd rs1 rs2 : BitVec 5) (s : State) {s' : State}
    (h : execMMul n rd rs1 rs2 s = .next s') :
    s'.pending = s.pending ∧ s'.clk = s.clk ∧ s'.otp.lcw = s.otp.lcw := by
  unfold execMMul at h
  exact regRow_frame _ _ _ _ _ _ h

theorem execMMulhu_frame (n : Nat) (rd rs1 rs2 : BitVec 5) (s : State) {s' : State}
    (h : execMMulhu n rd rs1 rs2 s = .next s') :
    s'.pending = s.pending ∧ s'.clk = s.clk ∧ s'.otp.lcw = s.otp.lcw := by
  unfold execMMulhu at h
  exact regRow_frame _ _ _ _ _ _ h

theorem execMAddi_frame (n : Nat) (rd rs1 : BitVec 5) (imm : W16) (s : State) {s' : State}
    (h : execMAddi n rd rs1 imm s = .next s') :
    s'.pending = s.pending ∧ s'.clk = s.clk ∧ s'.otp.lcw = s.otp.lcw := by
  unfold execMAddi at h
  exact immRow_frame _ _ _ _ _ _ h

theorem execMAndi_frame (n : Nat) (rd rs1 : BitVec 5) (imm : W16) (s : State) {s' : State}
    (h : execMAndi n rd rs1 imm s = .next s') :
    s'.pending = s.pending ∧ s'.clk = s.clk ∧ s'.otp.lcw = s.otp.lcw := by
  unfold execMAndi at h
  exact immRow_frame _ _ _ _ _ _ h

theorem execMOri_frame (n : Nat) (rd rs1 : BitVec 5) (imm : W16) (s : State) {s' : State}
    (h : execMOri n rd rs1 imm s = .next s') :
    s'.pending = s.pending ∧ s'.clk = s.clk ∧ s'.otp.lcw = s.otp.lcw := by
  unfold execMOri at h
  exact immRow_frame _ _ _ _ _ _ h

theorem execMXori_frame (n : Nat) (rd rs1 : BitVec 5) (imm : W16) (s : State) {s' : State}
    (h : execMXori n rd rs1 imm s = .next s') :
    s'.pending = s.pending ∧ s'.clk = s.clk ∧ s'.otp.lcw = s.otp.lcw := by
  unfold execMXori at h
  exact immRow_frame _ _ _ _ _ _ h

theorem execMShi_frame (n : Nat) (rd rs1 : BitVec 5) (mode : BitVec 2) (cnt : BitVec 6) (s : State) {s' : State}
    (h : execMShi n rd rs1 mode cnt s = .next s') :
    s'.pending = s.pending ∧ s'.clk = s.clk ∧ s'.otp.lcw = s.otp.lcw := by
  unfold execMShi at h
  split at h <;> exact slotRow_frame _ _ _ (by intros; (repeat' split) <;> simp) h

theorem execMLui_frame (n : Nat) (rd : BitVec 5) (imm : W16) (s : State) {s' : State}
    (h : execMLui n rd imm s = .next s') :
    s'.pending = s.pending ∧ s'.clk = s.clk ∧ s'.otp.lcw = s.otp.lcw := by
  unfold execMLui at h
  exact scalarRow_frame _ _ _ _  h

theorem execMCmp_frame (n : Nat) (rs1 rs2 : BitVec 5) (s : State) {s' : State} (h : execMCmp n rs1 rs2 s = .next s') :
    s'.pending = s.pending ∧ s'.clk = s.clk ∧ s'.otp.lcw = s.otp.lcw := by
  unfold execMCmp at h
  exact scalarRow_frame _ _ _ _  h

theorem execMCmpi_frame (n : Nat) (rs1 : BitVec 5) (imm : W16) (s : State) {s' : State}
    (h : execMCmpi n rs1 imm s = .next s') :
    s'.pending = s.pending ∧ s'.clk = s.clk ∧ s'.otp.lcw = s.otp.lcw := by
  unfold execMCmpi at h
  exact scalarRow_frame _ _ _ _  h

theorem execMMfs_frame (n : Nat) (rd : BitVec 5) (num : Byte) (s : State) {s' : State}
    (h : execMMfs n rd num s = .next s') :
    s'.pending = s.pending ∧ s'.clk = s.clk ∧ s'.otp.lcw = s.otp.lcw := by
  unfold execMMfs at h
  exact slotRow_frame _ _ _ (by intros; (repeat' split) <;> simp) h

theorem execMMts_frame (n : Nat) (rs1 : BitVec 5) (num : Byte) (s : State) {s' : State}
    (h : execMMts n rs1 num s = .next s') :
    s'.pending = s.pending ∧ s'.clk = s.clk ∧ s'.otp.lcw = s.otp.lcw := by
  unfold execMMts at h
  exact slotRow_frame _ _ _ (by intros; (repeat' split) <;> simp) h

theorem execMSel_frame (n : Nat) (rd rs1 rs2 : BitVec 5) (s : State) {s' : State}
    (h : execMSel n rd rs1 rs2 s = .next s') :
    s'.pending = s.pending ∧ s'.clk = s.clk ∧ s'.otp.lcw = s.otp.lcw := by
  unfold execMSel at h
  exact scalarRow_frame _ _ _ _  h

/-! ## Machine/Vector.lean -/

@[simp] theorem State.shortOp_frame (s : State) (n : Nat) (e : Lath) (v : VSlot) (o : VOp) :
    (State.shortOp s n e v o).pending = s.pending ∧ (State.shortOp s n e v o).clk = s.clk ∧
    (State.shortOp s n e v o).otp.lcw = s.otp.lcw := by
  simp [State.shortOp]

theorem intRow_frame (o : VOp) (n : Nat) (v : VSlot) (s : State) {s' : State} (h : intRow o n v s = .next s') :
    s'.pending = s.pending ∧ s'.clk = s.clk ∧ s'.otp.lcw = s.otp.lcw := by
  unfold intRow at h
  exact vecRow_frame _ _ _ _ _ (by intros; (repeat' split) <;> simp) h

theorem execMVadd_frame (n : Nat) (v : VSlot) (s : State) {s' : State} (h : execMVadd n v s = .next s') :
    s'.pending = s.pending ∧ s'.clk = s.clk ∧ s'.otp.lcw = s.otp.lcw := by
  unfold execMVadd at h
  exact intRow_frame _ _ _ _ h

theorem execMVsub_frame (n : Nat) (v : VSlot) (s : State) {s' : State} (h : execMVsub n v s = .next s') :
    s'.pending = s.pending ∧ s'.clk = s.clk ∧ s'.otp.lcw = s.otp.lcw := by
  unfold execMVsub at h
  exact intRow_frame _ _ _ _ h

theorem execMVand_frame (n : Nat) (v : VSlot) (s : State) {s' : State} (h : execMVand n v s = .next s') :
    s'.pending = s.pending ∧ s'.clk = s.clk ∧ s'.otp.lcw = s.otp.lcw := by
  unfold execMVand at h
  exact intRow_frame _ _ _ _ h

theorem execMVor_frame (n : Nat) (v : VSlot) (s : State) {s' : State} (h : execMVor n v s = .next s') :
    s'.pending = s.pending ∧ s'.clk = s.clk ∧ s'.otp.lcw = s.otp.lcw := by
  unfold execMVor at h
  exact intRow_frame _ _ _ _ h

theorem execMVxor_frame (n : Nat) (v : VSlot) (s : State) {s' : State} (h : execMVxor n v s = .next s') :
    s'.pending = s.pending ∧ s'.clk = s.clk ∧ s'.otp.lcw = s.otp.lcw := by
  unfold execMVxor at h
  exact intRow_frame _ _ _ _ h

theorem execMVsll_frame (n : Nat) (v : VSlot) (s : State) {s' : State} (h : execMVsll n v s = .next s') :
    s'.pending = s.pending ∧ s'.clk = s.clk ∧ s'.otp.lcw = s.otp.lcw := by
  unfold execMVsll at h
  exact intRow_frame _ _ _ _ h

theorem execMVsrl_frame (n : Nat) (v : VSlot) (s : State) {s' : State} (h : execMVsrl n v s = .next s') :
    s'.pending = s.pending ∧ s'.clk = s.clk ∧ s'.otp.lcw = s.otp.lcw := by
  unfold execMVsrl at h
  exact intRow_frame _ _ _ _ h

theorem execMVsra_frame (n : Nat) (v : VSlot) (s : State) {s' : State} (h : execMVsra n v s = .next s') :
    s'.pending = s.pending ∧ s'.clk = s.clk ∧ s'.otp.lcw = s.otp.lcw := by
  unfold execMVsra at h
  exact intRow_frame _ _ _ _ h

theorem execMVmul_frame (n : Nat) (v : VSlot) (s : State) {s' : State} (h : execMVmul n v s = .next s') :
    s'.pending = s.pending ∧ s'.clk = s.clk ∧ s'.otp.lcw = s.otp.lcw := by
  unfold execMVmul at h
  exact intRow_frame _ _ _ _ h

theorem execMVmulhu_frame (n : Nat) (v : VSlot) (s : State) {s' : State} (h : execMVmulhu n v s = .next s') :
    s'.pending = s.pending ∧ s'.clk = s.clk ∧ s'.otp.lcw = s.otp.lcw := by
  unfold execMVmulhu at h
  exact intRow_frame _ _ _ _ h

theorem execMVminu_frame (n : Nat) (v : VSlot) (s : State) {s' : State} (h : execMVminu n v s = .next s') :
    s'.pending = s.pending ∧ s'.clk = s.clk ∧ s'.otp.lcw = s.otp.lcw := by
  unfold execMVminu at h
  exact intRow_frame _ _ _ _ h

theorem execMVmaxu_frame (n : Nat) (v : VSlot) (s : State) {s' : State} (h : execMVmaxu n v s = .next s') :
    s'.pending = s.pending ∧ s'.clk = s.clk ∧ s'.otp.lcw = s.otp.lcw := by
  unfold execMVmaxu at h
  exact intRow_frame _ _ _ _ h

theorem execMVmv_frame (n : Nat) (v : VSlot) (s : State) {s' : State} (h : execMVmv n v s = .next s') :
    s'.pending = s.pending ∧ s'.clk = s.clk ∧ s'.otp.lcw = s.otp.lcw := by
  unfold execMVmv at h
  exact intRow_frame _ _ _ _ h

theorem execMVcmp_frame (n : Nat) (v : VSlot) (s : State) {s' : State} (h : execMVcmp n v s = .next s') :
    s'.pending = s.pending ∧ s'.clk = s.clk ∧ s'.otp.lcw = s.otp.lcw := by
  unfold execMVcmp at h
  exact vecRow_frame _ _ _ _ _ (by intros; (repeat' split) <;> simp) h

theorem execMVclmul_frame (n : Nat) (v : VSlot) (s : State) {s' : State} (h : execMVclmul n v s = .next s') :
    s'.pending = s.pending ∧ s'.clk = s.clk ∧ s'.otp.lcw = s.otp.lcw := by
  unfold execMVclmul at h
  exact vecRow_frame _ _ _ _ _ (by intros; simp) h

theorem modRow_frame (f : Nat → Nat → Nat → Nat) (n : Nat) (v : VSlot) (s : State) {s' : State}
    (h : modRow f n v s = .next s') :
    s'.pending = s.pending ∧ s'.clk = s.clk ∧ s'.otp.lcw = s.otp.lcw := by
  unfold modRow at h
  exact vecRow_frame _ _ _ _ _ (by intros; simp) h

theorem execMVaddq_frame (n : Nat) (v : VSlot) (s : State) {s' : State} (h : execMVaddq n v s = .next s') :
    s'.pending = s.pending ∧ s'.clk = s.clk ∧ s'.otp.lcw = s.otp.lcw := by
  unfold execMVaddq at h
  exact modRow_frame _ _ _ _ h

theorem execMVsubq_frame (n : Nat) (v : VSlot) (s : State) {s' : State} (h : execMVsubq n v s = .next s') :
    s'.pending = s.pending ∧ s'.clk = s.clk ∧ s'.otp.lcw = s.otp.lcw := by
  unfold execMVsubq at h
  exact modRow_frame _ _ _ _ h

theorem execMVmulq_frame (n : Nat) (v : VSlot) (s : State) {s' : State} (h : execMVmulq n v s = .next s') :
    s'.pending = s.pending ∧ s'.clk = s.clk ∧ s'.otp.lcw = s.otp.lcw := by
  unfold execMVmulq at h
  exact modRow_frame _ _ _ _ h

theorem execMVredq_frame (n : Nat) (v : VSlot) (s : State) {s' : State} (h : execMVredq n v s = .next s') :
    s'.pending = s.pending ∧ s'.clk = s.clk ∧ s'.otp.lcw = s.otp.lcw := by
  unfold execMVredq at h
  exact vecRow_frame _ _ _ _ _ (by intros; simp) h

theorem nttRow_frame (inv : Bool) (n : Nat) (v : VSlot) (s : State) {s' : State} (h : nttRow inv n v s = .next s') :
    s'.pending = s.pending ∧ s'.clk = s.clk ∧ s'.otp.lcw = s.otp.lcw := by
  unfold nttRow at h
  exact vecRow_frame _ _ _ _ _ (by intros; simp) h

theorem execMVntt_frame (n : Nat) (v : VSlot) (s : State) {s' : State} (h : execMVntt n v s = .next s') :
    s'.pending = s.pending ∧ s'.clk = s.clk ∧ s'.otp.lcw = s.otp.lcw := by
  unfold execMVntt at h
  exact nttRow_frame _ _ _ _ h

theorem execMVintt_frame (n : Nat) (v : VSlot) (s : State) {s' : State} (h : execMVintt n v s = .next s') :
    s'.pending = s.pending ∧ s'.clk = s.clk ∧ s'.otp.lcw = s.otp.lcw := by
  unfold execMVintt at h
  exact nttRow_frame _ _ _ _ h

theorem execMVtwid_frame (n : Nat) (v : VSlot) (s : State) {s' : State} (h : execMVtwid n v s = .next s') :
    s'.pending = s.pending ∧ s'.clk = s.clk ∧ s'.otp.lcw = s.otp.lcw := by
  unfold execMVtwid at h
  exact vecRow_frame _ _ _ _ _ (by intros; simp) h

theorem execMVbmul_frame (n : Nat) (v : VSlot) (s : State) {s' : State} (h : execMVbmul n v s = .next s') :
    s'.pending = s.pending ∧ s'.clk = s.clk ∧ s'.otp.lcw = s.otp.lcw := by
  unfold execMVbmul at h
  exact vecRow_frame _ _ _ _ _ (by intros; simp) h

theorem execMVcprs_frame (n : Nat) (v : VSlot) (s : State) {s' : State} (h : execMVcprs n v s = .next s') :
    s'.pending = s.pending ∧ s'.clk = s.clk ∧ s'.otp.lcw = s.otp.lcw := by
  unfold execMVcprs at h
  exact vecRow_frame _ _ _ _ _ (by intros; simp) h

theorem execMVdcprs_frame (n : Nat) (v : VSlot) (s : State) {s' : State} (h : execMVdcprs n v s = .next s') :
    s'.pending = s.pending ∧ s'.clk = s.clk ∧ s'.otp.lcw = s.otp.lcw := by
  unfold execMVdcprs at h
  exact vecRow_frame _ _ _ _ _ (by intros; simp) h

theorem execMVunpk_frame (n : Nat) (v : VSlot) (s : State) {s' : State} (h : execMVunpk n v s = .next s') :
    s'.pending = s.pending ∧ s'.clk = s.clk ∧ s'.otp.lcw = s.otp.lcw := by
  unfold execMVunpk at h
  exact vecRow_frame _ _ _ _ _ (by intros; simp) h

theorem execMVpack_frame (n : Nat) (v : VSlot) (s : State) {s' : State} (h : execMVpack n v s = .next s') :
    s'.pending = s.pending ∧ s'.clk = s.clk ∧ s'.otp.lcw = s.otp.lcw := by
  unfold execMVpack at h
  exact vecRow_frame _ _ _ _ _ (by intros; simp) h

theorem execMVcompress_frame (n : Nat) (v : VSlot) (s : State) {s' : State} (h : execMVcompress n v s = .next s') :
    s'.pending = s.pending ∧ s'.clk = s.clk ∧ s'.otp.lcw = s.otp.lcw := by
  unfold execMVcompress at h
  exact vecRow_frame _ _ _ _ _ (by intros; simp) h

theorem execMVpopc_frame (n : Nat) (v : VSlot) (s : State) {s' : State} (h : execMVpopc n v s = .next s') :
    s'.pending = s.pending ∧ s'.clk = s.clk ∧ s'.otp.lcw = s.otp.lcw := by
  unfold execMVpopc at h
  exact vecRow_frame _ _ _ _ _ (by intros; simp) h

theorem execMSetvl_frame (n : Nat) (v : VSlot) (s : State) {s' : State} (h : execMSetvl n v s = .next s') :
    s'.pending = s.pending ∧ s'.clk = s.clk ∧ s'.otp.lcw = s.otp.lcw := by
  unfold execMSetvl at h
  exact slotRow_frame _ _ _ (by intros; (repeat' split) <;> simp) h

theorem execMVmop_frame (n : Nat) (v : VSlot) (s : State) {s' : State} (h : execMVmop n v s = .next s') :
    s'.pending = s.pending ∧ s'.clk = s.clk ∧ s'.otp.lcw = s.otp.lcw := by
  unfold execMVmop at h
  exact vecRow_frame _ _ _ _ _ (by intros; simp) h

theorem execMVmvxv_frame (n : Nat) (v : VSlot) (s : State) {s' : State} (h : execMVmvxv n v s = .next s') :
    s'.pending = s.pending ∧ s'.clk = s.clk ∧ s'.otp.lcw = s.otp.lcw := by
  unfold execMVmvxv at h
  exact vecRow_frame _ _ _ _ _ (by intros; simp) h

theorem execMVmvvx_frame (n : Nat) (v : VSlot) (s : State) {s' : State} (h : execMVmvvx n v s = .next s') :
    s'.pending = s.pending ∧ s'.clk = s.clk ∧ s'.otp.lcw = s.otp.lcw := by
  unfold execMVmvvx at h
  exact vecRow_frame _ _ _ _ _ (by intros; simp) h

theorem execMSmvxs_frame (n : Nat) (v : VSlot) (s : State) {s' : State} (h : execMSmvxs n v s = .next s') :
    s'.pending = s.pending ∧ s'.clk = s.clk ∧ s'.otp.lcw = s.otp.lcw := by
  unfold execMSmvxs at h
  exact vecRow_frame _ _ _ _ _ (by intros; simp) h

theorem execMSmvsx_frame (n : Nat) (v : VSlot) (s : State) {s' : State} (h : execMSmvsx n v s = .next s') :
    s'.pending = s.pending ∧ s'.clk = s.clk ∧ s'.otp.lcw = s.otp.lcw := by
  unfold execMSmvsx at h
  exact vecRow_frame _ _ _ _ _ (by intros; simp) h

theorem execMVslidedn_frame (n : Nat) (v : VSlot) (s : State) {s' : State} (h : execMVslidedn n v s = .next s') :
    s'.pending = s.pending ∧ s'.clk = s.clk ∧ s'.otp.lcw = s.otp.lcw := by
  unfold execMVslidedn at h
  exact vecRow_frame _ _ _ _ _ (by intros; simp) h

theorem execMVslideup_frame (n : Nat) (v : VSlot) (s : State) {s' : State} (h : execMVslideup n v s = .next s') :
    s'.pending = s.pending ∧ s'.clk = s.clk ∧ s'.otp.lcw = s.otp.lcw := by
  unfold execMVslideup at h
  exact vecRow_frame _ _ _ _ _ (by intros; simp) h

theorem execMVred_frame (n : Nat) (v : VSlot) (s : State) {s' : State} (h : execMVred n v s = .next s') :
    s'.pending = s.pending ∧ s'.clk = s.clk ∧ s'.otp.lcw = s.otp.lcw := by
  unfold execMVred at h
  exact vecRow_frame _ _ _ _ _ (by intros; simp) h

theorem execMVperm_frame (n : Nat) (v : VSlot) (s : State) {s' : State} (h : execMVperm n v s = .next s') :
    s'.pending = s.pending ∧ s'.clk = s.clk ∧ s'.otp.lcw = s.otp.lcw := by
  unfold execMVperm at h
  exact vecRow_frame _ _ _ _ _ (by intros; simp) h

theorem binRow_frame (f : Nat → Nat → Nat → Nat) (n : Nat) (v : VSlot) (s : State) {s' : State}
    (h : binRow f n v s = .next s') :
    s'.pending = s.pending ∧ s'.clk = s.clk ∧ s'.otp.lcw = s.otp.lcw := by
  unfold binRow at h
  exact vecRow_frame _ _ _ _ _ (by intros; simp) h

theorem execMVbsll_frame (n : Nat) (v : VSlot) (s : State) {s' : State} (h : execMVbsll n v s = .next s') :
    s'.pending = s.pending ∧ s'.clk = s.clk ∧ s'.otp.lcw = s.otp.lcw := by
  unfold execMVbsll at h
  exact binRow_frame _ _ _ _ h

theorem execMVbsrl_frame (n : Nat) (v : VSlot) (s : State) {s' : State} (h : execMVbsrl n v s = .next s') :
    s'.pending = s.pending ∧ s'.clk = s.clk ∧ s'.otp.lcw = s.otp.lcw := by
  unfold execMVbsrl at h
  exact binRow_frame _ _ _ _ h

theorem execMVbrot_frame (n : Nat) (v : VSlot) (s : State) {s' : State} (h : execMVbrot n v s = .next s') :
    s'.pending = s.pending ∧ s'.clk = s.clk ∧ s'.otp.lcw = s.otp.lcw := by
  unfold execMVbrot at h
  exact binRow_frame _ _ _ _ h

theorem execMVbpopc_frame (n : Nat) (v : VSlot) (s : State) {s' : State} (h : execMVbpopc n v s = .next s') :
    s'.pending = s.pending ∧ s'.clk = s.clk ∧ s'.otp.lcw = s.otp.lcw := by
  unfold execMVbpopc at h
  exact vecRow_frame _ _ _ _ _ (by intros; simp) h

theorem execMVbtrn_frame (n : Nat) (v : VSlot) (s : State) {s' : State} (h : execMVbtrn n v s = .next s') :
    s'.pending = s.pending ∧ s'.clk = s.clk ∧ s'.otp.lcw = s.otp.lcw := by
  unfold execMVbtrn at h
  exact vecRow_frame _ _ _ _ _ (by intros; simp) h

theorem execMVgfmul_frame (n : Nat) (v : VSlot) (s : State) {s' : State} (h : execMVgfmul n v s = .next s') :
    s'.pending = s.pending ∧ s'.clk = s.clk ∧ s'.otp.lcw = s.otp.lcw := by
  unfold execMVgfmul at h
  exact vecRow_frame _ _ _ _ _ (by intros; simp) h

theorem execMVfclr_frame (n : Nat) (v : VSlot) (s : State) {s' : State} (h : execMVfclr n v s = .next s') :
    s'.pending = s.pending ∧ s'.clk = s.clk ∧ s'.otp.lcw = s.otp.lcw := by
  unfold execMVfclr at h
  exact slotRow_frame _ _ _ (by intros; (repeat' split) <;> simp) h

theorem execMVfrd_frame (n : Nat) (v : VSlot) (s : State) {s' : State} (h : execMVfrd n v s = .next s') :
    s'.pending = s.pending ∧ s'.clk = s.clk ∧ s'.otp.lcw = s.otp.lcw := by
  unfold execMVfrd at h
  exact slotRow_frame _ _ _ (by intros; (repeat' split) <;> simp) h

/-! ## Machine/Share.lean -/

@[simp] theorem State.stageG_frame (s : State) (n : Nat) (e : Lath) (r : Nat) (l : List (Nat → W32)) :
    (s.stageG n e r l).pending = s.pending ∧ (s.stageG n e r l).clk = s.clk ∧
    (s.stageG n e r l).otp.lcw = s.otp.lcw := by
  unfold State.stageG; exact foldl_frame _ (by simp) _ _

theorem State.shareDraw_frame (s : State) (n : Nat) (e : Lath) (j : Job) (w : Nat) (f : List W32 → State → State)
    (hf : ∀ ws x, (f ws x).pending = x.pending ∧ (f ws x).clk = x.clk ∧ (f ws x).otp.lcw = x.otp.lcw) :
    (s.shareDraw n e j w f).pending = s.pending ∧ (s.shareDraw n e j w f).clk = s.clk ∧
    (s.shareDraw n e j w f).otp.lcw = s.otp.lcw := by
  unfold State.shareDraw
  exact State.maskDraw_frame _ _ _ _ _ _ (fun ws x => by simp [hf])

theorem shareRow_frame (n : Nat) (v : VSlot) (fnBits : Nat) (dst : Option Nat) (srcs plain : List Nat)
    (extra : Lath → Bool) (w : Nat) (s : State) (f : Lath → List W32 → State → State)
    (hf : ∀ e ws x, (f e ws x).pending = x.pending ∧ (f e ws x).clk = x.clk ∧ (f e ws x).otp.lcw = x.otp.lcw)
    {s' : State}
    (h : shareRow n v fnBits dst srcs plain extra w s f = .next s') :
    s'.pending = s.pending ∧ s'.clk = s.clk ∧ s'.otp.lcw = s.otp.lcw := by
  refine slotRow_frame n s _ (fun e j => ?_) h
  repeat' split
  · simp
  · simp
  · simp
  · exact State.shareDraw_frame _ _ _ _ _ _ (fun ws x => by simp [hf])

theorem shareWise_frame (fnBits : Nat) (pub0 needPub : Bool) (f : Nat → W32 → W32 → W32) (keep : W32 → W32)
    (n : Nat) (v : VSlot) (s : State) {s' : State} (h : shareWise fnBits pub0 needPub f keep n v s = .next s') :
    s'.pending = s.pending ∧ s'.clk = s.clk ∧ s'.otp.lcw = s.otp.lcw := by
  unfold shareWise at h
  exact shareRow_frame _ _ _ _ _ _ _ _ _ _ (by intros; simp) h

theorem execMVaddqS_frame (n : Nat) (v : VSlot) (s : State) {s' : State} (h : execMVaddqS n v s = .next s') :
    s'.pending = s.pending ∧ s'.clk = s.clk ∧ s'.otp.lcw = s.otp.lcw := by
  unfold execMVaddqS at h
  exact shareWise_frame _ _ _ _ _ _ _ _ h

theorem execMVsubqS_frame (n : Nat) (v : VSlot) (s : State) {s' : State} (h : execMVsubqS n v s = .next s') :
    s'.pending = s.pending ∧ s'.clk = s.clk ∧ s'.otp.lcw = s.otp.lcw := by
  unfold execMVsubqS at h
  exact shareWise_frame _ _ _ _ _ _ _ _ h

theorem execMVmulqS_frame (n : Nat) (v : VSlot) (s : State) {s' : State} (h : execMVmulqS n v s = .next s') :
    s'.pending = s.pending ∧ s'.clk = s.clk ∧ s'.otp.lcw = s.otp.lcw := by
  unfold execMVmulqS at h
  exact shareWise_frame _ _ _ _ _ _ _ _ h

theorem execMVxorS_frame (n : Nat) (v : VSlot) (s : State) {s' : State} (h : execMVxorS n v s = .next s') :
    s'.pending = s.pending ∧ s'.clk = s.clk ∧ s'.otp.lcw = s.otp.lcw := by
  unfold execMVxorS at h
  exact shareWise_frame _ _ _ _ _ _ _ _ h

theorem nttShare_frame (inv : Bool) (n : Nat) (v : VSlot) (s : State) {s' : State}
    (h : nttShare inv n v s = .next s') :
    s'.pending = s.pending ∧ s'.clk = s.clk ∧ s'.otp.lcw = s.otp.lcw := by
  unfold nttShare at h
  exact shareRow_frame _ _ _ _ _ _ _ _ _ _ (by intros; simp) h

theorem execMVnttS_frame (n : Nat) (v : VSlot) (s : State) {s' : State} (h : execMVnttS n v s = .next s') :
    s'.pending = s.pending ∧ s'.clk = s.clk ∧ s'.otp.lcw = s.otp.lcw := by
  unfold execMVnttS at h
  exact nttShare_frame _ _ _ _ h

theorem execMVinttS_frame (n : Nat) (v : VSlot) (s : State) {s' : State} (h : execMVinttS n v s = .next s') :
    s'.pending = s.pending ∧ s'.clk = s.clk ∧ s'.otp.lcw = s.otp.lcw := by
  unfold execMVinttS at h
  exact nttShare_frame _ _ _ _ h

theorem execMVbmulS_frame (n : Nat) (v : VSlot) (s : State) {s' : State} (h : execMVbmulS n v s = .next s') :
    s'.pending = s.pending ∧ s'.clk = s.clk ∧ s'.otp.lcw = s.otp.lcw := by
  unfold execMVbmulS at h
  exact shareRow_frame _ _ _ _ _ _ _ _ _ _ (by intros; simp) h

theorem execMVandS_frame (n : Nat) (v : VSlot) (s : State) {s' : State} (h : execMVandS n v s = .next s') :
    s'.pending = s.pending ∧ s'.clk = s.clk ∧ s'.otp.lcw = s.otp.lcw := by
  unfold execMVandS at h
  split at h <;> exact shareRow_frame _ _ _ _ _ _ _ _ _ _ (by intros; (repeat' split) <;> simp) h

theorem execMVshS_frame (n : Nat) (v : VSlot) (s : State) {s' : State} (h : execMVshS n v s = .next s') :
    s'.pending = s.pending ∧ s'.clk = s.clk ∧ s'.otp.lcw = s.otp.lcw := by
  unfold execMVshS at h
  exact shareRow_frame _ _ _ _ _ _ _ _ _ _ (by intros; simp) h

theorem execMVrefS_frame (n : Nat) (v : VSlot) (s : State) {s' : State} (h : execMVrefS n v s = .next s') :
    s'.pending = s.pending ∧ s'.clk = s.clk ∧ s'.otp.lcw = s.otp.lcw := by
  unfold execMVrefS at h
  exact shareRow_frame _ _ _ _ _ _ _ _ _ _ (by intros; simp) h

theorem execMVa2bS_frame (n : Nat) (v : VSlot) (s : State) {s' : State} (h : execMVa2bS n v s = .next s') :
    s'.pending = s.pending ∧ s'.clk = s.clk ∧ s'.otp.lcw = s.otp.lcw := by
  unfold execMVa2bS at h
  exact shareRow_frame _ _ _ _ _ _ _ _ _ _ (by intros; simp) h

theorem execMVb2aS_frame (n : Nat) (v : VSlot) (s : State) {s' : State} (h : execMVb2aS n v s = .next s') :
    s'.pending = s.pending ∧ s'.clk = s.clk ∧ s'.otp.lcw = s.otp.lcw := by
  unfold execMVb2aS at h
  exact shareRow_frame _ _ _ _ _ _ _ _ _ _ (by intros; simp) h

theorem execMVcprsS_frame (n : Nat) (v : VSlot) (s : State) {s' : State} (h : execMVcprsS n v s = .next s') :
    s'.pending = s.pending ∧ s'.clk = s.clk ∧ s'.otp.lcw = s.otp.lcw := by
  unfold execMVcprsS at h
  exact shareRow_frame _ _ _ _ _ _ _ _ _ _ (by intros; simp) h

theorem execMVmeqzS_frame (n : Nat) (v : VSlot) (s : State) {s' : State} (h : execMVmeqzS n v s = .next s') :
    s'.pending = s.pending ∧ s'.clk = s.clk ∧ s'.otp.lcw = s.otp.lcw := by
  unfold execMVmeqzS at h
  exact shareRow_frame _ _ _ _ _ _ _ _ _ _ (by intros; simp) h

theorem execMVrecomb_frame (n : Nat) (v : VSlot) (s : State) {s' : State} (h : execMVrecomb n v s = .next s') :
    s'.pending = s.pending ∧ s'.clk = s.clk ∧ s'.otp.lcw = s.otp.lcw := by
  unfold execMVrecomb at h
  exact shareRow_frame _ _ _ _ _ _ _ _ _ _ (by intros; simp) h

theorem execMVsplit_frame (n : Nat) (v : VSlot) (s : State) {s' : State} (h : execMVsplit n v s = .next s') :
    s'.pending = s.pending ∧ s'.clk = s.clk ∧ s'.otp.lcw = s.otp.lcw := by
  unfold execMVsplit at h
  exact shareRow_frame _ _ _ _ _ _ _ _ _ _ (by intros; simp) h

/-! ## Machine/LathMem.lean -/

@[simp] theorem State.memFault_frame (s : State) (n cause i a : Nat) :
    (State.memFault s n cause i a).pending = s.pending ∧ (State.memFault s n cause i a).clk = s.clk ∧
    (State.memFault s n cause i a).otp.lcw = s.otp.lcw := by
  unfold State.memFault
  split <;> simp

theorem State.withBeats_frame (s : State) (n : Nat) (j : Job) (bs : List Nat) (f : State → State)
    (hf : ∀ x, (f x).pending = x.pending ∧ (f x).clk = x.clk ∧ (f x).otp.lcw = x.otp.lcw) :
    (s.withBeats n j bs f).pending = s.pending ∧ (s.withBeats n j bs f).clk = s.clk ∧
    (s.withBeats n j bs f).otp.lcw = s.otp.lcw := by
  unfold State.withBeats
  split <;> simp [hf]

@[simp] theorem State.vecLoad_frame (s : State) (n : Nat) (e : Lath) (j : Job) (m : MemV) (f : Nat) (ad : Addrs) :
    (s.vecLoad n e j m f ad).pending = s.pending ∧ (s.vecLoad n e j m f ad).clk = s.clk ∧
    (s.vecLoad n e j m f ad).otp.lcw = s.otp.lcw := by
  unfold State.vecLoad
  generalize e.walk false m.ecc ad (e.active m.msk.toNat) = p
  refine State.withBeats_frame _ _ _ _ _ (fun s => ?_)
  have g (y : State) := foldl_frame (fun (x : State) (k : Nat) => x.stageV n (m.vr.toNat + k)
      (overwrite (e.vr (m.vr.toNat + k)) p.1 (fun i => BitVec.ofNat 32 (ofLe (y.localRead n ((ad i).getD k 0) 4)))))
    (by simp) (List.range f) y
  dsimp only
  split <;> split <;> (try simp only [State.memFault_frame, State.stage_frame, true_and]) <;> (try exact ⟨rfl, rfl, rfl⟩) <;>
    (try exact ⟨rfl, rfl⟩) <;> exact g s

@[simp] theorem State.vecStore_frame (s : State) (n : Nat) (e : Lath) (j : Job) (m : MemV) (f : Nat) (ad : Addrs) :
    (s.vecStore n e j m f ad).pending = s.pending ∧ (s.vecStore n e j m f ad).clk = s.clk ∧
    (s.vecStore n e j m f ad).otp.lcw = s.otp.lcw := by
  have k (r : List (List W32)) (x : State) (i : Nat) := foldl_frame (fun (y : State) (k : Nat) =>
    localWrite n ((ad i).getD k 0) (leBytes 4 (elt (r.getD k []) i).toNat) y) (by simp) (List.range f) x
  unfold State.vecStore
  generalize e.walk true m.ecc ad (e.active m.msk.toNat) = p
  refine State.withBeats_frame _ _ _ _ _ (fun s => ?_)
  have g := foldl_frame (fun (x : State) (i : Nat) => (List.range f).foldl (fun y k =>
      localWrite n ((ad i).getD k 0) (leBytes 4 (elt (((List.range f).map (fun k => e.vr (m.vr.toNat + k))).getD k []) i).toNat) y) x)
      (fun x i => k _ x i) p.1 s
  dsimp only
  split
  · simpa using g
  · simpa using g

theorem memRow_frame (n : Nat) (reads : List Nat) (ok : Bool) (s : State) (f : Lath → Job → State)
    (hf : ∀ e j, (f e j).pending = s.pending ∧ (f e j).clk = s.clk ∧ (f e j).otp.lcw = s.otp.lcw) {s' : State}
    (h : memRow n reads ok s f = .next s') : s'.pending = s.pending ∧ s'.clk = s.clk ∧ s'.otp.lcw = s.otp.lcw :=
  vecRowJ_frame n reads _ s f hf h

theorem execMVle_frame (n : Nat) (m : MemV) (s : State) {s' : State} (h : execMVle n m s = .next s') :
    s'.pending = s.pending ∧ s'.clk = s.clk ∧ s'.otp.lcw = s.otp.lcw := by
  unfold execMVle at h
  exact memRow_frame _ _ _ _ _ (by intros; simp) h

theorem execMVse_frame (n : Nat) (m : MemV) (s : State) {s' : State} (h : execMVse n m s = .next s') :
    s'.pending = s.pending ∧ s'.clk = s.clk ∧ s'.otp.lcw = s.otp.lcw := by
  unfold execMVse at h
  exact memRow_frame _ _ _ _ _ (by intros; simp) h

theorem execMVlse_frame (n : Nat) (m : MemV) (s : State) {s' : State} (h : execMVlse n m s = .next s') :
    s'.pending = s.pending ∧ s'.clk = s.clk ∧ s'.otp.lcw = s.otp.lcw := by
  unfold execMVlse at h
  exact memRow_frame _ _ _ _ _ (by intros; simp) h

theorem execMVsse_frame (n : Nat) (m : MemV) (s : State) {s' : State} (h : execMVsse n m s = .next s') :
    s'.pending = s.pending ∧ s'.clk = s.clk ∧ s'.otp.lcw = s.otp.lcw := by
  unfold execMVsse at h
  exact memRow_frame _ _ _ _ _ (by intros; simp) h

theorem execMVlux_frame (n : Nat) (m : MemV) (s : State) {s' : State} (h : execMVlux n m s = .next s') :
    s'.pending = s.pending ∧ s'.clk = s.clk ∧ s'.otp.lcw = s.otp.lcw := by
  unfold execMVlux at h
  exact memRow_frame _ _ _ _ _ (by intros; simp) h

theorem execMVsux_frame (n : Nat) (m : MemV) (s : State) {s' : State} (h : execMVsux n m s = .next s') :
    s'.pending = s.pending ∧ s'.clk = s.clk ∧ s'.otp.lcw = s.otp.lcw := by
  unfold execMVsux at h
  exact memRow_frame _ _ _ _ _ (by intros; simp) h

theorem execMVlseg_frame (n : Nat) (m : MemV) (s : State) {s' : State} (h : execMVlseg n m s = .next s') :
    s'.pending = s.pending ∧ s'.clk = s.clk ∧ s'.otp.lcw = s.otp.lcw := by
  unfold execMVlseg at h
  exact memRow_frame _ _ _ _ _ (by intros; simp) h

theorem execMVsseg_frame (n : Nat) (m : MemV) (s : State) {s' : State} (h : execMVsseg n m s = .next s') :
    s'.pending = s.pending ∧ s'.clk = s.clk ∧ s'.otp.lcw = s.otp.lcw := by
  unfold execMVsseg at h
  exact memRow_frame _ _ _ _ _ (by intros; simp) h

theorem xRow_frame (n : Nat) (m : MemX) (store : Bool) (claim : State → State) (s : State) (f : Lath → State → State)
    (hc : (claim s).pending = s.pending ∧ (claim s).clk = s.clk ∧ (claim s).otp.lcw = s.otp.lcw)
    (hf : ∀ e x, (f e x).pending = x.pending ∧ (f e x).clk = x.clk ∧ (f e x).otp.lcw = x.otp.lcw) {s' : State}
    (h : xRow n m store claim s f = .next s') : s'.pending = s.pending ∧ s'.clk = s.clk ∧ s'.otp.lcw = s.otp.lcw := by
  refine vecRowJ_frame n _ _ s _ (fun e j => ?_) h
  split
  · rename_i c a _
    have g := State.memFault_frame (claim s) n c 0 a
    exact ⟨g.1.trans hc.1, g.2.1.trans hc.2.1, g.2.2.trans hc.2.2⟩
  · exact State.withBeats_frame _ _ _ _ _ (hf e)

@[simp] theorem claimX_frame (n : Nat) (r : BitVec 5) (s : State) :
    (claimX n r s).pending = s.pending ∧ (claimX n r s).clk = s.clk ∧ (claimX n r s).otp.lcw = s.otp.lcw := by
  unfold claimX
  split <;> simp

@[simp] theorem claimS_frame (n : Nat) (r : BitVec 5) (s : State) :
    (claimS n r s).pending = s.pending ∧ (claimS n r s).clk = s.clk ∧ (claimS n r s).otp.lcw = s.otp.lcw := by
  unfold claimS
  simp



theorem execMSld_frame (n : Nat) (m : MemX) (s : State) {s' : State} (h : execMSld n m s = .next s') :
    s'.pending = s.pending ∧ s'.clk = s.clk ∧ s'.otp.lcw = s.otp.lcw := by
  unfold execMSld at h
  exact xRow_frame _ _ _ _ _ _ (claimS_frame n m.rg s) (by intros; simp) h

theorem execMSst_frame (n : Nat) (m : MemX) (s : State) {s' : State} (h : execMSst n m s = .next s') :
    s'.pending = s.pending ∧ s'.clk = s.clk ∧ s'.otp.lcw = s.otp.lcw := by
  unfold execMSst at h
  exact xRow_frame _ _ _ _ _ _ (⟨rfl, rfl, rfl⟩) (by intros; simp) h

theorem execMXld_frame (n : Nat) (m : MemX) (s : State) {s' : State} (h : execMXld n m s = .next s') :
    s'.pending = s.pending ∧ s'.clk = s.clk ∧ s'.otp.lcw = s.otp.lcw := by
  unfold execMXld at h
  exact xRow_frame _ _ _ _ _ _ (claimX_frame n m.rg s) (by intros; simp) h

theorem execMXst_frame (n : Nat) (m : MemX) (s : State) {s' : State} (h : execMXst n m s = .next s') :
    s'.pending = s.pending ∧ s'.clk = s.clk ∧ s'.otp.lcw = s.otp.lcw := by
  unfold execMXst at h
  exact xRow_frame _ _ _ _ _ _ (⟨rfl, rfl, rfl⟩) (by intros; simp) h

/-! ## Machine/LathPort.lean -/

theorem execMAcq_frame (n : Nat) (p : PSlot) (s : State) {s' : State} (h : execMAcq n p s = .next s') :
    s'.pending = s.pending ∧ s'.clk = s.clk ∧ s'.otp.lcw = s.otp.lcw := by
  (unfold execMAcq at h; (try dsimp only at h); (repeat' split at h) <;>
    first | exact slotRow_frame _ _ _ (by intros; (try dsimp only); (repeat' split) <;> first | (simp; done) | (simp_all; done) | grind [slotRow_frame, State.updLath_frame, State.engCause_frame]) h)

theorem execMRel_frame (n : Nat) (p : PSlot) (s : State) {s' : State} (h : execMRel n p s = .next s') :
    s'.pending = s.pending ∧ s'.clk = s.clk ∧ s'.otp.lcw = s.otp.lcw := by
  (unfold execMRel at h; (try dsimp only at h); (repeat' split at h) <;>
    first | exact slotRow_frame _ _ _ (by intros; (try dsimp only); (repeat' split) <;> first | (simp; done) | (simp_all; done) | grind [slotRow_frame, State.updLath_frame, State.engCause_frame, State.erase_frame, State.updQuad_frame]) h)

theorem execMLock_frame (n : Nat) (p : PSlot) (s : State) {s' : State} (h : execMLock n p s = .next s') :
    s'.pending = s.pending ∧ s'.clk = s.clk ∧ s'.otp.lcw = s.otp.lcw := by
  unfold execMLock at h
  exact slotRow_frame _ _ _ (by intros; (repeat' split) <;> simp) h

theorem execMUnlock_frame (n : Nat) (p : PSlot) (s : State) {s' : State} (h : execMUnlock n p s = .next s') :
    s'.pending = s.pending ∧ s'.clk = s.clk ∧ s'.otp.lcw = s.otp.lcw := by
  unfold execMUnlock at h
  exact slotRow_frame _ _ _ (by intros; (repeat' split) <;> simp) h

@[simp] theorem State.setCoreState_frame (s : State) (n k : Nat) (c : QClaim) :
    (State.setCoreState s n k c).pending = s.pending ∧ (State.setCoreState s n k c).clk = s.clk ∧
    (State.setCoreState s n k c).otp.lcw = s.otp.lcw := by
  simp [State.setCoreState]

theorem execMSinit_frame (n : Nat) (p : PSlot) (s : State) {s' : State} (h : execMSinit n p s = .next s') :
    s'.pending = s.pending ∧ s'.clk = s.clk ∧ s'.otp.lcw = s.otp.lcw := by
  (unfold execMSinit at h; (try dsimp only at h); (repeat' split at h) <;>
    first | exact slotRow_frame _ _ _ (by intros; (try dsimp only); (repeat' split) <;> first | (simp; done) | (simp_all; done) | grind [slotRow_frame, State.setCoreState_frame, State.waitSlot_frame, State.engCause_frame]) h)

theorem execMSabs_frame (n : Nat) (p : PSlot) (s : State) {s' : State} (h : execMSabs n p s = .next s') :
    s'.pending = s.pending ∧ s'.clk = s.clk ∧ s'.otp.lcw = s.otp.lcw := by
  (unfold execMSabs at h; (try dsimp only at h); (repeat' split at h) <;>
    first | exact slotRow_frame _ _ _ (by intros; (try dsimp only); (repeat' split) <;> first | (simp; done) | (simp_all; done) | grind [slotRow_frame, State.updLath_frame, State.waitSlot_frame, State.engCause_frame]) h)

theorem execMSsqz_frame (n : Nat) (p : PSlot) (s : State) {s' : State} (h : execMSsqz n p s = .next s') :
    s'.pending = s.pending ∧ s'.clk = s.clk ∧ s'.otp.lcw = s.otp.lcw := by
  (unfold execMSsqz at h; (try dsimp only at h); (repeat' split at h) <;>
    first | exact slotRow_frame _ _ _ (by intros; (try dsimp only); (repeat' split) <;> first | (simp; done) | (simp_all; done) | grind [State.stage_frame, slotRow_frame, State.updLath_frame, State.waitSlot_frame, State.engCause_frame]) h)

@[simp] theorem State.spongeEnd_frame (s : State) (n : Nat) (o : LSpg) :
    (State.spongeEnd s n o).pending = s.pending ∧ (State.spongeEnd s n o).clk = s.clk ∧
    (State.spongeEnd s n o).otp.lcw = s.otp.lcw := by
  unfold State.spongeEnd
  dsimp only
  repeat' split
  all_goals simp

theorem execSpongeOpDone_frame (n : Nat) (s : State) {s' : State} (h : execSpongeOpDone n s = .next s') :
    s'.pending = s.pending ∧ s'.clk = s.clk ∧ s'.otp.lcw = s.otp.lcw := by
  unfold execSpongeOpDone at h
  dsimp only at h
  repeat' split at h
  all_goals (rw [Host.Outcome.next.injEq] at h; subst h; simp)

theorem execMMget_frame (n : Nat) (p : PSlot) (s : State) {s' : State} (h : execMMget n p s = .next s') :
    s'.pending = s.pending ∧ s'.clk = s.clk ∧ s'.otp.lcw = s.otp.lcw := by
  refine slotRow_frame n s _ (fun e j => ?_) h
  split
  · simp
  · exact State.maskDraw_frame _ _ _ _ _ _ (fun ws x => by simp)

theorem execMBload_frame (n : Nat) (p : PSlot) (s : State) {s' : State} (h : execMBload n p s = .next s') :
    s'.pending = s.pending ∧ s'.clk = s.clk ∧ s'.otp.lcw = s.otp.lcw := by
  refine slotRow_frame n s _ (fun e j => ?_) h
  dsimp only
  split
  · simp
  · split
    · simp
    · rename_i key _ _
      have g (l : List ((Nat → W32) × Nat)) (k : Nat) (x : State) := foldl_frame (fun (x : State) (q : (Nat → W32) × Nat) =>
        x.stageV n (p.vreg.toNat + q.2) (overwrite (e.vr (p.vreg.toNat + q.2)) (List.range k) q.1)) (by simp) l x
      simp [g]

theorem execMBstor_frame (n : Nat) (p : PSlot) (s : State) {s' : State} (h : execMBstor n p s = .next s') :
    s'.pending = s.pending ∧ s'.clk = s.clk ∧ s'.otp.lcw = s.otp.lcw := by
  (unfold execMBstor at h; (try dsimp only at h); (repeat' split at h) <;>
    first | exact slotRow_frame _ _ _ (by intros; (try dsimp only); (repeat' split) <;> first | (simp; done) | (simp_all; done) | grind [slotRow_frame, State.updLath_frame, State.waitSlot_frame, State.engCause_frame]) h)

theorem dmaRow_frame (n : Nat) (inn : Bool) (xa xb : BitVec 5) (s : State) {s' : State}
    (h : dmaRow n inn xa xb s = .next s') :
    s'.pending = s.pending ∧ s'.clk = s.clk ∧ s'.otp.lcw = s.otp.lcw := by
  (unfold dmaRow at h; (try dsimp only at h); (repeat' split at h) <;>
    first | exact slotRow_frame _ _ _ (by intros; (try dsimp only); (repeat' split) <;> first | (simp; done) | (simp_all; done) | grind [slotRow_frame, State.updLath_frame, State.engCause_frame]) h)

theorem execMDin_frame (n : Nat) (xa xb : BitVec 5) (s : State) {s' : State} (h : execMDin n xa xb s = .next s') :
    s'.pending = s.pending ∧ s'.clk = s.clk ∧ s'.otp.lcw = s.otp.lcw := by
  unfold execMDin at h
  exact dmaRow_frame _ _ _ _ _ h

theorem execMDout_frame (n : Nat) (xa xb : BitVec 5) (s : State) {s' : State} (h : execMDout n xa xb s = .next s') :
    s'.pending = s.pending ∧ s'.clk = s.clk ∧ s'.otp.lcw = s.otp.lcw := by
  unfold execMDout at h
  exact dmaRow_frame _ _ _ _ _ h

@[simp] theorem State.dmaOne_frame (s : State) (n : Nat) (j : Job) (b : List Byte) (d : LDma) :
    (State.dmaOne s n j b d).pending = s.pending ∧ (State.dmaOne s n j b d).clk = s.clk ∧
    (State.dmaOne s n j b d).otp.lcw = s.otp.lcw := by
  unfold State.dmaOne
  split <;> simp

theorem execDmaDone_frame (n : Nat) (inp : JobIn) (s : State) {s' : State} (h : execDmaDone n inp s = .next s') :
    s'.pending = s.pending ∧ s'.clk = s.clk ∧ s'.otp.lcw = s.otp.lcw := by
  have g (j : Job) (b : List Byte) (l : List LDma) (x : State) :=
    foldl_frame (fun (x : State) (d : LDma) => x.dmaOne n j b d) (by simp) l x
  unfold execDmaDone at h
  dsimp only at h
  repeat' split at h
  all_goals (rw [Host.Outcome.next.injEq] at h; subst h; simp [g])

theorem execArbRound_frame (q k : Nat) (ready : List Nat) (cyc : Nat) (s : State) {s' : State}
    (h : execArbRound q k ready cyc s = .next s') :
    s'.pending = s.pending ∧ s'.clk = s.clk ∧ s'.otp.lcw = s.otp.lcw := by
  unfold execArbRound at h
  split at h <;> (rw [Host.Outcome.next.injEq] at h; subst h; simp)

theorem execLockOver_frame (q r : Nat) (s : State) {s' : State} (h : execLockOver q r s = .next s') :
    s'.pending = s.pending ∧ s'.clk = s.clk ∧ s'.otp.lcw = s.otp.lcw := by
  unfold execLockOver at h
  dsimp only at h
  repeat' split at h
  all_goals (rw [Host.Outcome.next.injEq] at h; subst h; simp)

theorem execSafeMiss_frame (n : Nat) (s : State) {s' : State} (h : execSafeMiss n s = .next s') :
    s'.pending = s.pending ∧ s'.clk = s.clk ∧ s'.otp.lcw = s.otp.lcw := by
  unfold execSafeMiss at h
  split at h <;> (rw [Host.Outcome.next.injEq] at h; subst h; simp)

/-! ## Machine/Micro.lean -/

/-- Where a meaning answers a next state, it keeps the queue, the clock and the life-cycle words. -/
def Meaning.pins (f : Meaning) : Prop :=
  ∀ s s', f s = .next s' → s'.pending = s.pending ∧ s'.clk = s.clk ∧ s'.otp.lcw = s.otp.lcw

/-- So does the row that a field of a microword holds. -/
def Micro.pins : Micro → Prop
  | .row f => f.pins
  | _ => True

theorem Micro.when_pins (ok : Bool) (c : Nat) {f : Meaning} (h : f.pins) : (Micro.when ok c f).pins := by
  unfold Micro.when
  split
  · exact h
  · trivial

theorem nextOr_frame (s : State) (o : Host.Outcome State Fault Refusal)
    (h : ∀ s', o = .next s' → s'.pending = s.pending ∧ s'.clk = s.clk ∧ s'.otp.lcw = s.otp.lcw) :
    (nextOr s o).pending = s.pending ∧ (nextOr s o).clk = s.clk ∧ (nextOr s o).otp.lcw = s.otp.lcw := by
  cases o with
  | next t => exact h t rfl
  | _ => exact ⟨rfl, rfl, rfl⟩

theorem scalarSlot_pins (n : Nat) (w : W32) : (scalarSlot n w).pins := by
  unfold scalarSlot
  dsimp only
  split
  · trivial
  · exact Micro.when_pins _ _ (fun s s' h => execMAdd_frame _ _ _ _ _ h)
  · exact Micro.when_pins _ _ (fun s s' h => execMSub_frame _ _ _ _ _ h)
  · exact Micro.when_pins _ _ (fun s s' h => execMAnd_frame _ _ _ _ _ h)
  · exact Micro.when_pins _ _ (fun s s' h => execMOr_frame _ _ _ _ _ h)
  · exact Micro.when_pins _ _ (fun s s' h => execMXor_frame _ _ _ _ _ h)
  · exact Micro.when_pins _ _ (fun s s' h => execMSll_frame _ _ _ _ _ h)
  · exact Micro.when_pins _ _ (fun s s' h => execMSrl_frame _ _ _ _ _ h)
  · exact Micro.when_pins _ _ (fun s s' h => execMSra_frame _ _ _ _ _ h)
  · exact Micro.when_pins _ _ (fun s s' h => execMMul_frame _ _ _ _ _ h)
  · exact Micro.when_pins _ _ (fun s s' h => execMMulhu_frame _ _ _ _ _ h)
  · exact (fun s s' h => execMAddi_frame _ _ _ _ _ h)
  · exact (fun s s' h => execMAndi_frame _ _ _ _ _ h)
  · exact (fun s s' h => execMOri_frame _ _ _ _ _ h)
  · exact (fun s s' h => execMXori_frame _ _ _ _ _ h)
  · exact Micro.when_pins _ _ (fun s s' h => execMShi_frame _ _ _ _ _ _ h)
  · exact (fun s s' h => execMLui_frame _ _ _ _ h)
  · exact Micro.when_pins _ _ (fun s s' h => execMCmp_frame _ _ _ _ h)
  · exact Micro.when_pins _ _ (fun s s' h => execMCmpi_frame _ _ _ _ h)
  · exact (fun s s' h => execMMfs_frame _ _ _ _ h)
  · exact (fun s s' h => execMMts_frame _ _ _ _ h)
  · exact Micro.when_pins _ _ (fun s s' h => execMSel_frame _ _ _ _ _ h)
  · trivial

theorem vecOps_pins : ∀ f ∈ vecOps, ∀ n v, (f n v : Meaning).pins := by
  simp only [vecOps, List.forall_mem_cons, List.not_mem_nil]
  exact ⟨(fun n v s s' h => execMVadd_frame _ _ _ h),
    (fun n v s s' h => execMVsub_frame _ _ _ h),
    (fun n v s s' h => execMVand_frame _ _ _ h),
    (fun n v s s' h => execMVor_frame _ _ _ h),
    (fun n v s s' h => execMVxor_frame _ _ _ h),
    (fun n v s s' h => execMVsll_frame _ _ _ h),
    (fun n v s s' h => execMVsrl_frame _ _ _ h),
    (fun n v s s' h => execMVsra_frame _ _ _ h),
    (fun n v s s' h => execMVmul_frame _ _ _ h),
    (fun n v s s' h => execMVmulhu_frame _ _ _ h),
    (fun n v s s' h => execMVminu_frame _ _ _ h),
    (fun n v s s' h => execMVmaxu_frame _ _ _ h),
    (fun n v s s' h => execMVmv_frame _ _ _ h),
    (fun n v s s' h => execMVcmp_frame _ _ _ h),
    (fun n v s s' h => execMVclmul_frame _ _ _ h),
    (fun n v s s' h => execMVaddq_frame _ _ _ h),
    (fun n v s s' h => execMVsubq_frame _ _ _ h),
    (fun n v s s' h => execMVmulq_frame _ _ _ h),
    (fun n v s s' h => execMVredq_frame _ _ _ h),
    (fun n v s s' h => execMVntt_frame _ _ _ h),
    (fun n v s s' h => execMVintt_frame _ _ _ h),
    (fun n v s s' h => execMVtwid_frame _ _ _ h),
    (fun n v s s' h => execMVbmul_frame _ _ _ h),
    (fun n v s s' h => execMVunpk_frame _ _ _ h),
    (fun n v s s' h => execMVpack_frame _ _ _ h),
    (fun n v s s' h => execMVcprs_frame _ _ _ h),
    (fun n v s s' h => execMVdcprs_frame _ _ _ h),
    (fun n v s s' h => execMVcompress_frame _ _ _ h),
    (fun n v s s' h => execMVpopc_frame _ _ _ h),
    (fun n v s s' h => execMSetvl_frame _ _ _ h),
    (fun n v s s' h => execMVmop_frame _ _ _ h),
    (fun n v s s' h => execMVmvxv_frame _ _ _ h),
    (fun n v s s' h => execMVmvvx_frame _ _ _ h),
    (fun n v s s' h => execMSmvxs_frame _ _ _ h),
    (fun n v s s' h => execMSmvsx_frame _ _ _ h),
    (fun n v s s' h => execMVslidedn_frame _ _ _ h),
    (fun n v s s' h => execMVslideup_frame _ _ _ h),
    (fun n v s s' h => execMVred_frame _ _ _ h),
    (fun n v s s' h => execMVperm_frame _ _ _ h),
    (fun n v s s' h => execMVbsll_frame _ _ _ h),
    (fun n v s s' h => execMVbsrl_frame _ _ _ h),
    (fun n v s s' h => execMVbrot_frame _ _ _ h),
    (fun n v s s' h => execMVbpopc_frame _ _ _ h),
    (fun n v s s' h => execMVbtrn_frame _ _ _ h),
    (fun n v s s' h => execMVgfmul_frame _ _ _ h),
    (fun n v s s' h => execMVfclr_frame _ _ _ h),
    (fun n v s s' h => execMVfrd_frame _ _ _ h),
    (fun n v s s' h => execMVaddqS_frame _ _ _ h),
    (fun n v s s' h => execMVsubqS_frame _ _ _ h),
    (fun n v s s' h => execMVmulqS_frame _ _ _ h),
    (fun n v s s' h => execMVnttS_frame _ _ _ h),
    (fun n v s s' h => execMVinttS_frame _ _ _ h),
    (fun n v s s' h => execMVbmulS_frame _ _ _ h),
    (fun n v s s' h => execMVxorS_frame _ _ _ h),
    (fun n v s s' h => execMVandS_frame _ _ _ h),
    (fun n v s s' h => execMVshS_frame _ _ _ h),
    (fun n v s s' h => execMVrefS_frame _ _ _ h),
    (fun n v s s' h => execMVa2bS_frame _ _ _ h),
    (fun n v s s' h => execMVb2aS_frame _ _ _ h),
    (fun n v s s' h => execMVcprsS_frame _ _ _ h),
    (fun n v s s' h => execMVmeqzS_frame _ _ _ h),
    (fun n v s s' h => execMVrecomb_frame _ _ _ h),
    (fun n v s s' h => execMVsplit_frame _ _ _ h), fun _ h => h.elim⟩

theorem vectorSlot_pins (n : Nat) (w : W32) : (vectorSlot n w).pins := by
  unfold vectorSlot
  split
  · trivial
  split
  · trivial
  split
  · rename_i f e
    exact vecOps_pins f (List.mem_of_getElem? e) n (vecFields w)
  · trivial

theorem memorySlot_pins (n : Nat) (w : BitVec 24) : (memorySlot n w).pins := by
  unfold memorySlot
  dsimp only
  split
  · trivial
  split
  · exact (fun s s' h => execMVle_frame _ _ _ h)
  · exact (fun s s' h => execMVse_frame _ _ _ h)
  · exact (fun s s' h => execMVlse_frame _ _ _ h)
  · exact (fun s s' h => execMVsse_frame _ _ _ h)
  · exact (fun s s' h => execMVlux_frame _ _ _ h)
  · exact (fun s s' h => execMVsux_frame _ _ _ h)
  · exact (fun s s' h => execMVlseg_frame _ _ _ h)
  · exact (fun s s' h => execMVsseg_frame _ _ _ h)
  · exact (fun s s' h => execMSld_frame _ _ _ h)
  · exact (fun s s' h => execMSst_frame _ _ _ h)
  · exact (fun s s' h => execMXld_frame _ _ _ h)
  · exact (fun s s' h => execMXst_frame _ _ _ h)
  · trivial

theorem portSlot_pins (n : Nat) (w : W16) : (portSlot n w).pins := by
  unfold portSlot
  dsimp only
  split
  · trivial
  split
  · exact (fun s s' h => execMAcq_frame _ _ _ h)
  · exact (fun s s' h => execMRel_frame _ _ _ h)
  · exact (fun s s' h => execMLock_frame _ _ _ h)
  · exact (fun s s' h => execMUnlock_frame _ _ _ h)
  · exact (fun s s' h => execMSinit_frame _ _ _ h)
  · exact (fun s s' h => execMSabs_frame _ _ _ h)
  · exact (fun s s' h => execMSsqz_frame _ _ _ h)
  · exact (fun s s' h => execMMget_frame _ _ _ h)
  · exact (fun s s' h => execMBload_frame _ _ _ h)
  · exact (fun s s' h => execMBstor_frame _ _ _ h)
  · exact Micro.when_pins _ _ (fun s s' h => execMDin_frame _ _ _ _ h)
  · exact Micro.when_pins _ _ (fun s s' h => execMDout_frame _ _ _ _ h)
  · trivial

theorem seqField_pins (n : Nat) (seq : BitVec 4) (csel : BitVec 6)
    (next : BitVec 14) : (seqField n seq csel next).pins := by
  unfold seqField
  dsimp only
  split
  · (split; exact (fun s s' h => execMSeq_frame _ _ _ h); trivial)
  · exact (fun s s' h => execMBranch_frame _ _ _ _ h)
  · (split; exact (fun s s' h => execMCall_frame _ _ _ h); trivial)
  · (split; exact (fun s s' h => execMReturn_frame _ _ h); trivial)
  · (split; exact (fun s s' h => execMSafe_frame _ _ _ h); trivial)
  · (split; exact (fun s s' h => execMHalt_frame _ _ h); trivial)
  · exact (fun s s' h => execMDispatch_frame _ _ _ _ h)
  · (split; exact (fun s s' h => execMPjump_frame _ _ _ h); trivial)
  · (split; exact (fun s s' h => execMRjump_frame _ _ _ h); trivial)
  · trivial

theorem microFields_pins (n : Nat) (w : W128) : ∀ m ∈ microFields n w, m.pins := by
  simp only [microFields, List.forall_mem_cons, List.not_mem_nil]
  exact ⟨scalarSlot_pins _ _, vectorSlot_pins _ _, memorySlot_pins _ _, portSlot_pins _ _, seqField_pins _ _ _ _,
    fun _ h => h.elim⟩

theorem runMicro_frame (n : Nat) (s : State) (m : Micro) (hm : m.pins) :
    (runMicro n s m).pending = s.pending ∧ (runMicro n s m).clk = s.clk ∧ (runMicro n s m).otp.lcw = s.otp.lcw := by
  cases m with
  | none => exact ⟨rfl, rfl, rfl⟩
  | row f => exact nextOr_frame _ _ (hm s)
  | bad b inert =>
    refine nextOr_frame _ _ (fun s' h => slotRow_frame _ _ _ (fun e j => ?_) h)
    split <;> simp
  | badSeq => exact nextOr_frame _ _ (fun s' h => seqRow_frame _ _ _ _ (fun e j x => by simp) h)

theorem runMicros_frame (n : Nat) (l : List Micro) (s : State) (hl : ∀ m ∈ l, m.pins) :
    (l.foldl (runMicro n) s).pending = s.pending ∧ (l.foldl (runMicro n) s).clk = s.clk ∧
    (l.foldl (runMicro n) s).otp.lcw = s.otp.lcw := by
  induction l generalizing s with
  | nil => exact ⟨rfl, rfl, rfl⟩
  | cons m t ih =>
    have g := runMicro_frame n s m (hl m (List.mem_cons_self ..))
    have k := ih (runMicro n s m) (fun x hx => hl x (List.mem_cons_of_mem _ hx))
    exact ⟨k.1.trans g.1, k.2.1.trans g.2.1, k.2.2.trans g.2.2⟩

@[simp] theorem State.issue_frame (s : State) (n : Nat) :
    (s.issue n).pending = s.pending ∧ (s.issue n).clk = s.clk ∧ (s.issue n).otp.lcw = s.otp.lcw := by
  unfold State.issue
  split
  · split
    · exact runMicros_frame _ _ _ (microFields_pins _ _)
    · exact ⟨rfl, rfl, rfl⟩
  · exact ⟨rfl, rfl, rfl⟩

@[simp] theorem issueAll_frame (x0 : List Nat) (s : State) :
    (issueAll x0 s).pending = s.pending ∧ (issueAll x0 s).clk = s.clk ∧ (issueAll x0 s).otp.lcw = s.otp.lcw := by
  (fun_induction issueAll x0 s <;> simp_all; done)

end Sys2Proof.Machine
end

