-- ==== Sys2Proof/Laws/FramePower.lean ====
section
/-!
SUPPORT. Three things that almost no operation touches: the queue of waiting commands, the clock, and the life-cycle words in
OTP. One lemma per operation, for timing, power, firmware, life cycle and starts.
-/
set_option linter.unusedSimpArgs false
set_option linter.unusedVariables false

namespace Sys2Proof.Machine

/-! ## Machine/Plumb.lean -/

@[simp] theorem State.putInsitu_frame (s : State) (u : Nat) (slack t : Int) :
    (State.putInsitu s u slack t).pending = s.pending ∧ (State.putInsitu s u slack t).clk = s.clk ∧
    (State.putInsitu s u slack t).otp.lcw = s.otp.lcw := by
  unfold State.putInsitu
  split <;> simp

@[simp] theorem State.putDrained_frame (s : State) (u : Nat) (slack t : Int) :
    (State.putDrained s u slack t).pending = s.pending ∧ (State.putDrained s u slack t).clk = s.clk ∧
    (State.putDrained s u slack t).otp.lcw = s.otp.lcw := by
  simp [State.putDrained]

@[simp] theorem State.setVcore_frame (s : State) (v : Nat) :
    (State.setVcore s v).pending = s.pending ∧ (State.setVcore s v).clk = s.clk ∧
    (State.setVcore s v).otp.lcw = s.otp.lcw := by
  unfold State.setVcore
  split <;> simp

@[simp] theorem keepVreq_frame (x0 : List Nat) (s : State) :
    (keepVreq x0 s).pending = s.pending ∧ (keepVreq x0 s).clk = s.clk ∧ (keepVreq x0 s).otp.lcw = s.otp.lcw := by
  (fun_induction keepVreq x0 s <;> simp_all; done)

@[simp] theorem State.writePlan_frame (s : State) (cycle : Bool) :
    (State.writePlan s cycle).pending = s.pending ∧ (State.writePlan s cycle).clk = s.clk ∧
    (State.writePlan s cycle).otp.lcw = s.otp.lcw := by
  unfold State.writePlan
  dsimp only
  repeat' split
  all_goals simp

@[simp] theorem State.finishPlan_frame (s : State) :
    (State.finishPlan s).pending = s.pending ∧ (State.finishPlan s).clk = s.clk ∧
    (State.finishPlan s).otp.lcw = s.otp.lcw := by
  unfold State.finishPlan
  dsimp only
  repeat' split
  all_goals simp

@[simp] theorem State.startDerates_frame (s : State) :
    (State.startDerates s).pending = s.pending ∧ (State.startDerates s).clk = s.clk ∧
    (State.startDerates s).otp.lcw = s.otp.lcw := by
  simp [State.startDerates]

@[simp] theorem State.beginPlan_frame (s : State) (cycle : Bool) :
    (State.beginPlan s cycle).pending = s.pending ∧ (State.beginPlan s cycle).clk = s.clk ∧
    (State.beginPlan s cycle).otp.lcw = s.otp.lcw := by
  unfold State.beginPlan
  dsimp only
  repeat' split
  all_goals simp

@[simp] theorem planLoop_frame (x0 : Nat) (s : State) :
    (planLoop x0 s).pending = s.pending ∧ (planLoop x0 s).clk = s.clk ∧ (planLoop x0 s).otp.lcw = s.otp.lcw := by
  (fun_induction planLoop x0 s <;> simp_all; done)

@[simp] theorem State.askPlan_frame (s : State) :
    (State.askPlan s).pending = s.pending ∧ (State.askPlan s).clk = s.clk ∧
    (State.askPlan s).otp.lcw = s.otp.lcw := by
  simp [State.askPlan]

@[simp] theorem State.goPlan_frame (s : State) :
    (State.goPlan s).pending = s.pending ∧ (State.goPlan s).clk = s.clk ∧ (State.goPlan s).otp.lcw = s.otp.lcw := by
  unfold State.goPlan
  split <;> simp

@[simp] theorem State.capPhases_frame (s : State) :
    (State.capPhases s).pending = s.pending ∧ (State.capPhases s).clk = s.clk ∧
    (State.capPhases s).otp.lcw = s.otp.lcw := by
  unfold State.capPhases
  split <;> simp

theorem execVcoreSlewDone_frame (s : State) {s' : State} (h : execVcoreSlewDone s = .next s') :
    s'.pending = s.pending ∧ s'.clk = s.clk ∧ s'.otp.lcw = s.otp.lcw := by
  unfold execVcoreSlewDone at h
  dsimp only at h
  repeat' split at h
  all_goals (rw [Host.Outcome.next.injEq] at h; subst h; simp)

@[simp] theorem State.fixRunning_frame (s : State) :
    (State.fixRunning s).pending = s.pending ∧ (State.fixRunning s).clk = s.clk ∧
    (State.fixRunning s).otp.lcw = s.otp.lcw := by
  simp [State.fixRunning]

@[simp] theorem State.startRoutine_frame (s : State) (u : Nat) (measure : Bool) :
    (State.startRoutine s u measure).pending = s.pending ∧ (State.startRoutine s u measure).clk = s.clk ∧
    (State.startRoutine s u measure).otp.lcw = s.otp.lcw := by
  unfold State.startRoutine
  split <;> simp

theorem execUnitDrained_frame (u : Nat) (s : State) {s' : State} (h : execUnitDrained u s = .next s') :
    s'.pending = s.pending ∧ s'.clk = s.clk ∧ s'.otp.lcw = s.otp.lcw := by
  unfold execUnitDrained at h
  dsimp only at h
  repeat' split at h
  all_goals (rw [Host.Outcome.next.injEq] at h; subst h; simp)

@[simp] theorem State.setStep_frame (s : State) (u f : Nat) :
    (State.setStep s u f).pending = s.pending ∧ (State.setStep s u f).clk = s.clk ∧
    (State.setStep s u f).otp.lcw = s.otp.lcw := by
  unfold State.setStep
  dsimp only
  repeat' split
  all_goals simp

theorem execClockRelock_frame (u : Nat) (s : State) {s' : State} (h : execClockRelock u s = .next s') :
    s'.pending = s.pending ∧ s'.clk = s.clk ∧ s'.otp.lcw = s.otp.lcw := by
  unfold execClockRelock at h
  repeat' split at h
  all_goals (rw [Host.Outcome.next.injEq] at h; subst h; simp)

@[simp] theorem State.putResult_frame (s : State) (u res vec : Nat) :
    (State.putResult s u res vec).pending = s.pending ∧ (State.putResult s u res vec).clk = s.clk ∧
    (State.putResult s u res vec).otp.lcw = s.otp.lcw := by
  simp [State.putResult]

@[simp] theorem State.dropKats_frame (s : State) (u : Nat) :
    (State.dropKats s u).pending = s.pending ∧ (State.dropKats s u).clk = s.clk ∧
    (State.dropKats s u).otp.lcw = s.otp.lcw := by
  simp [State.dropKats]

@[simp] theorem State.lateLog_frame (s : State) (u action vec : Nat) (es : List TestEnt) :
    (State.lateLog s u action vec es).pending = s.pending ∧ (State.lateLog s u action vec es).clk = s.clk ∧
    (State.lateLog s u action vec es).otp.lcw = s.otp.lcw := by
  unfold State.lateLog
  split <;> simp

@[simp] theorem State.failAgain_frame (s : State) (r : Rec) (u : Nat) :
    (State.failAgain s r u).pending = s.pending ∧ (State.failAgain s r u).clk = s.clk ∧
    (State.failAgain s r u).otp.lcw = s.otp.lcw := by
  unfold State.failAgain
  dsimp only
  repeat' split
  all_goals simp

theorem execKatDone_frame (u : Nat) (fail : Option (BitVec 6)) (s : State) {s' : State}
    (h : execKatDone u fail s = .next s') :
    s'.pending = s.pending ∧ s'.clk = s.clk ∧ s'.otp.lcw = s.otp.lcw := by
  unfold execKatDone at h
  dsimp only at h
  repeat' split at h
  all_goals (rw [Host.Outcome.next.injEq] at h; subst h; simp)

theorem execEngKatTimeout_frame (u : Nat) (s : State) {s' : State} (h : execEngKatTimeout u s = .next s') :
    s'.pending = s.pending ∧ s'.clk = s.clk ∧ s'.otp.lcw = s.otp.lcw := by
  unfold execEngKatTimeout at h
  dsimp only at h
  repeat' split at h
  all_goals (rw [Host.Outcome.next.injEq] at h; subst h; simp)

theorem execDrainedMeasurementDone_frame (u : Nat) (slack temp : Int) (s : State) {s' : State}
    (h : execDrainedMeasurementDone u slack temp s = .next s') :
    s'.pending = s.pending ∧ s'.clk = s.clk ∧ s'.otp.lcw = s.otp.lcw := by
  unfold execDrainedMeasurementDone at h
  repeat' split at h
  all_goals (rw [Host.Outcome.next.injEq] at h; subst h; simp)

@[simp] theorem ageOut_frame (s : State) :
    (ageOut s).pending = s.pending ∧ (ageOut s).clk = s.clk ∧ (ageOut s).otp.lcw = s.otp.lcw := by
  simp [ageOut]

@[simp] theorem State.startCycle_frame (s : State) :
    (State.startCycle s).pending = s.pending ∧ (State.startCycle s).clk = s.clk ∧
    (State.startCycle s).otp.lcw = s.otp.lcw := by
  unfold State.startCycle
  split <;> simp

theorem execDailyCycle_frame (s : State) {s' : State} (h : execDailyCycle s = .next s') :
    s'.pending = s.pending ∧ s'.clk = s.clk ∧ s'.otp.lcw = s.otp.lcw := by
  unfold execDailyCycle at h
  split at h <;> (rw [Host.Outcome.next.injEq] at h; subst h; simp)

theorem execCycleWaitExpiry_frame (s : State) {s' : State} (h : execCycleWaitExpiry s = .next s') :
    s'.pending = s.pending ∧ s'.clk = s.clk ∧ s'.otp.lcw = s.otp.lcw := by
  unfold execCycleWaitExpiry at h
  split at h <;> (rw [Host.Outcome.next.injEq] at h; subst h; simp)

@[simp] theorem State.putDie_frame (s : State) (m : Nat) (slack temp : Int) :
    (State.putDie s m slack temp).pending = s.pending ∧ (State.putDie s m slack temp).clk = s.clk ∧
    (State.putDie s m slack temp).otp.lcw = s.otp.lcw := by
  simp [State.putDie]

theorem execPlbMarginLow_frame (u : Nat) (slack temp : Int) (s : State) {s' : State}
    (h : execPlbMarginLow u slack temp s = .next s') :
    s'.pending = s.pending ∧ s'.clk = s.clk ∧ s'.otp.lcw = s.otp.lcw := by
  unfold execPlbMarginLow at h
  repeat' split at h
  all_goals (rw [Host.Outcome.next.injEq] at h; subst h; simp)

theorem execReplanRetry_frame (s : State) {s' : State} (h : execReplanRetry s = .next s') :
    s'.pending = s.pending ∧ s'.clk = s.clk ∧ s'.otp.lcw = s.otp.lcw := by
  unfold execReplanRetry at h
  split at h <;> (rw [Host.Outcome.next.injEq] at h; subst h; simp)

theorem execEngStatus_frame (hd : Hdr) (kind idx : Nat) (s : State) {s' : State}
    (h : execEngStatus hd kind idx s = .next s') :
    s'.pending = s.pending ∧ s'.clk = s.clk ∧ s'.otp.lcw = s.otp.lcw := by
  rw [execEngStatus, Host.Outcome.next.injEq] at h
  subst h
  apply State.run_frame
  intro x
  repeat' split
  all_goals simp

theorem execEngRetire_frame (hd : Hdr) (kind idx : Nat) (s : State) {s' : State}
    (h : execEngRetire hd kind idx s = .next s') :
    s'.pending = s.pending ∧ s'.clk = s.clk ∧ s'.otp.lcw = s.otp.lcw := by
  rw [execEngRetire, Host.Outcome.next.injEq] at h
  subst h
  apply State.run_frame
  intro x
  repeat' split
  all_goals simp

theorem execEngKat_frame (hd : Hdr) (kind idx : Nat) (s : State) {s' : State}
    (h : execEngKat hd kind idx s = .next s') :
    s'.pending = s.pending ∧ s'.clk = s.clk ∧ s'.otp.lcw = s.otp.lcw := by
  rw [execEngKat, Host.Outcome.next.injEq] at h
  subst h
  apply State.run_frame
  intro x
  dsimp only
  repeat' split
  all_goals simp

theorem execEngMargin_frame (hd : Hdr) (s : State) {s' : State} (h : execEngMargin hd s = .next s') :
    s'.pending = s.pending ∧ s'.clk = s.clk ∧ s'.otp.lcw = s.otp.lcw := by
  rw [execEngMargin, Host.Outcome.next.injEq] at h
  subst h
  apply State.run_frame
  intro x
  repeat' split
  all_goals simp

/-! ## Machine/Power.lean -/

@[simp] theorem State.startCore_frame (s : State) (c : Nat) (j : Job) :
    (State.startCore s c j).pending = s.pending ∧ (State.startCore s c j).clk = s.clk ∧
    (State.startCore s c j).otp.lcw = s.otp.lcw := by
  simp [State.startCore]

@[simp] theorem State.startOn_frame (s : State) (j : Job) :
    (State.startOn s j).pending = s.pending ∧ (State.startOn s j).clk = s.clk ∧
    (State.startOn s j).otp.lcw = s.otp.lcw := by
  unfold State.startOn
  split <;> simp

theorem State.takeTransient_frame (s : State) (j : Job) {s' : State} (h : State.takeTransient s j = some s') :
    s'.pending = s.pending ∧ s'.clk = s.clk ∧ s'.otp.lcw = s.otp.lcw := by
  (unfold State.takeTransient at h; (repeat' (first | split at h | (dsimp only at h; split at h))) <;>
    first | (simp only [reduceCtorEq] at h; done) | (simp only [Except.ok.injEq, Prod.mk.injEq, Option.some.injEq, Host.Outcome.next.injEq] at h; (first | subst h | (obtain ⟨rfl, -⟩ := h) | (obtain ⟨-, rfl⟩ := h)); (first | (simp; done) | (simp_all; done) | grind [State.allocKey_frame, State.updJob_frame])))

@[simp] theorem State.granted_frame (s : State) (r : FReq) :
    (State.granted s r).pending = s.pending ∧ (State.granted s r).clk = s.clk ∧
    (State.granted s r).otp.lcw = s.otp.lcw := by
  (grind [State.granted, State.takeTransient_frame, State.failJob_frame, State.updJob_frame, State.flowAll_frame, State.startOn_frame, State.dispatchAll_frame, State.updLath_frame, State.checkEnables_frame])

theorem execFloatGrant_frame (s : State) {s' : State} (h : execFloatGrant s = .next s') :
    s'.pending = s.pending ∧ s'.clk = s.clk ∧ s'.otp.lcw = s.otp.lcw := by
  unfold execFloatGrant at h
  repeat' split at h
  all_goals (rw [Host.Outcome.next.injEq] at h; subst h; simp)

theorem execRevokeAck_frame (hd : Holder) (s : State) {s' : State} (h : execRevokeAck hd s = .next s') :
    s'.pending = s.pending ∧ s'.clk = s.clk ∧ s'.otp.lcw = s.otp.lcw := by
  unfold execRevokeAck at h
  dsimp only at h
  repeat' split at h
  all_goals (rw [Host.Outcome.next.injEq] at h; subst h; simp)

theorem execFltRevokeLate_frame (hd : Holder) (s : State) {s' : State} (h : execFltRevokeLate hd s = .next s') :
    s'.pending = s.pending ∧ s'.clk = s.clk ∧ s'.otp.lcw = s.otp.lcw := by
  unfold execFltRevokeLate at h
  split at h <;> (rw [Host.Outcome.next.injEq] at h; subst h; simp)

theorem execFltLimitAssert_frame (s : State) {s' : State} (h : execFltLimitAssert s = .next s') :
    s'.pending = s.pending ∧ s'.clk = s.clk ∧ s'.otp.lcw = s.otp.lcw := by
  unfold execFltLimitAssert at h
  split at h <;> (rw [Host.Outcome.next.injEq] at h; subst h; simp)

theorem execFltLimitDeassert_frame (s : State) {s' : State} (h : execFltLimitDeassert s = .next s') :
    s'.pending = s.pending ∧ s'.clk = s.clk ∧ s'.otp.lcw = s.otp.lcw := by
  unfold execFltLimitDeassert at h
  split at h <;> (rw [Host.Outcome.next.injEq] at h; subst h; simp)

theorem execFltOverdraw_frame (hd : Holder) (s : State) {s' : State} (h : execFltOverdraw hd s = .next s') :
    s'.pending = s.pending ∧ s'.clk = s.clk ∧ s'.otp.lcw = s.otp.lcw := by
  unfold execFltOverdraw at h
  split at h <;> (rw [Host.Outcome.next.injEq] at h; subst h; simp)

@[simp] theorem State.thermalCap_frame (s : State) :
    (State.thermalCap s).pending = s.pending ∧ (State.thermalCap s).clk = s.clk ∧
    (State.thermalCap s).otp.lcw = s.otp.lcw := by
  unfold State.thermalCap
  split <;> simp

theorem execTjWarn_frame (s : State) {s' : State} (h : execTjWarn s = .next s') :
    s'.pending = s.pending ∧ s'.clk = s.clk ∧ s'.otp.lcw = s.otp.lcw := by
  unfold execTjWarn at h
  split at h <;> (rw [Host.Outcome.next.injEq] at h; subst h; simp)

theorem execTjCrit_frame (s : State) {s' : State} (h : execTjCrit s = .next s') :
    s'.pending = s.pending ∧ s'.clk = s.clk ∧ s'.otp.lcw = s.otp.lcw := by
  unfold execTjCrit at h
  split at h <;> (rw [Host.Outcome.next.injEq] at h; subst h; simp)

theorem execThermalCapLift_frame (s : State) {s' : State} (h : execThermalCapLift s = .next s') :
    s'.pending = s.pending ∧ s'.clk = s.clk ∧ s'.otp.lcw = s.otp.lcw := by
  unfold execThermalCapLift at h
  split at h <;> (rw [Host.Outcome.next.injEq] at h; subst h; simp)

theorem execPhaseFault_frame (s : State) {s' : State} (h : execPhaseFault s = .next s') :
    s'.pending = s.pending ∧ s'.clk = s.clk ∧ s'.otp.lcw = s.otp.lcw := by
  unfold execPhaseFault at h
  dsimp only at h
  repeat' split at h
  all_goals (rw [Host.Outcome.next.injEq] at h; subst h; simp)

theorem execRailOor_frame (page : Nat) (s : State) {s' : State} (h : execRailOor page s = .next s') :
    s'.pending = s.pending ∧ s'.clk = s.clk ∧ s'.otp.lcw = s.otp.lcw := by
  unfold execRailOor at h
  split at h <;> (rw [Host.Outcome.next.injEq] at h; subst h; simp)

theorem execRootUnlock_frame (refclk : Bool) (s : State) {s' : State} (h : execRootUnlock refclk s = .next s') :
    s'.pending = s.pending ∧ s'.clk = s.clk ∧ s'.otp.lcw = s.otp.lcw := by
  unfold execRootUnlock at h
  split at h <;> (rw [Host.Outcome.next.injEq] at h; subst h; simp)

@[simp] theorem State.faultPort_frame (s : State) (p : Nat) :
    (State.faultPort s p).pending = s.pending ∧ (State.faultPort s p).clk = s.clk ∧
    (State.faultPort s p).otp.lcw = s.otp.lcw := by
  simp [State.faultPort]

@[simp] theorem faultPorts_frame (x0 : List Nat) (s : State) :
    (faultPorts x0 s).pending = s.pending ∧ (faultPorts x0 s).clk = s.clk ∧
    (faultPorts x0 s).otp.lcw = s.otp.lcw := by
  (fun_induction faultPorts x0 s <;> simp_all; done)

theorem execSdUnlock_frame (k : Nat) (s : State) {s' : State} (h : execSdUnlock k s = .next s') :
    s'.pending = s.pending ∧ s'.clk = s.clk ∧ s'.otp.lcw = s.otp.lcw := by
  unfold execSdUnlock at h
  split at h <;> (rw [Host.Outcome.next.injEq] at h; subst h; simp)

theorem execPcieRefclkLoss_frame (s : State) {s' : State} (h : execPcieRefclkLoss s = .next s') :
    s'.pending = s.pending ∧ s'.clk = s.clk ∧ s'.otp.lcw = s.otp.lcw := by
  unfold execPcieRefclkLoss at h
  split at h <;> (rw [Host.Outcome.next.injEq] at h; subst h; simp)

theorem execVinWarn_frame (s : State) {s' : State} (h : execVinWarn s = .next s') :
    s'.pending = s.pending ∧ s'.clk = s.clk ∧ s'.otp.lcw = s.otp.lcw := by
  unfold execVinWarn at h
  repeat' split at h
  all_goals (rw [Host.Outcome.next.injEq] at h; subst h; simp)

theorem execVinRecovery_frame (s : State) {s' : State} (h : execVinRecovery s = .next s') :
    s'.pending = s.pending ∧ s'.clk = s.clk := by
  unfold execVinRecovery at h
  split at h <;> (rw [Host.Outcome.next.injEq] at h; subst h; simp)

theorem execIdleEntry_frame (s : State) {s' : State} (h : execIdleEntry s = .next s') :
    s'.pending = s.pending ∧ s'.clk = s.clk ∧ s'.otp.lcw = s.otp.lcw := by
  unfold execIdleEntry at h
  split at h <;> (rw [Host.Outcome.next.injEq] at h; subst h; simp)

@[simp] theorem State.checkLimits_frame (s : State) (page : Nat) :
    (State.checkLimits s page).pending = s.pending ∧ (State.checkLimits s page).clk = s.clk ∧
    (State.checkLimits s page).otp.lcw = s.otp.lcw := by
  unfold State.checkLimits
  dsimp only
  repeat' split
  all_goals simp

theorem execTelemetrySample_frame (page mv ma : Nat) (dc : Int) (s : State) {s' : State}
    (h : execTelemetrySample page mv ma dc s = .next s') :
    s'.pending = s.pending ∧ s'.clk = s.clk ∧ s'.otp.lcw = s.otp.lcw := by
  unfold execTelemetrySample at h
  repeat' split at h
  all_goals (rw [Host.Outcome.next.injEq] at h; subst h; simp)

@[simp] theorem State.pmAnswer_frame (s : State) (b : List Byte) :
    (State.pmAnswer s b).pending = s.pending ∧ (State.pmAnswer s b).clk = s.clk ∧
    (State.pmAnswer s b).otp.lcw = s.otp.lcw := by
  simp [State.pmAnswer]

@[simp] theorem State.pmBad_frame (s : State) :
    (State.pmBad s).pending = s.pending ∧ (State.pmBad s).clk = s.clk ∧ (State.pmBad s).otp.lcw = s.otp.lcw := by
  simp [State.pmBad]

@[simp] theorem State.pmRead_frame (s : State) (op : PmOp) (inDust : Bool) (pages : List Nat) (b : List Byte) :
    (State.pmRead s op inDust pages b).pending = s.pending ∧ (State.pmRead s op inDust pages b).clk = s.clk ∧
    (State.pmRead s op inDust pages b).otp.lcw = s.otp.lcw := by
  (unfold State.pmRead; (repeat' split) <;> simp [apply_ite State.pending, apply_ite State.clk, apply_ite State.otp, apply_ite Otp.lcw]; done)

@[simp] theorem State.pmLimit_frame (s : State) (op : PmOp) (pages : List Nat) (cur : Int) (raw : Option W16)
    (lo hi : Int)
    (set : W16 → State) (hs : ∀ w, (set w).pending = s.pending ∧ (set w).clk = s.clk ∧ (set w).otp.lcw = s.otp.lcw) :
    (s.pmLimit op pages cur raw lo hi set).pending = s.pending ∧ (s.pmLimit op pages cur raw lo hi set).clk = s.clk ∧
    (s.pmLimit op pages cur raw lo hi set).otp.lcw = s.otp.lcw := by
  unfold State.pmLimit
  repeat' split
  all_goals (first | (simp; done) | simp [hs])

theorem execPmbusPage_frame (op : PmOp) (s : State) {s' : State} (h : execPmbusPage op s = .next s') :
    s'.pending = s.pending ∧ s'.clk = s.clk ∧ s'.otp.lcw = s.otp.lcw := by
  unfold execPmbusPage at h
  dsimp only at h
  repeat' split at h
  all_goals (rw [Host.Outcome.next.injEq] at h; subst h; simp)

theorem execOperation_frame (op : PmOp) (s : State) {s' : State} (h : execOperation op s = .next s') :
    s'.pending = s.pending ∧ s'.clk = s.clk ∧ s'.otp.lcw = s.otp.lcw := by
  rw [execOperation, Host.Outcome.next.injEq] at h
  subst h
  simp

@[simp] theorem State.clearPage_frame (s : State) (page : Nat) :
    (State.clearPage s page).pending = s.pending ∧ (State.clearPage s page).clk = s.clk ∧
    (State.clearPage s page).otp.lcw = s.otp.lcw := by
  unfold State.clearPage
  split <;> simp

@[simp] theorem clearPages_frame (x0 : List Nat) (s : State) :
    (clearPages x0 s).pending = s.pending ∧ (clearPages x0 s).clk = s.clk ∧
    (clearPages x0 s).otp.lcw = s.otp.lcw := by
  (fun_induction clearPages x0 s <;> simp_all; done)

theorem execClearFaults_frame (op : PmOp) (s : State) {s' : State} (h : execClearFaults op s = .next s') :
    s'.pending = s.pending ∧ s'.clk = s.clk ∧ s'.otp.lcw = s.otp.lcw := by
  unfold execClearFaults at h
  repeat' split at h
  all_goals (rw [Host.Outcome.next.injEq] at h; subst h; simp)

theorem execCapability_frame (op : PmOp) (s : State) {s' : State} (h : execCapability op s = .next s') :
    s'.pending = s.pending ∧ s'.clk = s.clk ∧ s'.otp.lcw = s.otp.lcw := by
  rw [execCapability, Host.Outcome.next.injEq] at h
  subst h
  simp

theorem execVoutMode_frame (op : PmOp) (s : State) {s' : State} (h : execVoutMode op s = .next s') :
    s'.pending = s.pending ∧ s'.clk = s.clk ∧ s'.otp.lcw = s.otp.lcw := by
  rw [execVoutMode, Host.Outcome.next.injEq] at h
  subst h
  simp

@[simp] theorem State.putOc_frame (s : State) (w : W16) :
    (State.putOc s w).pending = s.pending ∧ (State.putOc s w).clk = s.clk ∧
    (State.putOc s w).otp.lcw = s.otp.lcw := by
  simp [State.putOc]

@[simp] theorem State.putOt_frame (s : State) (w : W16) :
    (State.putOt s w).pending = s.pending ∧ (State.putOt s w).clk = s.clk ∧
    (State.putOt s w).otp.lcw = s.otp.lcw := by
  simp [State.putOt]

theorem execIoutOcWarnLimit_frame (op : PmOp) (s : State) {s' : State} (h : execIoutOcWarnLimit op s = .next s') :
    s'.pending = s.pending ∧ s'.clk = s.clk ∧ s'.otp.lcw = s.otp.lcw := by
  rw [execIoutOcWarnLimit, Host.Outcome.next.injEq] at h; subst h
  exact State.pmLimit_frame _ _ _ _ _ _ _ _ (by simp)

theorem execOtWarnLimit_frame (op : PmOp) (s : State) {s' : State} (h : execOtWarnLimit op s = .next s') :
    s'.pending = s.pending ∧ s'.clk = s.clk ∧ s'.otp.lcw = s.otp.lcw := by
  rw [execOtWarnLimit, Host.Outcome.next.injEq] at h; subst h
  exact State.pmLimit_frame _ _ _ _ _ _ _ _ (by simp)

@[simp] theorem State.putOv_frame (s : State) (w : W16) :
    (State.putOv s w).pending = s.pending ∧ (State.putOv s w).clk = s.clk ∧
    (State.putOv s w).otp.lcw = s.otp.lcw := by
  simp [State.putOv]

@[simp] theorem State.putUv_frame (s : State) (w : W16) :
    (State.putUv s w).pending = s.pending ∧ (State.putUv s w).clk = s.clk ∧
    (State.putUv s w).otp.lcw = s.otp.lcw := by
  simp [State.putUv]

theorem execVinOvWarnLimit_frame (op : PmOp) (s : State) {s' : State} (h : execVinOvWarnLimit op s = .next s') :
    s'.pending = s.pending ∧ s'.clk = s.clk ∧ s'.otp.lcw = s.otp.lcw := by
  rw [execVinOvWarnLimit, Host.Outcome.next.injEq] at h; subst h
  exact State.pmLimit_frame _ _ _ _ _ _ _ _ (by simp)

theorem execVinUvWarnLimit_frame (op : PmOp) (s : State) {s' : State} (h : execVinUvWarnLimit op s = .next s') :
    s'.pending = s.pending ∧ s'.clk = s.clk ∧ s'.otp.lcw = s.otp.lcw := by
  rw [execVinUvWarnLimit, Host.Outcome.next.injEq] at h; subst h
  exact State.pmLimit_frame _ _ _ _ _ _ _ _ (by simp)

theorem execStatusByte_frame (op : PmOp) (s : State) {s' : State} (h : execStatusByte op s = .next s') :
    s'.pending = s.pending ∧ s'.clk = s.clk ∧ s'.otp.lcw = s.otp.lcw := by
  rw [execStatusByte, Host.Outcome.next.injEq] at h
  subst h
  simp

theorem execStatusWord_frame (op : PmOp) (s : State) {s' : State} (h : execStatusWord op s = .next s') :
    s'.pending = s.pending ∧ s'.clk = s.clk ∧ s'.otp.lcw = s.otp.lcw := by
  rw [execStatusWord, Host.Outcome.next.injEq] at h
  subst h
  simp

theorem execStatusVout_frame (op : PmOp) (s : State) {s' : State} (h : execStatusVout op s = .next s') :
    s'.pending = s.pending ∧ s'.clk = s.clk ∧ s'.otp.lcw = s.otp.lcw := by
  rw [execStatusVout, Host.Outcome.next.injEq] at h
  subst h
  simp

theorem execStatusIout_frame (op : PmOp) (s : State) {s' : State} (h : execStatusIout op s = .next s') :
    s'.pending = s.pending ∧ s'.clk = s.clk ∧ s'.otp.lcw = s.otp.lcw := by
  rw [execStatusIout, Host.Outcome.next.injEq] at h
  subst h
  simp

theorem execStatusInput_frame (op : PmOp) (s : State) {s' : State} (h : execStatusInput op s = .next s') :
    s'.pending = s.pending ∧ s'.clk = s.clk ∧ s'.otp.lcw = s.otp.lcw := by
  rw [execStatusInput, Host.Outcome.next.injEq] at h
  subst h
  simp

theorem execStatusTemperature_frame (op : PmOp) (s : State) {s' : State} (h : execStatusTemperature op s = .next s') :
    s'.pending = s.pending ∧ s'.clk = s.clk ∧ s'.otp.lcw = s.otp.lcw := by
  rw [execStatusTemperature, Host.Outcome.next.injEq] at h
  subst h
  simp

theorem execStatusMfrSpecific_frame (op : PmOp) (s : State) {s' : State} (h : execStatusMfrSpecific op s = .next s') :
    s'.pending = s.pending ∧ s'.clk = s.clk ∧ s'.otp.lcw = s.otp.lcw := by
  rw [execStatusMfrSpecific, Host.Outcome.next.injEq] at h
  subst h
  simp

theorem execReadVin_frame (op : PmOp) (s : State) {s' : State} (h : execReadVin op s = .next s') :
    s'.pending = s.pending ∧ s'.clk = s.clk ∧ s'.otp.lcw = s.otp.lcw := by
  rw [execReadVin, Host.Outcome.next.injEq] at h
  subst h
  simp

theorem execReadIin_frame (op : PmOp) (s : State) {s' : State} (h : execReadIin op s = .next s') :
    s'.pending = s.pending ∧ s'.clk = s.clk ∧ s'.otp.lcw = s.otp.lcw := by
  rw [execReadIin, Host.Outcome.next.injEq] at h
  subst h
  simp

theorem execReadVout_frame (op : PmOp) (s : State) {s' : State} (h : execReadVout op s = .next s') :
    s'.pending = s.pending ∧ s'.clk = s.clk ∧ s'.otp.lcw = s.otp.lcw := by
  rw [execReadVout, Host.Outcome.next.injEq] at h
  subst h
  simp

theorem execReadIout_frame (op : PmOp) (s : State) {s' : State} (h : execReadIout op s = .next s') :
    s'.pending = s.pending ∧ s'.clk = s.clk ∧ s'.otp.lcw = s.otp.lcw := by
  rw [execReadIout, Host.Outcome.next.injEq] at h
  subst h
  simp

theorem execReadTemperature1_frame (op : PmOp) (s : State) {s' : State} (h : execReadTemperature1 op s = .next s') :
    s'.pending = s.pending ∧ s'.clk = s.clk ∧ s'.otp.lcw = s.otp.lcw := by
  rw [execReadTemperature1, Host.Outcome.next.injEq] at h
  subst h
  simp

theorem execReadPout_frame (op : PmOp) (s : State) {s' : State} (h : execReadPout op s = .next s') :
    s'.pending = s.pending ∧ s'.clk = s.clk ∧ s'.otp.lcw = s.otp.lcw := by
  rw [execReadPout, Host.Outcome.next.injEq] at h
  subst h
  simp

theorem execReadPin_frame (op : PmOp) (s : State) {s' : State} (h : execReadPin op s = .next s') :
    s'.pending = s.pending ∧ s'.clk = s.clk ∧ s'.otp.lcw = s.otp.lcw := by
  rw [execReadPin, Host.Outcome.next.injEq] at h
  subst h
  simp

theorem execPmbusRevision_frame (op : PmOp) (s : State) {s' : State} (h : execPmbusRevision op s = .next s') :
    s'.pending = s.pending ∧ s'.clk = s.clk ∧ s'.otp.lcw = s.otp.lcw := by
  rw [execPmbusRevision, Host.Outcome.next.injEq] at h
  subst h
  simp

theorem execMfrId_frame (op : PmOp) (s : State) {s' : State} (h : execMfrId op s = .next s') :
    s'.pending = s.pending ∧ s'.clk = s.clk ∧ s'.otp.lcw = s.otp.lcw := by
  rw [execMfrId, Host.Outcome.next.injEq] at h
  subst h
  simp

theorem execMfrModel_frame (op : PmOp) (s : State) {s' : State} (h : execMfrModel op s = .next s') :
    s'.pending = s.pending ∧ s'.clk = s.clk ∧ s'.otp.lcw = s.otp.lcw := by
  rw [execMfrModel, Host.Outcome.next.injEq] at h
  subst h
  simp

theorem execAlertResponse_frame (s : State) {s' : State} (h : execAlertResponse s = .next s') :
    s'.pending = s.pending ∧ s'.clk = s.clk ∧ s'.otp.lcw = s.otp.lcw := by
  unfold execAlertResponse at h
  split at h <;> (rw [Host.Outcome.next.injEq] at h; subst h; simp)

theorem execPwrTelemetry_frame (hd : Hdr) (rail : Nat) (s : State) {s' : State}
    (h : execPwrTelemetry hd rail s = .next s') :
    s'.pending = s.pending ∧ s'.clk = s.clk ∧ s'.otp.lcw = s.otp.lcw := by
  rw [execPwrTelemetry, Host.Outcome.next.injEq] at h
  subst h
  apply State.run_frame
  intro x
  repeat' split
  all_goals simp

theorem execPwrState_frame (hd : Hdr) (profile target ms : Nat) (s : State) {s' : State}
    (h : execPwrState hd profile target ms s = .next s') :
    s'.pending = s.pending ∧ s'.clk = s.clk ∧ s'.otp.lcw = s.otp.lcw := by
  rw [execPwrState, Host.Outcome.next.injEq] at h
  subst h
  apply State.run_frame
  intro x
  repeat' split
  all_goals simp

@[simp] theorem State.wake_frame (s : State) (b : Nat) :
    (State.wake s b).pending = s.pending ∧ (State.wake s b).clk = s.clk ∧ (State.wake s b).otp.lcw = s.otp.lcw := by
  unfold State.wake
  split <;> simp

theorem execPwrWake_frame (hd : Hdr) (alarm : W64) (s : State) {s' : State} (h : execPwrWake hd alarm s = .next s') :
    s'.pending = s.pending ∧ s'.clk = s.clk ∧ s'.otp.lcw = s.otp.lcw := by
  rw [execPwrWake, Host.Outcome.next.injEq] at h
  subst h
  apply State.run_frame
  intro x
  dsimp only
  repeat' split
  all_goals simp

theorem execWakeN_frame (s : State) {s' : State} (h : execWakeN s = .next s') :
    s'.pending = s.pending ∧ s'.clk = s.clk ∧ s'.otp.lcw = s.otp.lcw := by
  rw [execWakeN, Host.Outcome.next.injEq] at h
  subst h
  simp

theorem execRtcAlarm_frame (s : State) {s' : State} (h : execRtcAlarm s = .next s') :
    s'.pending = s.pending ∧ s'.clk = s.clk ∧ s'.otp.lcw = s.otp.lcw := by
  unfold execRtcAlarm at h
  split at h <;> (rw [Host.Outcome.next.injEq] at h; subst h; simp)

/-! ## Machine/Firmware.lean -/

@[simp] theorem State.noteCheck_frame (s : State) (k : Nat) (ok : Bool) (ver : W32) :
    (State.noteCheck s k ok ver).pending = s.pending ∧ (State.noteCheck s k ok ver).clk = s.clk ∧
    (State.noteCheck s k ok ver).otp.lcw = s.otp.lcw := by
  unfold State.noteCheck
  dsimp only
  repeat' split
  all_goals simp

@[simp] theorem State.putSlot_frame (s : State) (k : Nat) (i : Option Image) :
    (State.putSlot s k i).pending = s.pending ∧ (State.putSlot s k i).clk = s.clk ∧
    (State.putSlot s k i).otp.lcw = s.otp.lcw := by
  unfold State.putSlot
  split <;> simp

@[simp] theorem State.writeBoot_frame (s : State) (g : BootRec → BootRec) :
    (State.writeBoot s g).pending = s.pending ∧ (State.writeBoot s g).clk = s.clk ∧
    (State.writeBoot s g).otp.lcw = s.otp.lcw := by
  simp [State.writeBoot]

@[simp] theorem State.raisePutty_frame (s : State) (ver : W32) :
    (State.raisePutty s ver).pending = s.pending ∧ (State.raisePutty s ver).clk = s.clk ∧
    (State.raisePutty s ver).otp.lcw = s.otp.lcw := by
  unfold State.raisePutty
  dsimp only
  repeat' split
  all_goals simp

theorem execFwInfo_frame (hd : Hdr) (s : State) {s' : State} (h : execFwInfo hd s = .next s') :
    s'.pending = s.pending ∧ s'.clk = s.clk ∧ s'.otp.lcw = s.otp.lcw := by
  rw [execFwInfo, Host.Outcome.next.injEq] at h
  subst h
  apply State.run_frame
  intro x
  repeat' split
  all_goals simp

theorem execFwStage_frame (hd : Hdr) (image : Nat) (buf : Buf) (ok : Bool) (s : State) {s' : State}
    (h : execFwStage hd image buf ok s = .next s') :
    s'.pending = s.pending ∧ s'.clk = s.clk ∧ s'.otp.lcw = s.otp.lcw := by
  rw [execFwStage, Host.Outcome.next.injEq] at h
  subst h
  apply State.run_frame
  intro x
  repeat' split
  all_goals simp

theorem execFwActivate_frame (hd : Hdr) (image : Nat) (s : State) {s' : State}
    (h : execFwActivate hd image s = .next s') :
    s'.pending = s.pending ∧ s'.clk = s.clk ∧ s'.otp.lcw = s.otp.lcw := by
  rw [execFwActivate, Host.Outcome.next.injEq] at h
  subst h
  apply State.run_frame
  intro x
  repeat' split
  all_goals simp

theorem execFwPutty_frame (hd : Hdr) (buf : Buf) (s : State) {s' : State} (h : execFwPutty hd buf s = .next s') :
    s'.pending = s.pending ∧ s'.clk = s.clk ∧ s'.otp.lcw = s.otp.lcw := by
  rw [execFwPutty, Host.Outcome.next.injEq] at h
  subst h
  apply State.run_frame
  intro x
  repeat' split
  all_goals simp

theorem execFwRecover_frame (hd : Hdr) (buf : Buf) (ok : Bool) (s : State) {s' : State}
    (h : execFwRecover hd buf ok s = .next s') :
    s'.pending = s.pending ∧ s'.clk = s.clk ∧ s'.otp.lcw = s.otp.lcw := by
  rw [execFwRecover, Host.Outcome.next.injEq] at h
  subst h
  apply State.run_frame
  intro x
  repeat' split
  all_goals simp

/-! ## Machine/Life.lean -/

theorem execLcyStatusCmd_frame (hd : Hdr) (s : State) {s' : State} (h : execLcyStatusCmd hd s = .next s') :
    s'.pending = s.pending ∧ s'.clk = s.clk ∧ s'.otp.lcw = s.otp.lcw := by
  rw [execLcyStatusCmd, Host.Outcome.next.injEq] at h
  subst h
  apply State.run_frame
  intro x
  repeat' split
  all_goals simp

theorem execLcyAdvance_frame (h : Hdr) (buf : Buf) (wordFails candFails : Nat) (s : State) {s' : State}
    (hx : execLcyAdvance h buf wordFails candFails s = .next s') : s'.pending = s.pending ∧ s'.clk = s.clk := by
  rw [execLcyAdvance, Host.Outcome.next.injEq] at hx
  subst hx
  apply State.run_keeps
  intro x
  repeat' split
  all_goals simp

@[simp] theorem endAllJobs_frame (x0 : List Job) (s : State) :
    (endAllJobs x0 s).pending = s.pending ∧ (endAllJobs x0 s).clk = s.clk ∧
    (endAllJobs x0 s).otp.lcw = s.otp.lcw := by
  (fun_induction endAllJobs x0 s <;> grind [State.failJob_frame])

@[simp] theorem State.stopGrit_frame (s : State) :
    (State.stopGrit s).pending = s.pending ∧ (State.stopGrit s).clk = s.clk ∧
    (State.stopGrit s).otp.lcw = s.otp.lcw := by
  simp [State.stopGrit]

@[simp] theorem State.prepareScope_frame (s : State) (scan : Bool) :
    (State.prepareScope s scan).pending = s.pending ∧ (State.prepareScope s scan).clk = s.clk ∧
    (State.prepareScope s scan).otp.lcw = s.otp.lcw := by
  unfold State.prepareScope
  split <;> simp

theorem execLcyDebug_frame (hd : Hdr) (token : Buf) (s : State) {s' : State}
    (h : execLcyDebug hd token s = .next s') :
    s'.pending = s.pending ∧ s'.clk = s.clk ∧ s'.otp.lcw = s.otp.lcw := by
  rw [execLcyDebug, Host.Outcome.next.injEq] at h
  subst h
  apply State.run_frame
  intro x
  repeat' split
  all_goals (try (simp [State.rejectToken]; done))
  all_goals (dsimp only; repeat' split)
  all_goals simp

theorem execDebugExpire_frame (s : State) {s' : State} (h : execDebugExpire s = .next s') :
    s'.pending = s.pending ∧ s'.clk = s.clk ∧ s'.otp.lcw = s.otp.lcw := by
  unfold execDebugExpire at h
  split at h <;> (rw [Host.Outcome.next.injEq] at h; subst h; simp)

theorem State.resumeDus_frame (s : State) (c : Nat) {s' : State} {r : Nat} (h : s.resumeDus c = some (s', r)) :
    s'.pending = s.pending ∧ s'.clk = s.clk ∧ s'.otp.lcw = s.otp.lcw := by
  unfold State.resumeDus at h
  split at h
  · rw [Option.some.injEq, Prod.mk.injEq] at h; obtain ⟨rfl, -⟩ := h; simp
  · have g := programDus_frame _ _ h
    simpa [Otp.setCand] using g

@[simp] theorem State.resumeCommit_frame (s : State) (src dst word cand : Nat) :
    (State.resumeCommit s src dst word cand).pending = s.pending ∧
    (State.resumeCommit s src dst word cand).clk = s.clk ∧
    (State.resumeCommit s src dst word cand).otp.lcw = s.otp.lcw := by
  unfold State.resumeCommit
  dsimp only
  repeat' split
  all_goals simp

theorem State.resumeLife_frame (s : State) {s' : State} (h : s.resumeLife = some s') :
    s'.pending = s.pending ∧ s'.clk = s.clk := by
  unfold State.resumeLife at h
  dsimp only at h
  split at h
  · rw [Option.some.injEq] at h; subst h; simp
  · split at h
    · cases h
    · rename_i s1 c e
      have k : s1.pending = s.pending ∧ s1.clk = s.clk := by
        split at e
        · rw [Option.map_eq_some_iff] at e
          obtain ⟨⟨x, y⟩, e, f⟩ := e
          rw [Prod.mk.injEq] at f
          obtain ⟨rfl, -⟩ := f
          have g := State.resumeDus_frame _ _ e
          exact ⟨by simpa using g.1, by simpa using g.2.1⟩
        · rw [Option.some.injEq, Prod.mk.injEq] at e
          obtain ⟨rfl, -⟩ := e
          simp
      have g := State.lifeTail_frame _ _ _ _ _ _ h
      rw [g.1, g.2, ← k.1, ← k.2]
      split <;> simp

@[simp] theorem State.jtagSel_frame (s : State) (ir : Byte) (drive : Nat) (tdo : W32) (dbg : Option Nat) :
    (State.jtagSel s ir drive tdo dbg).pending = s.pending ∧ (State.jtagSel s ir drive tdo dbg).clk = s.clk ∧
    (State.jtagSel s ir drive tdo dbg).otp.lcw = s.otp.lcw := by
  unfold State.jtagSel
  split <;> simp

theorem execJIdcode_frame (s : State) {s' : State} (h : execJIdcode s = .next s') :
    s'.pending = s.pending ∧ s'.clk = s.clk ∧ s'.otp.lcw = s.otp.lcw := by
  rw [execJIdcode, Host.Outcome.next.injEq] at h
  subst h
  simp

theorem execJExtest_frame (s : State) {s' : State} (h : execJExtest s = .next s') :
    s'.pending = s.pending ∧ s'.clk = s.clk ∧ s'.otp.lcw = s.otp.lcw := by
  rw [execJExtest, Host.Outcome.next.injEq] at h
  subst h
  simp

theorem execJSamplePreload_frame (value : W64) (s : State) {s' : State} (h : execJSamplePreload value s = .next s') :
    s'.pending = s.pending ∧ s'.clk = s.clk ∧ s'.otp.lcw = s.otp.lcw := by
  unfold execJSamplePreload at h
  split at h <;> (rw [Host.Outcome.next.injEq] at h; subst h; simp)

theorem execJClamp_frame (s : State) {s' : State} (h : execJClamp s = .next s') :
    s'.pending = s.pending ∧ s'.clk = s.clk ∧ s'.otp.lcw = s.otp.lcw := by
  rw [execJClamp, Host.Outcome.next.injEq] at h
  subst h
  simp

theorem execJHighz_frame (s : State) {s' : State} (h : execJHighz s = .next s') :
    s'.pending = s.pending ∧ s'.clk = s.clk ∧ s'.otp.lcw = s.otp.lcw := by
  rw [execJHighz, Host.Outcome.next.injEq] at h
  subst h
  simp

@[simp] theorem State.jtagDbg_frame (s : State) (b : Nat) :
    (State.jtagDbg s b).pending = s.pending ∧ (State.jtagDbg s b).clk = s.clk ∧
    (State.jtagDbg s b).otp.lcw = s.otp.lcw := by
  simp [State.jtagDbg]

theorem execJDbgHalt_frame (s : State) {s' : State} (h : execJDbgHalt s = .next s') :
    s'.pending = s.pending ∧ s'.clk = s.clk ∧ s'.otp.lcw = s.otp.lcw := by
  rw [execJDbgHalt, Host.Outcome.next.injEq] at h
  subst h
  simp

theorem execJDbgDiag_frame (s : State) {s' : State} (h : execJDbgDiag s = .next s') :
    s'.pending = s.pending ∧ s'.clk = s.clk ∧ s'.otp.lcw = s.otp.lcw := by
  rw [execJDbgDiag, Host.Outcome.next.injEq] at h
  subst h
  simp

theorem execJDbgTrace_frame (s : State) {s' : State} (h : execJDbgTrace s = .next s') :
    s'.pending = s.pending ∧ s'.clk = s.clk ∧ s'.otp.lcw = s.otp.lcw := by
  rw [execJDbgTrace, Host.Outcome.next.injEq] at h
  subst h
  simp

theorem execJDbgSerdes_frame (s : State) {s' : State} (h : execJDbgSerdes s = .next s') :
    s'.pending = s.pending ∧ s'.clk = s.clk ∧ s'.otp.lcw = s.otp.lcw := by
  rw [execJDbgSerdes, Host.Outcome.next.injEq] at h
  subst h
  simp

theorem execJDbgLstep_frame (s : State) {s' : State} (h : execJDbgLstep s = .next s') :
    s'.pending = s.pending ∧ s'.clk = s.clk ∧ s'.otp.lcw = s.otp.lcw := by
  rw [execJDbgLstep, Host.Outcome.next.injEq] at h
  subst h
  simp

theorem execJDbgMram_frame (s : State) {s' : State} (h : execJDbgMram s = .next s') :
    s'.pending = s.pending ∧ s'.clk = s.clk ∧ s'.otp.lcw = s.otp.lcw := by
  rw [execJDbgMram, Host.Outcome.next.injEq] at h
  subst h
  simp

theorem execJDbgScan_frame (s : State) {s' : State} (h : execJDbgScan s = .next s') :
    s'.pending = s.pending ∧ s'.clk = s.clk ∧ s'.otp.lcw = s.otp.lcw := by
  rw [execJDbgScan, Host.Outcome.next.injEq] at h
  subst h
  simp

theorem execJBypass_frame (s : State) {s' : State} (h : execJBypass s = .next s') :
    s'.pending = s.pending ∧ s'.clk = s.clk ∧ s'.otp.lcw = s.otp.lcw := by
  rw [execJBypass, Host.Outcome.next.injEq] at h
  subst h
  simp

/-! ## Machine/Tamper.lean -/

@[simp] theorem State.mirror_frame (s : State) :
    (State.mirror s).pending = s.pending ∧ (State.mirror s).clk = s.clk ∧ (State.mirror s).otp.lcw = s.otp.lcw := by
  simp [State.mirror]

@[simp] theorem State.flagAlarm_frame (s : State) (i : Nat) :
    (State.flagAlarm s i).pending = s.pending ∧ (State.flagAlarm s i).clk = s.clk ∧
    (State.flagAlarm s i).otp.lcw = s.otp.lcw := by
  simp [State.flagAlarm]

@[simp] theorem State.eraseFor_frame (s : State) (i : Nat) :
    (State.eraseFor s i).pending = s.pending ∧ (State.eraseFor s i).clk = s.clk ∧
    (State.eraseFor s i).otp.lcw = s.otp.lcw := by
  unfold State.eraseFor
  split <;> simp

@[simp] theorem State.carryOut_frame (s : State) (i : Nat) (power : Nat) :
    (State.carryOut s i power).pending = s.pending ∧ (State.carryOut s i power).clk = s.clk ∧
    (State.carryOut s i power).otp.lcw = s.otp.lcw := by
  unfold State.carryOut
  dsimp only
  repeat' split
  all_goals simp

@[simp] theorem State.alarm_frame (s : State) (i : Nat) :
    (State.alarm s i).pending = s.pending ∧ (State.alarm s i).clk = s.clk ∧
    (State.alarm s i).otp.lcw = s.otp.lcw := by
  unfold State.alarm
  dsimp only
  repeat' split
  all_goals simp

theorem execTamperAlarm_frame (i : Nat) (stays : Bool) (s : State) {s' : State}
    (h : execTamperAlarm i stays s = .next s') :
    s'.pending = s.pending ∧ s'.clk = s.clk ∧ s'.otp.lcw = s.otp.lcw := by
  unfold execTamperAlarm at h
  split at h <;> (rw [Host.Outcome.next.injEq] at h; subst h; simp)

theorem execTmpStatusCmd_frame (hd : Hdr) (s : State) {s' : State} (h : execTmpStatusCmd hd s = .next s') :
    s'.pending = s.pending ∧ s'.clk = s.clk ∧ s'.otp.lcw = s.otp.lcw := by
  rw [execTmpStatusCmd, Host.Outcome.next.injEq] at h
  subst h
  apply State.run_frame
  intro x
  repeat' split
  all_goals simp

@[simp] theorem State.applyClear_frame (s : State) (r : List Byte) :
    (State.applyClear s r).pending = s.pending ∧ (State.applyClear s r).clk = s.clk ∧
    (State.applyClear s r).otp.lcw = s.otp.lcw := by
  simp [State.applyClear]

theorem execTmpClear_frame (hd : Hdr) (buf : Buf) (ok : Bool) (s : State) {s' : State}
    (h : execTmpClear hd buf ok s = .next s') :
    s'.pending = s.pending ∧ s'.clk = s.clk ∧ s'.otp.lcw = s.otp.lcw := by
  rw [execTmpClear, Host.Outcome.next.injEq] at h
  subst h
  apply State.run_frame
  intro x
  repeat' split
  all_goals simp

theorem execTmpTest_frame (hd : Hdr) (source : Nat) (detected after : Bool) (s : State) {s' : State}
    (h : execTmpTest hd source detected after s = .next s') :
    s'.pending = s.pending ∧ s'.clk = s.clk ∧ s'.otp.lcw = s.otp.lcw := by
  rw [execTmpTest, Host.Outcome.next.injEq] at h
  subst h
  apply State.run_frame
  intro x
  dsimp only
  repeat' split
  all_goals simp

/-! ## Machine/Boot.lean -/

@[simp] theorem State.computeReset_frame (s : State) (st : PowerSt) :
    (State.computeReset s st).pending = s.pending ∧ (State.computeReset s st).clk = s.clk ∧
    (State.computeReset s st).otp.lcw = s.otp.lcw := by
  simp [State.computeReset]

@[simp] theorem State.putLog_frame (s : State) (r : LogRec) :
    (State.putLog s r).pending = s.pending ∧ (State.putLog s r).clk = s.clk ∧
    (State.putLog s r).otp.lcw = s.otp.lcw := by
  simp [State.putLog]

@[simp] theorem State.holdLog_frame (s : State) (reason : Nat) :
    (State.holdLog s reason).pending = s.pending ∧ (State.holdLog s reason).clk = s.clk ∧
    (State.holdLog s reason).otp.lcw = s.otp.lcw := by
  simp [State.holdLog]

@[simp] theorem State.failedStart_frame (s : State) (reason : W16) :
    (State.failedStart s reason).pending = s.pending ∧ (State.failedStart s reason).clk = s.clk ∧
    (State.failedStart s reason).otp.lcw = s.otp.lcw := by
  simp [State.failedStart]

@[simp] theorem State.enterUndercoat_frame (s : State) (reason : W16) :
    (State.enterUndercoat s reason).pending = s.pending ∧ (State.enterUndercoat s reason).clk = s.clk ∧
    (State.enterUndercoat s reason).otp.lcw = s.otp.lcw := by
  simp [State.enterUndercoat]

@[simp] theorem State.atStep_frame (s : State) (n : Nat) :
    (State.atStep s n).pending = s.pending ∧ (State.atStep s n).clk = s.clk ∧
    (State.atStep s n).otp.lcw = s.otp.lcw := by
  simp [State.atStep]

@[simp] theorem State.tryStep_frame (s : State) (inp : StartIn) (n : Nat) (reason : W16) :
    (match State.tryStep s inp n reason with | .ok t => t | .error t => t).pending = s.pending ∧
    (match State.tryStep s inp n reason with | .ok t => t | .error t => t).clk = s.clk ∧
    (match State.tryStep s inp n reason with | .ok t => t | .error t => t).otp.lcw = s.otp.lcw := by
  (grind [State.tryStep, State.atStep_frame, State.fail_frame, State.failedStart_frame])

@[simp] theorem State.seamUp_frame (s : State) :
    (State.seamUp s).pending = s.pending ∧ (State.seamUp s).clk = s.clk ∧ (State.seamUp s).otp.lcw = s.otp.lcw := by
  simp [State.seamUp]

@[simp] theorem State.scrapStart_frame (s : State) :
    (State.scrapStart s).pending = s.pending ∧ (State.scrapStart s).clk = s.clk ∧
    (State.scrapStart s).otp.lcw = s.otp.lcw := by
  simp [State.scrapStart]

@[simp] theorem State.readOtp_frame (s : State) :
    (State.readOtp s).1.pending = s.pending ∧ (State.readOtp s).1.clk = s.clk ∧
    (State.readOtp s).1.otp.lcw = s.otp.lcw := by
  simp [State.readOtp]

@[simp] theorem seedAll_frame (x0 : List Nat) (x1 : Nat) (s : State) :
    (seedAll x0 x1 s).pending = s.pending ∧ (seedAll x0 x1 s).clk = s.clk ∧
    (seedAll x0 x1 s).otp.lcw = s.otp.lcw := by
  (fun_induction seedAll x0 x1 s <;> simp_all; done)

@[simp] theorem State.gritUp_frame (s : State) (inp : StartIn) :
    (State.gritUp s inp).pending = s.pending ∧ (State.gritUp s inp).clk = s.clk ∧
    (State.gritUp s inp).otp.lcw = s.otp.lcw := by
  simp [State.gritUp]

@[simp] theorem State.fillStage1_frame (s : State) :
    (State.fillStage1 s).pending = s.pending ∧ (State.fillStage1 s).clk = s.clk ∧
    (State.fillStage1 s).otp.lcw = s.otp.lcw := by
  simp [State.fillStage1]

theorem State.pickAnchor_frame (s : State) {s' : State} (h : State.pickAnchor s = some s') :
    s'.pending = s.pending ∧ s'.clk = s.clk ∧ s'.otp.lcw = s.otp.lcw := by
  (unfold State.pickAnchor at h; (repeat' (first | split at h | (dsimp only at h; split at h))) <;>
    first | (simp only [reduceCtorEq] at h; done) | (simp only [Except.ok.injEq, Prod.mk.injEq, Option.some.injEq, Host.Outcome.next.injEq] at h; (first | subst h | (obtain ⟨rfl, -⟩ := h) | (obtain ⟨-, rfl⟩ := h)); (first | (simp; done) | (simp_all; done) | grind [])))

@[simp] theorem State.restick_frame (s : State) :
    (State.restick s).pending = s.pending ∧ (State.restick s).clk = s.clk ∧
    (State.restick s).otp.lcw = s.otp.lcw := by
  simp [State.restick]

theorem State.backupUp_frame (s : State) {s' : State} (h : State.backupUp s = some s') :
    s'.pending = s.pending ∧ s'.clk = s.clk ∧ s'.otp.lcw = s.otp.lcw := by
  (unfold State.backupUp at h; (repeat' (first | split at h | (dsimp only at h; split at h))) <;>
    first | (simp only [reduceCtorEq] at h; done) | (simp only [Except.ok.injEq, Prod.mk.injEq, Option.some.injEq, Host.Outcome.next.injEq] at h; (first | subst h | (obtain ⟨rfl, -⟩ := h) | (obtain ⟨-, rfl⟩ := h)); (first | (simp; done) | (simp_all; done) | grind [State.pickAnchor_frame, State.restick_frame, State.mirror_frame, State.fillStage1_frame])))

@[simp] theorem State.fillStage2_frame (s : State) :
    (State.fillStage2 s).pending = s.pending ∧ (State.fillStage2 s).clk = s.clk ∧
    (State.fillStage2 s).otp.lcw = s.otp.lcw := by
  simp [State.fillStage2]

theorem State.bootRecUp_frame (s : State) {s' : State} (h : s.bootRecUp = some s') :
    s'.pending = s.pending ∧ s'.clk = s.clk ∧ s'.otp.lcw = s.otp.lcw := by
  have k (l : List LogRec) (x : State) := foldl_frame (fun (x : State) r => x.putLog r) (by simp) l x
  unfold State.bootRecUp at h
  dsimp only at h
  split at h
  · cases h
  · rw [Option.some.injEq] at h
    subst h
    simp only [k]
    repeat' split
    all_goals simp

@[simp] theorem State.newBkek_frame (s : State) :
    (State.newBkek s).pending = s.pending ∧ (State.newBkek s).clk = s.clk ∧
    (State.newBkek s).otp.lcw = s.otp.lcw := by
  simp [State.newBkek]

@[simp] theorem State.firstImage_frame (s : State) (counter : W64) (stamp : W32) (owner : W256) :
    (State.firstImage s counter stamp owner).pending = s.pending ∧
    (State.firstImage s counter stamp owner).clk = s.clk ∧
    (State.firstImage s counter stamp owner).otp.lcw = s.otp.lcw := by
  simp [State.firstImage]

@[simp] theorem State.reinit_frame (s : State) :
    (State.reinit s).pending = s.pending ∧ (State.reinit s).clk = s.clk ∧ (State.reinit s).otp.lcw = s.otp.lcw := by
  simp [State.reinit]

@[simp] theorem State.keysUp_frame (s : State) :
    (State.keysUp s).1.pending = s.pending ∧ (State.keysUp s).1.clk = s.clk ∧
    (State.keysUp s).1.otp.lcw = s.otp.lcw := by
  unfold State.keysUp
  dsimp only
  repeat' split
  all_goals simp

@[simp] theorem State.checkSlot_frame (s : State) (inp : StartIn) (k : Nat) :
    (State.checkSlot s inp k).1.pending = s.pending ∧ (State.checkSlot s inp k).1.clk = s.clk ∧
    (State.checkSlot s inp k).1.otp.lcw = s.otp.lcw := by
  simp [State.checkSlot]

@[simp] theorem State.tryslots_frame (s : State) (inp : StartIn) (l : List Nat) :
    (s.tryslots inp l).1.pending = s.pending ∧ (s.tryslots inp l).1.clk = s.clk ∧
    (s.tryslots inp l).1.otp.lcw = s.otp.lcw := by
  induction l generalizing s with
  | nil => simp [State.tryslots]
  | cons k t ih =>
    rw [State.tryslots]
    dsimp only
    split
    · simp
    · simp [ih]

@[simp] theorem State.selectImage_frame (s : State) (inp : StartIn) :
    (State.selectImage s inp).1.pending = s.pending ∧ (State.selectImage s inp).1.clk = s.clk ∧
    (State.selectImage s inp).1.otp.lcw = s.otp.lcw := by
  unfold State.selectImage
  dsimp only
  repeat' split
  all_goals simp

@[simp] theorem applyPlan_frame (x0 : List Nat) (s : State) :
    (applyPlan x0 s).pending = s.pending ∧ (applyPlan x0 s).clk = s.clk ∧ (applyPlan x0 s).otp.lcw = s.otp.lcw := by
  (fun_induction applyPlan x0 s <;> grind [State.setStep_frame, State.updUnit_frame, State.setUnit_frame])

@[simp] theorem State.factoryPlan_frame (s : State) :
    (State.factoryPlan s).pending = s.pending ∧ (State.factoryPlan s).clk = s.clk ∧
    (State.factoryPlan s).otp.lcw = s.otp.lcw := by
  simp [State.factoryPlan]

@[simp] theorem putReadings_frame (x0 : List (Nat × Int × Int)) (s : State) :
    (putReadings x0 s).pending = s.pending ∧ (putReadings x0 s).clk = s.clk ∧
    (putReadings x0 s).otp.lcw = s.otp.lcw := by
  (fun_induction putReadings x0 s <;> simp_all; done)

@[simp] theorem State.derateNow_frame (s : State) (u : Nat) :
    (State.derateNow s u).pending = s.pending ∧ (State.derateNow s u).clk = s.clk ∧
    (State.derateNow s u).otp.lcw = s.otp.lcw := by
  simp [State.derateNow]

@[simp] theorem State.planAtStart_frame (s : State) :
    s.planAtStart.pending = s.pending ∧ s.planAtStart.clk = s.clk ∧ s.planAtStart.otp.lcw = s.otp.lcw := by
  have k (l : List Nat) (x : State) := foldl_frame (fun (x : State) u => x.derateNow u) (by simp) l x
  simp [State.planAtStart, k]

@[simp] theorem State.startPutty_frame (s : State) (b : List Byte) :
    (s.startPutty b).pending = s.pending ∧ (s.startPutty b).clk = s.clk ∧ (s.startPutty b).otp.lcw = s.otp.lcw := by
  have k (p : Putty) (l : List Nat) (x : State) := foldl_frame (fun (x : State) n => x.updLath n p.into) (by simp) l x
  unfold State.startPutty
  repeat' split
  all_goals simp [k]

@[simp] theorem failKats_frame (x0 : List (Nat × Nat)) (s : State) :
    (failKats x0 s).pending = s.pending ∧ (failKats x0 s).clk = s.clk ∧ (failKats x0 s).otp.lcw = s.otp.lcw := by
  (fun_induction failKats x0 s <;> simp_all; done)

@[simp] theorem State.standing_frame (s : State) :
    s.standing.pending = s.pending ∧ s.standing.clk = s.clk ∧ s.standing.otp.lcw = s.otp.lcw := by
  have k (l : List Nat) (x : State) := foldl_frame (fun (x : State) i => x.carryOut i (if i = 18 then 0 else 2)) (by simp) l x
  unfold State.standing
  simp only [k]
  repeat' split
  all_goals simp

@[simp] theorem State.horrovUp_frame (s : State) (inp : StartIn) (k : Nat) :
    (State.horrovUp s inp k).pending = s.pending ∧ (State.horrovUp s inp k).clk = s.clk ∧
    (State.horrovUp s inp k).otp.lcw = s.otp.lcw := by
  unfold State.horrovUp
  dsimp only
  repeat' split
  all_goals simp

@[simp] theorem State.readyUp_frame (s : State) (inp : StartIn) :
    (State.readyUp s inp).pending = s.pending ∧ (State.readyUp s inp).clk = s.clk ∧
    (State.readyUp s inp).otp.lcw = s.otp.lcw := by
  unfold State.readyUp
  dsimp only
  repeat' split
  all_goals simp

@[simp] theorem State.boardFlash_frame (s : State) (inp : StartIn) :
    (State.boardFlash s inp).pending = s.pending ∧ (State.boardFlash s inp).clk = s.clk ∧
    (State.boardFlash s inp).otp.lcw = s.otp.lcw := by
  simp [State.boardFlash]

@[simp] theorem State.limp_frame (s : State) (inp : StartIn) (strap : Bool) :
    (State.limp s inp strap).pending = s.pending ∧ (State.limp s inp strap).clk = s.clk ∧
    (State.limp s inp strap).otp.lcw = s.otp.lcw := by
  (grind [State.limp, State.atStep_frame, State.enterUndercoat_frame, State.failedStart_frame, State.backupUp_frame, State.readOtp_frame, State.seamUp_frame, State.fail_frame, State.scrapStart_frame])

/-- The state at which a part of a start has arrived. -/
def startState (r : Start) : State :=
  match r with
  | .ok t => t
  | .error t => t

theorem startState_bind (r : Start) (f : State → Start) (x : State)
    (h1 : (startState r).pending = x.pending ∧ (startState r).clk = x.clk)
    (h2 : ∀ t, (startState (f t)).pending = t.pending ∧ (startState (f t)).clk = t.clk) :
    (startState (r >>= f)).pending = x.pending ∧ (startState (r >>= f)).clk = x.clk := by
  cases r with
  | error t => exact h1
  | ok t => exact ⟨(h2 t).1.trans h1.1, (h2 t).2.trans h1.2⟩

theorem State.tryStep_keeps (s : State) (inp : StartIn) (n : Nat) (reason : W16) :
    (startState (s.tryStep inp n reason)).pending = s.pending ∧
    (startState (s.tryStep inp n reason)).clk = s.clk := by
  unfold State.tryStep
  dsimp only
  split <;> simp [startState]

theorem State.stage1_frame (s : State) (inp : StartIn) :
    (startState (s.stage1 inp)).pending = s.pending ∧ (startState (s.stage1 inp)).clk = s.clk := by
  refine startState_bind _ _ _ ?_ (fun t => ?_)
  · have g := State.tryStep_keeps (s.boardFlash inp) inp 1 1
    simpa using g
  · dsimp only
    repeat' split
    all_goals simp [startState]

theorem State.stage2_frame (s : State) (inp : StartIn) :
    (startState (s.stage2 inp)).pending = s.pending ∧ (startState (s.stage2 inp)).clk = s.clk := by
  refine startState_bind _ _ _ (State.tryStep_keeps _ _ _ _) (fun t => ?_)
  refine startState_bind _ _ _ (by simpa using State.tryStep_keeps t.seamUp inp 4 3) (fun u => ?_)
  dsimp only
  split
  · simp [startState]
  split
  · simp [startState]
  refine startState_bind _ _ _ (by simpa using State.tryStep_keeps u.readOtp.1 inp 5 4) (fun v => ?_)
  split
  · simp [startState]
  · rename_i e
    have g := State.backupUp_frame _ e
    simp only [State.atStep_frame, State.gritUp_frame] at g
    exact ⟨g.1, g.2.1⟩

theorem State.stage3_frame (s : State) :
    (startState s.stage3).pending = s.pending ∧ (startState s.stage3).clk = s.clk := by
  unfold State.stage3
  dsimp only
  split
  · simp [startState]
  · rename_i t e
    have g := State.resumeLife_frame _ e
    have g1 : t.pending = s.pending := by simpa using g.1
    have g2 : t.clk = s.clk := by simpa using g.2
    clear g e
    split
    · rw [startState, ← g1, ← g2]; split <;> simp
    · rename_i u e
      have k := State.bootRecUp_frame _ e
      have k1 : u.pending = s.pending := by rw [k.1, ← g1]; split <;> simp
      have k2 : u.clk = s.clk := by rw [k.2.1, ← g2]; split <;> simp
      have m := State.keysUp_frame (u.atStep 9)
      split
      · rename_i e2; rw [e2] at m; simp only [State.atStep_frame, k1, k2] at m; simpa [startState] using ⟨m.1, m.2.1⟩
      · rename_i e2; rw [e2] at m; simp only [State.atStep_frame, k1, k2] at m; exact ⟨m.1, m.2.1⟩

theorem State.stage4_frame (s : State) (inp : StartIn) :
    (startState (s.stage4 inp)).pending = s.pending ∧ (startState (s.stage4 inp)).clk = s.clk := by
  unfold State.stage4
  have m := State.selectImage_frame (s.atStep 10) inp
  split
  · rename_i e; rw [e] at m; simpa [startState] using ⟨m.1, m.2.1⟩
  · rename_i t k e
    rw [e] at m
    refine startState_bind _ _ _ ?_ (fun u => ?_)
    · have g := State.tryStep_keeps t inp 11 8
      exact ⟨g.1.trans (by simpa using m.1), g.2.trans (by simpa using m.2.1)⟩
    · dsimp only
      repeat' split
      all_goals simp [startState]

@[simp] theorem State.runStart_frame (s : State) (inp : StartIn) :
    (s.runStart inp).pending = s.pending ∧ (s.runStart inp).clk = s.clk := by
  have g : s.runStart inp = startState (s.stage1 inp >>= fun a => a.stage2 inp >>= fun b => b.stage3 >>= fun c => c.stage4 inp) := rfl
  rw [g]
  refine startState_bind _ _ _ (State.stage1_frame _ _) (fun t => ?_)
  refine startState_bind _ _ _ (State.stage2_frame _ _) (fun t => ?_)
  exact startState_bind _ _ _ (State.stage3_frame _) (fun t => State.stage4_frame _ _)

@[simp] theorem State.powerStep_frame (s : State) (k : Nat) :
    (State.powerStep s k).pending = s.pending ∧ (State.powerStep s k).clk = s.clk ∧
    (State.powerStep s k).otp.lcw = s.otp.lcw := by
  unfold State.powerStep
  split <;> simp

@[simp] theorem State.release_frame (s : State) (inp : StartIn) :
    (State.release s inp).pending = s.pending ∧ (State.release s inp).clk = s.clk := by
  simp [State.release]

@[simp] theorem runSeq_frame (fuel k : Nat) (inp : StartIn) (s : State) :
    (runSeq fuel k inp s).pending = s.pending ∧ (runSeq fuel k inp s).clk = s.clk := by
  induction fuel generalizing k s with
  | zero => simp [runSeq]
  | succ n ih =>
    rw [runSeq]
    dsimp only
    repeat' split
    all_goals simp [ih]

theorem execColdStart_frame (inp : StartIn) (s : State) {s' : State} (h : execColdStart inp s = .next s') :
    s'.pending = s.pending ∧ s'.clk = s.clk := by
  unfold execColdStart at h
  split at h <;> (rw [Host.Outcome.next.injEq] at h; subst h; simp)

theorem execPowerStepReady_frame (inp : StartIn) (s : State) {s' : State} (h : execPowerStepReady inp s = .next s') :
    s'.pending = s.pending ∧ s'.clk = s.clk := by
  unfold execPowerStepReady at h
  dsimp only at h
  repeat' split at h
  all_goals (rw [Host.Outcome.next.injEq] at h; subst h; simp)

@[simp] theorem State.failSeq_frame (s : State) :
    (State.failSeq s).pending = s.pending ∧ (State.failSeq s).clk = s.clk ∧
    (State.failSeq s).otp.lcw = s.otp.lcw := by
  unfold State.failSeq
  dsimp only
  repeat' split
  all_goals simp

theorem execSeqStepTimeout_frame (s : State) {s' : State} (h : execSeqStepTimeout s = .next s') :
    s'.pending = s.pending ∧ s'.clk = s.clk ∧ s'.otp.lcw = s.otp.lcw := by
  unfold execSeqStepTimeout at h
  dsimp only at h
  repeat' split at h
  all_goals (rw [Host.Outcome.next.injEq] at h; subst h; simp)

@[simp] theorem State.reseq_frame (s : State) (inp : StartIn) :
    (State.reseq s inp).pending = s.pending ∧ (State.reseq s inp).clk = s.clk := by
  simp [State.reseq]

theorem execSequenceRestart_frame (inp : StartIn) (s : State) {s' : State}
    (h : execSequenceRestart inp s = .next s') :
    s'.pending = s.pending ∧ s'.clk = s.clk := by
  unfold execSequenceRestart at h
  split at h <;> (rw [Host.Outcome.next.injEq] at h; subst h; simp)

@[simp] theorem State.warmReset_frame (s : State) (inp : StartIn) (held : Bool) :
    (State.warmReset s inp held).pending = s.pending ∧ (State.warmReset s inp held).clk = s.clk := by
  unfold State.warmReset
  split <;> simp

theorem execWarmReset_frame (src : ResetSrc) (held : Bool) (inp : StartIn) (s : State) {s' : State}
    (h : execWarmReset src held inp s = .next s') :
    s'.pending = s.pending ∧ s'.clk = s.clk := by
  unfold execWarmReset at h
  repeat' split at h
  all_goals (rw [Host.Outcome.next.injEq] at h; subst h; simp)

theorem execLcReset_frame (inp : StartIn) (s : State) {s' : State} (h : execLcReset inp s = .next s') :
    s'.pending = s.pending ∧ s'.clk = s.clk := by
  unfold execLcReset at h
  split at h <;> (rw [Host.Outcome.next.injEq] at h; subst h; simp)

theorem execFwRecoverReset_frame (inp : StartIn) (s : State) {s' : State} (h : execFwRecoverReset inp s = .next s') :
    s'.pending = s.pending ∧ s'.clk = s.clk := by
  unfold execFwRecoverReset at h
  split at h <;> (rw [Host.Outcome.next.injEq] at h; subst h; simp)

theorem execStartTimeout_frame (s : State) {s' : State} (h : execStartTimeout s = .next s') :
    s'.pending = s.pending ∧ s'.clk = s.clk ∧ s'.otp.lcw = s.otp.lcw := by
  unfold execStartTimeout at h
  split at h <;> (rw [Host.Outcome.next.injEq] at h; subst h; simp)

theorem execStartRetry_frame (inp : StartIn) (s : State) {s' : State} (h : execStartRetry inp s = .next s') :
    s'.pending = s.pending ∧ s'.clk = s.clk := by
  unfold execStartRetry at h
  split at h <;> (rw [Host.Outcome.next.injEq] at h; subst h; simp)

@[simp] theorem State.powerOff_frame (s0 : State) (keep : Bool) :
    (State.powerOff s0 keep).pending = s0.pending ∧ (State.powerOff s0 keep).clk = s0.clk ∧
    (State.powerOff s0 keep).otp.lcw = s0.otp.lcw := by
  unfold State.powerOff
  dsimp only
  repeat' split
  all_goals simp

@[simp] theorem State.holdVin_frame (s : State) (ov : Bool) :
    (State.holdVin s ov).pending = s.pending ∧ (State.holdVin s ov).clk = s.clk ∧
    (State.holdVin s ov).otp.lcw = s.otp.lcw := by
  simp [State.holdVin]

theorem execVinLoss_frame (s : State) {s' : State} (h : execVinLoss s = .next s') :
    s'.pending = s.pending ∧ s'.clk = s.clk ∧ s'.otp.lcw = s.otp.lcw := by
  unfold execVinLoss at h
  repeat' split at h
  all_goals (rw [Host.Outcome.next.injEq] at h; subst h; simp)

theorem execVinOvervoltage_frame (s : State) {s' : State} (h : execVinOvervoltage s = .next s') :
    s'.pending = s.pending ∧ s'.clk = s.clk ∧ s'.otp.lcw = s.otp.lcw := by
  unfold execVinOvervoltage at h
  split at h <;> (rw [Host.Outcome.next.injEq] at h; subst h; simp)

theorem execVbatLoss_frame (s : State) {s' : State} (h : execVbatLoss s = .next s') :
    s'.pending = s.pending ∧ s'.clk = s.clk ∧ s'.otp.lcw = s.otp.lcw := by
  unfold execVbatLoss at h
  split at h <;> (rw [Host.Outcome.next.injEq] at h; subst h; simp)

theorem execVbatApplied_frame (s : State) {s' : State} (h : execVbatApplied s = .next s') :
    s'.pending = s.pending ∧ s'.clk = s.clk ∧ s'.otp.lcw = s.otp.lcw := by
  unfold execVbatApplied at h
  split at h <;> (rw [Host.Outcome.next.injEq] at h; subst h; simp)

@[simp] theorem endRunning_frame (x0 : List Job) (s : State) :
    (endRunning x0 s).pending = s.pending ∧ (endRunning x0 s).clk = s.clk ∧
    (endRunning x0 s).otp.lcw = s.otp.lcw := by
  (fun_induction endRunning x0 s <;> grind [State.failJob_frame])

@[simp] theorem State.abandonDust_frame (s : State) :
    (State.abandonDust s).pending = s.pending ∧ (State.abandonDust s).clk = s.clk ∧
    (State.abandonDust s).otp.lcw = s.otp.lcw := by
  simp [State.abandonDust]

@[simp] theorem State.enterDust_frame (s : State) :
    (State.enterDust s).pending = s.pending ∧ (State.enterDust s).clk = s.clk ∧
    (State.enterDust s).otp.lcw = s.otp.lcw := by
  simp [State.enterDust]

@[simp] theorem State.goDust_frame (s : State) :
    (State.goDust s).pending = s.pending ∧ (State.goDust s).clk = s.clk ∧ (State.goDust s).otp.lcw = s.otp.lcw := by
  unfold State.goDust
  split <;> simp

theorem execDustJobTimeout_frame (s : State) {s' : State} (h : execDustJobTimeout s = .next s') :
    s'.pending = s.pending ∧ s'.clk = s.clk ∧ s'.otp.lcw = s.otp.lcw := by
  unfold execDustJobTimeout at h
  split at h <;> (rw [Host.Outcome.next.injEq] at h; subst h; simp)

theorem execDustSample_frame (out : Bool) (s : State) {s' : State} (h : execDustSample out s = .next s') :
    s'.pending = s.pending ∧ s'.clk = s.clk ∧ s'.otp.lcw = s.otp.lcw := by
  unfold execDustSample at h
  dsimp only at h
  repeat' split at h
  all_goals (rw [Host.Outcome.next.injEq] at h; subst h; simp)

theorem execDustWake_frame (inp : StartIn) (s : State) {s' : State} (h : execDustWake inp s = .next s') :
    s'.pending = s.pending ∧ s'.clk = s.clk := by
  unfold execDustWake at h
  repeat' split at h
  all_goals (rw [Host.Outcome.next.injEq] at h; subst h; simp)

end Sys2Proof.Machine
end

