-- ==== Sys2Proof/Laws/FrameRegs.lean ====
section
/-!
SUPPORT. Three things that almost no operation touches: the queue of waiting commands, the clock, and the life-cycle words in
OTP. One lemma per operation, for the rows of Scrim, host accesses and the tick.
-/
set_option linter.unusedSimpArgs false
set_option linter.unusedVariables false

namespace Sys2Proof.Machine

/-! ## Machine/ScrimRows.lean -/

@[simp] theorem State.beforeReady_frame (s : State) :
    (State.beforeReady s).pending = s.pending ∧ (State.beforeReady s).clk = s.clk ∧
    (State.beforeReady s).otp.lcw = s.otp.lcw := by
  unfold State.beforeReady
  split <;> simp

@[simp] theorem State.repeated_frame (s : State) (c unit : Nat) :
    (State.repeated s c unit).pending = s.pending ∧ (State.repeated s c unit).clk = s.clk ∧
    (State.repeated s c unit).otp.lcw = s.otp.lcw := by
  unfold State.repeated
  split <;> simp

@[simp] theorem State.reportCause_frame (s : State) (c unit : Nat) :
    (State.reportCause s c unit).pending = s.pending ∧ (State.reportCause s c unit).clk = s.clk ∧
    (State.reportCause s c unit).otp.lcw = s.otp.lcw := by
  unfold State.reportCause
  split <;> simp

theorem execCauseReport_frame (c unit : Nat) (stays : Bool) (s : State) {s' : State}
    (h : execCauseReport c unit stays s = .next s') :
    s'.pending = s.pending ∧ s'.clk = s.clk ∧ s'.otp.lcw = s.otp.lcw := by
  unfold execCauseReport at h
  dsimp only at h
  repeat' split at h
  all_goals (rw [Host.Outcome.next.injEq] at h; subst h; simp)

theorem execWire_frame (g b unit : Nat) (s : State) {s' : State} (h : execWire g b unit s = .next s') :
    s'.pending = s.pending ∧ s'.clk = s.clk ∧ s'.otp.lcw = s.otp.lcw := by
  unfold execWire at h
  split at h <;> (rw [Host.Outcome.next.injEq] at h; subst h; simp)

theorem execScrCheck_frame (s : State) {s' : State} (h : execScrCheck s = .next s') :
    s'.pending = s.pending ∧ s'.clk = s.clk ∧ s'.otp.lcw = s.otp.lcw := by
  unfold execScrCheck at h
  split at h <;> (rw [Host.Outcome.next.injEq] at h; subst h; simp)

@[simp] theorem State.countExit_frame (s : State) :
    (State.countExit s).pending = s.pending ∧ (State.countExit s).clk = s.clk ∧
    (State.countExit s).otp.lcw = s.otp.lcw := by
  simp [State.countExit]

theorem execAutoExit_frame (w : UnitId) (dev : Bool) (inp : StartIn) (s : State) {s' : State}
    (h : execAutoExit w dev inp s = .next s') :
    s'.pending = s.pending ∧ s'.clk = s.clk := by
  unfold execAutoExit at h
  repeat' split at h
  all_goals (rw [Host.Outcome.next.injEq] at h; subst h; simp)

@[simp] theorem seamAgain_frame (c : Nat) (x0 : Nat) (s : State) :
    (seamAgain c x0 s).pending = s.pending ∧ (seamAgain c x0 s).clk = s.clk ∧
    (seamAgain c x0 s).otp.lcw = s.otp.lcw := by
  (fun_induction seamAgain c x0 s <;> simp_all; done)

theorem execSeamRetransmit_frame (auth : Bool) (fails : Nat) (s : State) {s' : State}
    (h : execSeamRetransmit auth fails s = .next s') :
    s'.pending = s.pending ∧ s'.clk = s.clk ∧ s'.otp.lcw = s.otp.lcw := by
  unfold execSeamRetransmit at h
  repeat' split at h
  all_goals (rw [Host.Outcome.next.injEq] at h; subst h; simp)

theorem execMramScrub_frame (corr unc : Nat) (s : State) {s' : State} (h : execMramScrub corr unc s = .next s') :
    s'.pending = s.pending ∧ s'.clk = s.clk ∧ s'.otp.lcw = s.otp.lcw := by
  unfold execMramScrub at h
  repeat' split at h
  all_goals (rw [Host.Outcome.next.injEq] at h; subst h; simp)

/-! ## Machine/CfgSpace.lean -/

@[simp] theorem State.readCfg_frame (s : State) (f o size : Nat) :
    (State.readCfg s f o size).pending = s.pending ∧ (State.readCfg s f o size).clk = s.clk ∧
    (State.readCfg s f o size).otp.lcw = s.otp.lcw := by
  (simp [State.readCfg, apply_ite State.pending, apply_ite State.clk, apply_ite State.otp, apply_ite Otp.lcw]; done)

/-! ## Machine/Regs.lean -/

@[simp] theorem State.popEvq_frame (s : State) :
    (State.popEvq s).pending = s.pending ∧ (State.popEvq s).clk = s.clk ∧ (State.popEvq s).otp.lcw = s.otp.lcw := by
  unfold State.popEvq
  split <;> simp

@[simp] theorem State.popSaev_frame (s : State) :
    (State.popSaev s).pending = s.pending ∧ (State.popSaev s).clk = s.clk ∧
    (State.popSaev s).otp.lcw = s.otp.lcw := by
  unfold State.popSaev
  split <;> simp

@[simp] theorem State.readEffect_frame (s : State) (f o : Nat) :
    (State.readEffect s f o).pending = s.pending ∧ (State.readEffect s f o).clk = s.clk ∧
    (State.readEffect s f o).otp.lcw = s.otp.lcw := by
  unfold State.readEffect
  dsimp only
  repeat' split
  all_goals simp

@[simp] theorem State.read32_frame (s : State) (f o : Nat) :
    (State.read32 s f o).2.pending = s.pending ∧ (State.read32 s f o).2.clk = s.clk ∧
    (State.read32 s f o).2.otp.lcw = s.otp.lcw := by
  (unfold State.read32; (repeat' split) <;> simp [apply_ite State.pending, apply_ite State.clk, apply_ite State.otp, apply_ite Otp.lcw]; done)

@[simp] theorem State.readReg_frame (s : State) (f o size : Nat) :
    (s.readReg f o size).2.pending = s.pending ∧ (s.readReg f o size).2.clk = s.clk ∧
    (s.readReg f o size).2.otp.lcw = s.otp.lcw := by
  unfold State.readReg
  repeat' split
  · simp
  · dsimp only; split <;> simp
  · simp

@[simp] theorem State.readReply_frame (s : State) (f v : Nat) :
    (State.readReply s f v).pending = s.pending ∧ (State.readReply s f v).clk = s.clk ∧
    (State.readReply s f v).otp.lcw = s.otp.lcw := by
  simp [State.readReply]

@[simp] theorem State.readBar_frame (s : State) (f o size : Nat) :
    (State.readBar s f o size).pending = s.pending ∧ (State.readBar s f o size).clk = s.clk ∧
    (State.readBar s f o size).otp.lcw = s.otp.lcw := by
  (grind [State.readBar, State.emit_frame, State.readReply_frame, State.readReg_frame, State.report_frame])

@[simp] theorem State.readBar2_frame (s : State) (f o size : Nat) :
    (State.readBar2 s f o size).pending = s.pending ∧ (State.readBar2 s f o size).clk = s.clk ∧
    (State.readBar2 s f o size).otp.lcw = s.otp.lcw := by
  (unfold State.readBar2; (repeat' split) <;> simp [apply_ite State.pending, apply_ite State.clk, apply_ite State.otp, apply_ite Otp.lcw]; done)

theorem execUnmappedRead_frame (r : RegRd) (s : State) {s' : State} (h : execUnmappedRead r s = .next s') :
    s'.pending = s.pending ∧ s'.clk = s.clk ∧ s'.otp.lcw = s.otp.lcw := by
  unfold execUnmappedRead at h
  repeat' split at h
  all_goals (rw [Host.Outcome.next.injEq] at h; subst h; simp)

theorem execExpertWindowRead_frame (o size : Nat) (s : State) {s' : State}
    (h : execExpertWindowRead o size s = .next s') :
    s'.pending = s.pending ∧ s'.clk = s.clk ∧ s'.otp.lcw = s.otp.lcw := by
  rw [execExpertWindowRead, Host.Outcome.next.injEq] at h
  subst h
  simp

theorem execReg64LowRead_frame (f o : Nat) (s : State) {s' : State} (h : execReg64LowRead f o s = .next s') :
    s'.pending = s.pending ∧ s'.clk = s.clk ∧ s'.otp.lcw = s.otp.lcw := by
  rw [execReg64LowRead, Host.Outcome.next.injEq] at h
  subst h
  simp

theorem execPcieErrCntRead_frame (k : Nat) (s : State) {s' : State} (h : execPcieErrCntRead k s = .next s') :
    s'.pending = s.pending ∧ s'.clk = s.clk ∧ s'.otp.lcw = s.otp.lcw := by
  rw [execPcieErrCntRead, Host.Outcome.next.injEq] at h
  subst h
  simp

theorem execQueJobsCntRead_frame (f p : Nat) (s : State) {s' : State} (h : execQueJobsCntRead f p s = .next s') :
    s'.pending = s.pending ∧ s'.clk = s.clk ∧ s'.otp.lcw = s.otp.lcw := by
  rw [execQueJobsCntRead, Host.Outcome.next.injEq] at h
  subst h
  simp

theorem execSpgYieldCntRead_frame (s : State) {s' : State} (h : execSpgYieldCntRead s = .next s') :
    s'.pending = s.pending ∧ s'.clk = s.clk ∧ s'.otp.lcw = s.otp.lcw := by
  rw [execSpgYieldCntRead, Host.Outcome.next.injEq] at h
  subst h
  simp

theorem execBndFullCntRead_frame (s : State) {s' : State} (h : execBndFullCntRead s = .next s') :
    s'.pending = s.pending ∧ s'.clk = s.clk ∧ s'.otp.lcw = s.otp.lcw := by
  rw [execBndFullCntRead, Host.Outcome.next.injEq] at h
  subst h
  simp

theorem execFltWaitCntRead_frame (s : State) {s' : State} (h : execFltWaitCntRead s = .next s') :
    s'.pending = s.pending ∧ s'.clk = s.clk ∧ s'.otp.lcw = s.otp.lcw := by
  rw [execFltWaitCntRead, Host.Outcome.next.injEq] at h
  subst h
  simp

theorem execFltLimitCntRead_frame (s : State) {s' : State} (h : execFltLimitCntRead s = .next s') :
    s'.pending = s.pending ∧ s'.clk = s.clk ∧ s'.otp.lcw = s.otp.lcw := by
  rw [execFltLimitCntRead, Host.Outcome.next.injEq] at h
  subst h
  simp

theorem execRndSaevRead_frame (s : State) {s' : State} (h : execRndSaevRead s = .next s') :
    s'.pending = s.pending ∧ s'.clk = s.clk ∧ s'.otp.lcw = s.otp.lcw := by
  rw [execRndSaevRead, Host.Outcome.next.injEq] at h
  subst h
  simp

theorem execRndSaevStatRead_frame (s : State) {s' : State} (h : execRndSaevStatRead s = .next s') :
    s'.pending = s.pending ∧ s'.clk = s.clk ∧ s'.otp.lcw = s.otp.lcw := by
  rw [execRndSaevStatRead, Host.Outcome.next.injEq] at h
  subst h
  simp

theorem execEvqRecLoRead_frame (s : State) {s' : State} (h : execEvqRecLoRead s = .next s') :
    s'.pending = s.pending ∧ s'.clk = s.clk ∧ s'.otp.lcw = s.otp.lcw := by
  rw [execEvqRecLoRead, Host.Outcome.next.injEq] at h
  subst h
  simp

theorem execEvqRecHiRead_frame (s : State) {s' : State} (h : execEvqRecHiRead s = .next s') :
    s'.pending = s.pending ∧ s'.clk = s.clk ∧ s'.otp.lcw = s.otp.lcw := by
  rw [execEvqRecHiRead, Host.Outcome.next.injEq] at h
  subst h
  simp

theorem execEvqStatusRead_frame (s : State) {s' : State} (h : execEvqStatusRead s = .next s') :
    s'.pending = s.pending ∧ s'.clk = s.clk ∧ s'.otp.lcw = s.otp.lcw := by
  rw [execEvqStatusRead, Host.Outcome.next.injEq] at h
  subst h
  simp

theorem settled_frame (o : Host.Outcome State Fault Refusal) (s : State)
    (h : ∀ t, o = .next t → t.pending = s.pending ∧ t.clk = s.clk ∧ t.otp.lcw = s.otp.lcw) :
    (settled o s).pending = s.pending ∧ (settled o s).clk = s.clk ∧ (settled o s).otp.lcw = s.otp.lcw := by
  unfold settled
  split
  · exact h _ rfl
  · simp

@[simp] theorem settled_execQuePiWrite (f p : Nat) (v : W16) (s : State) :
    (settled (execQuePiWrite f p v s) s).pending = s.pending ∧ (settled (execQuePiWrite f p v s) s).clk = s.clk ∧
    (settled (execQuePiWrite f p v s) s).otp.lcw = s.otp.lcw :=
  settled_frame _ _ (fun _ h => execQuePiWrite_frame _ _ _ _ h)

@[simp] theorem settled_execQueInvalHold (f p : Nat) (v : W16) (s : State) :
    (settled (execQueInvalHold f p v s) s).pending = s.pending ∧ (settled (execQueInvalHold f p v s) s).clk = s.clk ∧
    (settled (execQueInvalHold f p v s) s).otp.lcw = s.otp.lcw :=
  settled_frame _ _ (fun _ h => execQueInvalHold_frame _ _ _ _ h)

@[simp] theorem settled_execQueInvalRelease (f p : Nat) (v : W16) (s : State) :
    (settled (execQueInvalRelease f p v s) s).pending = s.pending ∧
    (settled (execQueInvalRelease f p v s) s).clk = s.clk ∧
    (settled (execQueInvalRelease f p v s) s).otp.lcw = s.otp.lcw :=
  settled_frame _ _ (fun _ h => execQueInvalRelease_frame _ _ _ _ h)

@[simp] theorem settled_execQueueEnable (f p : Nat) (v : Bool) (s : State) :
    (settled (execQueueEnable f p v s) s).pending = s.pending ∧ (settled (execQueueEnable f p v s) s).clk = s.clk ∧
    (settled (execQueueEnable f p v s) s).otp.lcw = s.otp.lcw :=
  settled_frame _ _ (fun _ h => execQueueEnable_frame _ _ _ _ h)

@[simp] theorem settled_execQueueDisable (f p : Nat) (v : Bool) (s : State) :
    (settled (execQueueDisable f p v s) s).pending = s.pending ∧ (settled (execQueueDisable f p v s) s).clk = s.clk ∧
    (settled (execQueueDisable f p v s) s).otp.lcw = s.otp.lcw :=
  settled_frame _ _ (fun _ h => execQueueDisable_frame _ _ _ _ h)

@[simp] theorem settled_execQueModWrite (f p x y : Nat) (s : State) :
    (settled (execQueModWrite f p x y s) s).pending = s.pending ∧
    (settled (execQueModWrite f p x y s) s).clk = s.clk ∧
    (settled (execQueModWrite f p x y s) s).otp.lcw = s.otp.lcw :=
  settled_frame _ _ (fun _ h => execQueModWrite_frame _ _ _ _ _ h)

@[simp] theorem settled_execMbxDoorbell (f x : Nat) (g : Option (W16 × W32)) (s : State) :
    (settled (execMbxDoorbell f x g s) s).pending = s.pending ∧ (settled (execMbxDoorbell f x g s) s).clk = s.clk ∧
    (settled (execMbxDoorbell f x g s) s).otp.lcw = s.otp.lcw :=
  settled_frame _ _ (fun _ h => execMbxDoorbell_frame _ _ _ _ h)

@[simp] theorem settled_execMbxDoneClear (v : W32) (s : State) :
    (settled (execMbxDoneClear v s) s).pending = s.pending ∧ (settled (execMbxDoneClear v s) s).clk = s.clk ∧
    (settled (execMbxDoneClear v s) s).otp.lcw = s.otp.lcw :=
  settled_frame _ _ (fun _ h => execMbxDoneClear_frame _ _ h)

@[simp] theorem settled_execPushSlotWrite (f p x : Nat) (b : List Byte) (s : State) :
    (settled (execPushSlotWrite f p x b s) s).pending = s.pending ∧
    (settled (execPushSlotWrite f p x b s) s).clk = s.clk ∧
    (settled (execPushSlotWrite f p x b s) s).otp.lcw = s.otp.lcw :=
  settled_frame _ _ (fun _ h => execPushSlotWrite_frame _ _ _ _ _ h)

@[simp] theorem settled_execVmbDoneClear (f : Nat) (s : State) :
    (settled (execVmbDoneClear f s) s).pending = s.pending ∧ (settled (execVmbDoneClear f s) s).clk = s.clk ∧
    (settled (execVmbDoneClear f s) s).otp.lcw = s.otp.lcw :=
  settled_frame _ _ (fun _ h => execVmbDoneClear_frame _ _ h)

@[simp] theorem settled_execMsixUnmask (f : Nat) (v : Option Nat) (b : Bool) (s : State) :
    (settled (execMsixUnmask f v b s) s).pending = s.pending ∧ (settled (execMsixUnmask f v b s) s).clk = s.clk ∧
    (settled (execMsixUnmask f v b s) s).otp.lcw = s.otp.lcw :=
  settled_frame _ _ (fun _ h => execMsixUnmask_frame _ _ _ _ h)

@[simp] theorem settled_execBusMasterEnable (f : Nat) (s : State) :
    (settled (execBusMasterEnable f s) s).pending = s.pending ∧ (settled (execBusMasterEnable f s) s).clk = s.clk ∧
    (settled (execBusMasterEnable f s) s).otp.lcw = s.otp.lcw :=
  settled_frame _ _ (fun _ h => execBusMasterEnable_frame _ _ h)


@[simp] theorem State.ringCfg_frame (s : State) (f q : Nat) (g : Queue → Queue) :
    (State.ringCfg s f q g).pending = s.pending ∧ (State.ringCfg s f q g).clk = s.clk ∧
    (State.ringCfg s f q g).otp.lcw = s.otp.lcw := by
  unfold State.ringCfg
  split <;> simp

@[simp] theorem State.writeQueue_frame (s : State) (f p q o : Nat) (v : W32) :
    (State.writeQueue s f p q o v).1.pending = s.pending ∧ (State.writeQueue s f p q o v).1.clk = s.clk ∧
    (State.writeQueue s f p q o v).1.otp.lcw = s.otp.lcw := by
  unfold State.writeQueue
  dsimp only
  repeat' split
  all_goals simp

theorem State.writeQueue64_frame (s : State) (f q o : Nat) (v : W64) {s' : State}
    (h : State.writeQueue64 s f q o v = some s') :
    s'.pending = s.pending ∧ s'.clk = s.clk ∧ s'.otp.lcw = s.otp.lcw := by
  (unfold State.writeQueue64 at h; (repeat' (first | split at h | (dsimp only at h; split at h))) <;>
    first | (simp only [reduceCtorEq] at h; done) | (simp only [Except.ok.injEq, Prod.mk.injEq, Option.some.injEq, Host.Outcome.next.injEq] at h; (first | subst h | (obtain ⟨rfl, -⟩ := h) | (obtain ⟨-, rfl⟩ := h)); (first | (simp; done) | (simp_all; done) | grind [State.ringCfg_frame])))

@[simp] theorem State.writeDev_frame (s : State) (o : Nat) (v : W32) :
    (State.writeDev s o v).pending = s.pending ∧ (State.writeDev s o v).clk = s.clk ∧
    (State.writeDev s o v).otp.lcw = s.otp.lcw := by
  unfold State.writeDev
  dsimp only
  repeat' split
  all_goals simp

@[simp] theorem State.writeVmb_frame (s : State) (f o : Nat) (v : W32) :
    (State.writeVmb s f o v).pending = s.pending ∧ (State.writeVmb s f o v).clk = s.clk ∧
    (State.writeVmb s f o v).otp.lcw = s.otp.lcw := by
  (unfold State.writeVmb; (repeat' split) <;> simp [apply_ite State.pending, apply_ite State.clk, apply_ite State.otp, apply_ite Otp.lcw]; done)

@[simp] theorem State.write32_frame (s : State) (f o : Nat) (v : W32) :
    (State.write32 s f o v).1.pending = s.pending ∧ (State.write32 s f o v).1.clk = s.clk ∧
    (State.write32 s f o v).1.otp.lcw = s.otp.lcw := by
  (unfold State.write32; (repeat' split) <;> simp [apply_ite State.pending, apply_ite State.clk, apply_ite State.otp, apply_ite Otp.lcw]; done)

@[simp] theorem State.writeReg_frame (s : State) (f o size : Nat) (v : W64) :
    (s.writeReg f o size v).1.pending = s.pending ∧ (s.writeReg f o size v).1.clk = s.clk ∧
    (s.writeReg f o size v).1.otp.lcw = s.otp.lcw := by
  unfold State.writeReg
  split
  · split
    · rename_i t e
      rw [Option.bind_eq_some_iff] at e
      obtain ⟨q, -, e⟩ := e
      exact State.writeQueue64_frame _ _ _ _ _ e
    · simp
  · simp

@[simp] theorem State.writeBar_frame (s : State) (f o size : Nat) (v : W64) :
    (State.writeBar s f o size v).pending = s.pending ∧ (State.writeBar s f o size v).clk = s.clk ∧
    (State.writeBar s f o size v).otp.lcw = s.otp.lcw := by
  unfold State.writeBar
  dsimp only
  repeat' split
  all_goals simp

@[simp] theorem State.writeMsix_frame (s : State) (f o : Nat) (v : W32) :
    (State.writeMsix s f o v).pending = s.pending ∧ (State.writeMsix s f o v).clk = s.clk ∧
    (State.writeMsix s f o v).otp.lcw = s.otp.lcw := by
  unfold State.writeMsix
  dsimp only
  repeat' split
  all_goals simp

@[simp] theorem State.writeBar2_frame (s : State) (f o size : Nat) (v : W64) :
    (State.writeBar2 s f o size v).pending = s.pending ∧ (State.writeBar2 s f o size v).clk = s.clk ∧
    (State.writeBar2 s f o size v).otp.lcw = s.otp.lcw := by
  unfold State.writeBar2
  dsimp only
  repeat' split
  all_goals simp

@[simp] theorem State.writeCfg_frame (s : State) (f : Nat) (fld : CfgField) (v : Nat) :
    (State.writeCfg s f fld v).pending = s.pending ∧ (State.writeCfg s f fld v).clk = s.clk ∧
    (State.writeCfg s f fld v).otp.lcw = s.otp.lcw := by
  unfold State.writeCfg
  dsimp only
  repeat' split
  all_goals simp

theorem execRegWrite_frame (w : RegWr) (s : State) {s' : State} (h : execRegWrite w s = .next s') :
    s'.pending = s.pending ∧ s'.clk = s.clk ∧ s'.otp.lcw = s.otp.lcw := by
  unfold execRegWrite at h
  split at h
  all_goals (rw [Host.Outcome.next.injEq] at h; subst h; split)
  all_goals (try (simp; done))
  exact State.run_frame _ _ _ _ (fun _ => by simp)

/-! ## Machine/Tick.lean -/

@[simp] theorem State.msTick_frame (s : State) :
    (State.msTick s).pending = s.pending ∧ (State.msTick s).clk = s.clk ∧ (State.msTick s).otp.lcw = s.otp.lcw := by
  simp [State.msTick]

@[simp] theorem State.refill_frame (s : State) :
    (State.refill s).pending = s.pending ∧ (State.refill s).clk = s.clk ∧ (State.refill s).otp.lcw = s.otp.lcw := by
  simp [State.refill]

theorem State.tick_frame (s : State) : s.tick.pending = s.pending ∧ s.tick.otp.lcw = s.otp.lcw := by
  unfold State.tick
  dsimp only
  repeat' split
  all_goals simp

end Sys2Proof.Machine
end

