-- ==== Sys2Proof/Laws/OtpWords.lean ====
section
/-!
SUPPORT. Programming OTP only sets bits (R472): every operation that may program a life-cycle word keeps the bits that are set.
-/
set_option linter.unusedSimpArgs false
set_option linter.unusedVariables false

namespace Sys2Proof.Machine

/-- The life-cycle words `b` hold every bit that the words `a` hold, and there are as many. -/
def LcwGrows (a b : List W64) : Prop := b.length = a.length ∧ ∀ i, a.getD i 0 ||| b.getD i 0 = b.getD i 0

theorem LcwGrows.refl (a : List W64) : LcwGrows a a := ⟨rfl, fun i => by simp⟩

theorem LcwGrows.trans {a b c : List W64} (h : LcwGrows a b) (k : LcwGrows b c) : LcwGrows a c :=
  ⟨k.1.trans h.1, fun i => by rw [← k.2 i, ← h.2 i]; simp only [← BitVec.or_assoc, BitVec.or_self]⟩

theorem LcwGrows.of_eq {a b : List W64} (h : b = a) : LcwGrows a b := h ▸ .refl a

/-- Writing a word that holds the bits of the old one. -/
theorem LcwGrows.set (l : List W64) (i : Nat) (w : W64) (h : l.getD i 0 ||| w = w) : LcwGrows l (l.set i w) := by
  refine ⟨by simp, fun k => ?_⟩
  simp only [List.getD_eq_getElem?_getD, List.getElem?_set] at h ⊢
  split
  · rename_i e
    subst e
    split
    · simpa using h
    · rename_i g; simp [List.getElem?_eq_none (Nat.le_of_not_lt g)]
  · simp

/-- Programming a word only sets bits (R472). -/
theorem programWord_grows (dst fuel fails i : Nat) (l ws : List W64) (h : programWord dst fuel fails i l = some ws) :
    LcwGrows l ws := by
  have d (x : W64) : x ||| lcwDead = lcwDead := by
    have e : lcwDead = BitVec.allOnes 64 := rfl
    rw [e, BitVec.or_allOnes]
  induction fuel generalizing fails i l with
  | zero => cases h
  | succ n ih =>
    rw [programWord] at h
    try dsimp only at h
    split at h
    · cases h
    split at h
    · rw [Option.some.injEq] at h; exact .of_eq h.symm
    split at h
    · rename_i g
      rw [Option.some.injEq] at h
      rw [← h]
      exact .set _ _ _ g.1
    split at h
    · exact (LcwGrows.set l i lcwDead (d _)).trans (ih _ _ _ h)
    · exact (LcwGrows.set l i lcwDead (d _)).trans (ih _ _ _ h)

theorem State.runScrap_grows (s : State) (l : LifeReq) (mbx : Option (Nat × W32)) :
    LcwGrows s.otp.lcw (s.runScrap l mbx).otp.lcw := by
  unfold State.runScrap
  try dsimp only
  split
  · exact .of_eq (by simp)
  · rename_i ws e
    have g := programWord_grows _ _ _ _ _ _ e
    simp only [State.armLife_frame] at g
    have k : (({ (s.armLife l) with otp := { (s.armLife l).otp with lcw := ws } }).scrapErase).otp.lcw = ws := by simp
    have m (x : State) (mb : Option (Nat × W32)) (c : Resp) : (x.answerLife mb c).otp.lcw = x.otp.lcw := by simp
    rw [m]
    rw [k]
    exact g

theorem State.startCommit_grows (s : State) : LcwGrows s.otp.lcw s.startCommit.otp.lcw := by
  unfold State.startCommit
  split
  · exact .refl _
  · dsimp only
    split
    · exact .refl _
    split
    · exact .of_eq rfl
    · split
      · rename_i c _ _ _ _ l _ _
        have g := State.runScrap_grows { s with commits := [] } l c.mbx
        exact g
      · split
        · refine .of_eq ?_; simp
        · rename_i e
          have g := (State.dusStep_frame _ _ e).2.2
          refine .of_eq ?_
          simpa using g

theorem State.requestCommit_grows (s : State) (c : Commit) : LcwGrows s.otp.lcw (s.requestCommit c).otp.lcw := by
  unfold State.requestCommit
  exact (LcwGrows.of_eq rfl).trans (State.startCommit_grows _)

theorem State.lifeTail_grows (s : State) (src : Nat) (l : LifeReq) (former : Journal) (word cand : Nat) {t : State}
    (h : s.lifeTail src l former word cand = some t) : LcwGrows s.otp.lcw t.otp.lcw := by
  unfold State.lifeTail at h
  dsimp only at h
  split at h
  · cases h
  · rename_i ws e
    have g := programWord_grows _ _ _ _ _ _ e
    simp only [State.writeMark_frame] at g
    rw [Option.some.injEq] at h
    rw [← h]
    dsimp only
    rw [(State.writeMark_frame _ _ _ _ _ _).2.2, (State.writeAnchorBy_frame _ _).2.2, (State.writeMark_frame _ _ _ _ _ _).2.2]
    exact g

theorem State.failCommit_grows (s : State) (c : Commit) (e : Err) : LcwGrows s.otp.lcw (s.failCommit c e).otp.lcw := by
  unfold State.failCommit
  dsimp only
  refine LcwGrows.trans (.of_eq ?_) (State.startCommit_grows _)
  split <;> split <;> simp

theorem State.endLife_grows (s : State) (l : LifeReq) (mbx : Option (Nat × W32)) :
    LcwGrows s.otp.lcw (s.endLife l mbx).otp.lcw := by
  unfold State.endLife
  dsimp only
  split
  · exact .of_eq (by simp)
  · rename_i e
    have g := State.lifeTail_grows _ _ _ _ _ _ e
    have k (x : State) (mb : Option (Nat × W32)) (c : Resp) : (x.answerLife mb c).otp.lcw = x.otp.lcw := by simp
    rw [k]
    exact (LcwGrows.of_eq (by simp)).trans g

theorem State.undoCmd_grows (s : State) (n : Nat) : LcwGrows s.otp.lcw (s.undoCmd n).otp.lcw := by
  unfold State.undoCmd
  exact (LcwGrows.of_eq (by simp)).trans (State.startCommit_grows _)

theorem execJournalCommitDone_grows (ok : Bool) (s : State) {t : State} (h : execJournalCommitDone ok s = .next t) :
    LcwGrows s.otp.lcw t.otp.lcw := by
  unfold execJournalCommitDone at h
  split at h
  · rw [Host.Outcome.next.injEq] at h; rw [← h]; exact .refl _
  split at h
  · rw [Host.Outcome.next.injEq] at h; rw [← h]; exact .refl _
  split at h
  · rw [Host.Outcome.next.injEq] at h; rw [← h]; exact State.failCommit_grows _ _ _
  split at h
  · rw [Host.Outcome.next.injEq] at h
    rw [← h]
    rename_i c t _ _ _ _ _
    have g := State.endLife_grows { s with commits := t } (c.life.getD {}) c.mbx
    exact LcwGrows.trans g (State.startCommit_grows _)
  split at h
  · split at h
    · rw [Host.Outcome.next.injEq] at h; rw [← h]; exact State.failCommit_grows _ _ _
    · rw [Host.Outcome.next.injEq] at h
      rw [← h]
      refine LcwGrows.trans (.of_eq ?_) (State.startCommit_grows _)
      rw [(State.answerCommit_frame _ _).2.2, (State.applyCommit_frame _ _ _ _).2.2]
  · rw [Host.Outcome.next.injEq] at h
    rw [← h]
    exact (State.failCommit_grows _ _ _).trans (.of_eq (State.report_frame _ _ _).2.2)

theorem execCmdTimeLimit_grows (h : Hdr) (s : State) {t : State} (e : execCmdTimeLimit h s = .next t) :
    LcwGrows s.otp.lcw t.otp.lcw := by
  unfold execCmdTimeLimit at e
  dsimp only at e
  split at e
  · split at e
    · rw [Host.Outcome.next.injEq] at e; rw [← e]; exact .refl _
    split at e
    · rw [Host.Outcome.next.injEq] at e
      rw [← e]
      rename_i n _ _ _
      have g := State.undoCmd_grows s n
      rw [(serveBad_frame _ _).2.2, (State.answerPf_frame _ _ _).2.2]
      exact g
    · split at e <;> (rw [Host.Outcome.next.injEq] at e; rw [← e]; refine .of_eq ?_; simp)
  · split at e <;> (rw [Host.Outcome.next.injEq] at e; rw [← e]; refine .of_eq ?_; simp)

theorem execVinRecovery_grows (s : State) {t : State} (h : execVinRecovery s = .next t) : LcwGrows s.otp.lcw t.otp.lcw := by
  unfold execVinRecovery at h
  split at h <;> (rw [Host.Outcome.next.injEq] at h; subst h)
  · exact (LcwGrows.of_eq (by simp)).trans (State.startCommit_grows _)
  · exact .refl _

/-- The answer of a command keeps the programmed life-cycle bits of `x`. -/
def Ans.grows (a : Ans) (x : State) : Prop :=
  match a with
  | .err _ => True
  | .bad y _ => LcwGrows x.otp.lcw y.otp.lcw
  | .ok y _ => LcwGrows x.otp.lcw y.otp.lcw
  | .wait y => LcwGrows x.otp.lcw y.otp.lcw

theorem State.run_grows (s : State) (h : Hdr) (ci : CmdInfo) (f : State → Ans) (hf : ∀ x, (f x).grows x) :
    LcwGrows s.otp.lcw (s.run h ci f).otp.lcw := by
  have k := hf (s.startCmd h.iss)
  have k2 : LcwGrows s.otp.lcw ((s.startCmd h.iss).settleAns h (f (s.startCmd h.iss))).otp.lcw := by
    revert k
    cases f (s.startCmd h.iss) with
    | err e => intro _; exact .of_eq (by simp [State.settleAns])
    | bad y e => intro k; exact LcwGrows.trans (.of_eq (by simp)) (LcwGrows.trans k (.of_eq (by simp [State.settleAns])))
    | ok y e => intro k; exact LcwGrows.trans (.of_eq (by simp)) (LcwGrows.trans k (.of_eq (by simp [State.settleAns])))
    | wait y => intro k; exact LcwGrows.trans (.of_eq (by simp)) (LcwGrows.trans k (.of_eq (by simp [State.settleAns])))
  unfold State.run
  split
  · rename_i e
    exact .of_eq (State.notNow_frame _ _ e).2.2
  · dsimp only
    repeat' split
    all_goals first | (refine .of_eq ?_; simp; done) | skip
    all_goals exact k2.trans (.of_eq (by simp))

theorem execKeyFree_grows (h : Hdr) (key : W64) (s : State) {t : State} (e : execKeyFree h key s = .next t) :
    LcwGrows s.otp.lcw t.otp.lcw := by
  rw [execKeyFree, Host.Outcome.next.injEq] at e
  subst e
  apply State.run_grows
  intro x
  split
  · trivial
  · split
    · trivial
    · rename_i e
      have f := (State.freeKey_frame _ _ e).2.2
      split
      · exact LcwGrows.trans (.of_eq (by simpa using f)) (State.requestCommit_grows _ _)
      · exact .of_eq f

theorem execKeyUpdate_grows (h : Hdr) (record : Buf) (s : State) {t : State}
    (e : execKeyUpdate h record s = .next t) : LcwGrows s.otp.lcw t.otp.lcw := by
  rw [execKeyUpdate, Host.Outcome.next.injEq] at e
  subst e
  apply State.run_grows
  intro x
  repeat' split
  all_goals first | exact trivial | exact State.requestCommit_grows _ _

theorem execLcyAdvance_grows (h : Hdr) (buf : Buf) (wordFails candFails : Nat) (s : State) {t : State}
    (e : execLcyAdvance h buf wordFails candFails s = .next t) : LcwGrows s.otp.lcw t.otp.lcw := by
  rw [execLcyAdvance, Host.Outcome.next.injEq] at e
  subst e
  apply State.run_grows
  intro x
  repeat' split
  all_goals first | exact trivial | exact State.requestCommit_grows _ _

theorem State.runJob_grows (s : State) (id : JobId) (op : Nat) (inp : JobIn) (f : Job → List Byte → State → State)
    (hf : ∀ j b x, LcwGrows x.otp.lcw (f j b x).otp.lcw) : LcwGrows s.otp.lcw (s.runJob id op inp f).otp.lcw := by
  unfold State.runJob
  repeat' (first | split | dsimp only)
  all_goals first | (refine LcwGrows.of_eq ?_; simp; done) | exact LcwGrows.trans (.of_eq (by simp)) (hf _ _ _)

theorem State.withWords_grows (s : State) (id : JobId) (gens : List Nat) (f : List W512 → State → State)
    (hf : ∀ ws x, LcwGrows x.otp.lcw (f ws x).otp.lcw) : LcwGrows s.otp.lcw (State.withWords s id gens f).otp.lcw := by
  induction gens generalizing s f with
  | nil => simpa [State.withWords] using hf [] s
  | cons g t ih =>
    rw [State.withWords]
    have k := (State.drawFrom_frame s g).2.2
    split
    · exact .refl _
    · split
      · exact .of_eq (by simp)
      · exact LcwGrows.trans (.of_eq k) (ih (s.drawFrom g).2 (fun ws x => f ((s.drawFrom g).1 :: ws) x) (fun ws x => hf _ x))

theorem execLmsKeygen_grows (id : JobId) (inp : JobIn) (ok : Bool) (s : State) {t : State}
    (h : execLmsKeygen id inp ok s = .next t) : LcwGrows s.otp.lcw t.otp.lcw := by
  unfold execLmsKeygen at h
  split at h <;> (rw [Host.Outcome.next.injEq] at h; subst h)
  · exact .refl _
  · apply State.runJob_grows
    intro j b x
    apply State.withWords_grows
    intro ws y
    dsimp only
    repeat' split
    all_goals first
      | (refine LcwGrows.of_eq ?_; simp; done)
      | exact LcwGrows.trans (.of_eq (by simp)) (State.requestCommit_grows _ _)

/-! ### Starts -/

theorem State.resumeLife_grows (s : State) {t : State} (h : s.resumeLife = some t) : LcwGrows s.otp.lcw t.otp.lcw := by
  unfold State.resumeLife at h
  dsimp only at h
  split at h
  · rw [Option.some.injEq] at h; subst h; exact .refl _
  · split at h
    · cases h
    · rename_i s1 c e
      have k : s1.otp.lcw = s.otp.lcw := by
        split at e
        · rw [Option.map_eq_some_iff] at e
          obtain ⟨⟨x, y⟩, e, f⟩ := e
          rw [Prod.mk.injEq] at f
          obtain ⟨rfl, -⟩ := f
          simpa using (State.resumeDus_frame _ _ e).2.2
        · rw [Option.some.injEq, Prod.mk.injEq] at e
          obtain ⟨rfl, -⟩ := e
          rfl
      refine LcwGrows.trans (.of_eq ?_) (State.lifeTail_grows _ _ _ _ _ _ h)
      rw [← k]
      split <;> simp

theorem startState_grows (r : Start) (f : State → Start) (l : List W64) (h1 : LcwGrows l (startState r).otp.lcw)
    (h2 : ∀ t, LcwGrows t.otp.lcw (startState (f t)).otp.lcw) : LcwGrows l (startState (r >>= f)).otp.lcw := by
  cases r with
  | error t => exact h1
  | ok t => exact LcwGrows.trans h1 (h2 t)

theorem State.tryStep_lcw (s : State) (inp : StartIn) (n : Nat) (reason : W16) :
    (startState (s.tryStep inp n reason)).otp.lcw = s.otp.lcw := by
  unfold State.tryStep
  dsimp only
  split <;> simp [startState]

theorem State.stage1_lcw (s : State) (inp : StartIn) : LcwGrows s.otp.lcw (startState (s.stage1 inp)).otp.lcw := by
  refine startState_grows _ _ _ (.of_eq (by rw [State.tryStep_lcw]; simp)) (fun t => ?_)
  dsimp only
  repeat' split
  all_goals exact .of_eq (by simp [startState])

theorem State.stage2_lcw (s : State) (inp : StartIn) : LcwGrows s.otp.lcw (startState (s.stage2 inp)).otp.lcw := by
  refine startState_grows _ _ _ (.of_eq (State.tryStep_lcw _ _ _ _)) (fun t => ?_)
  refine startState_grows _ _ _ (.of_eq (by rw [State.tryStep_lcw]; simp)) (fun u => ?_)
  dsimp only
  split
  · exact .of_eq (by simp [startState])
  split
  · exact .of_eq (by simp [startState])
  refine startState_grows _ _ _ (.of_eq (by rw [State.tryStep_lcw]; simp)) (fun v => ?_)
  split
  · exact .of_eq (by simp [startState])
  · rename_i e
    have g := (State.backupUp_frame _ e).2.2
    simp only [State.atStep_frame, State.gritUp_frame] at g
    exact .of_eq g

theorem State.stage3_lcw (s : State) : LcwGrows s.otp.lcw (startState s.stage3).otp.lcw := by
  unfold State.stage3
  dsimp only
  split
  · exact .of_eq (by simp [startState])
  · rename_i t e
    have g := State.resumeLife_grows _ e
    refine LcwGrows.trans (LcwGrows.trans (.of_eq (by simp)) g) (.of_eq ?_)
    clear g e
    split
    · rw [startState]; split <;> simp
    · rename_i u e
      have k := (State.bootRecUp_frame _ e).2.2
      have k1 : u.otp.lcw = t.otp.lcw := by rw [k]; split <;> simp
      have m := (State.keysUp_frame (u.atStep 9)).2.2
      split
      · rename_i e2; rw [e2] at m; simp only [State.atStep_frame, k1] at m; simpa [startState] using m
      · rename_i e2; rw [e2] at m; simp only [State.atStep_frame, k1] at m; exact m

theorem State.stage4_lcw (s : State) (inp : StartIn) : LcwGrows s.otp.lcw (startState (s.stage4 inp)).otp.lcw := by
  unfold State.stage4
  have m := (State.selectImage_frame (s.atStep 10) inp).2.2
  split
  · rename_i e; rw [e] at m; exact .of_eq (by simpa [startState] using m)
  · rename_i t k e
    rw [e] at m
    refine startState_grows _ _ _ (.of_eq ?_) (fun u => ?_)
    · exact (State.tryStep_lcw _ _ _ _).trans (by simpa using m)
    · dsimp only
      repeat' split
      all_goals exact .of_eq (by simp [startState])

theorem State.runStart_grows (s : State) (inp : StartIn) : LcwGrows s.otp.lcw (s.runStart inp).otp.lcw := by
  have g : s.runStart inp = startState (s.stage1 inp >>= fun a => a.stage2 inp >>= fun b => b.stage3 >>= fun c => c.stage4 inp) := rfl
  rw [g]
  refine startState_grows _ _ _ (State.stage1_lcw _ _) (fun t => ?_)
  refine startState_grows _ _ _ (State.stage2_lcw _ _) (fun t => ?_)
  exact startState_grows _ _ _ (State.stage3_lcw _) (fun t => State.stage4_lcw _ _)

theorem State.release_grows (s : State) (inp : StartIn) : LcwGrows s.otp.lcw (s.release inp).otp.lcw := by
  unfold State.release
  exact State.runStart_grows _ _

theorem runSeq_grows (fuel k : Nat) (inp : StartIn) (s : State) : LcwGrows s.otp.lcw (runSeq fuel k inp s).otp.lcw := by
  induction fuel generalizing k s with
  | zero => exact .refl _
  | succ n ih =>
    rw [runSeq]
    dsimp only
    repeat' split
    · exact .refl _
    · exact .refl _
    · exact State.release_grows _ _
    · exact LcwGrows.trans (.of_eq (by simp)) (ih _ _)

theorem State.reseq_grows (s : State) (inp : StartIn) : LcwGrows s.otp.lcw (s.reseq inp).otp.lcw := by
  unfold State.reseq
  exact LcwGrows.trans (.of_eq (by simp)) (runSeq_grows _ _ _ _)

theorem State.warmReset_grows (s : State) (inp : StartIn) (held : Bool) :
    LcwGrows s.otp.lcw (s.warmReset inp held).otp.lcw := by
  unfold State.warmReset
  dsimp only
  split
  · exact .of_eq (by simp)
  · exact LcwGrows.trans (.of_eq (by simp)) (State.runStart_grows _ _)

theorem execColdStart_grows (inp : StartIn) (s : State) {t : State} (h : execColdStart inp s = .next t) :
    LcwGrows s.otp.lcw t.otp.lcw := by
  unfold execColdStart at h
  split at h <;> (rw [Host.Outcome.next.injEq] at h; subst h)
  · exact LcwGrows.trans (.of_eq (by simp)) (runSeq_grows _ _ _ _)
  · exact .refl _

theorem execPowerStepReady_grows (inp : StartIn) (s : State) {t : State} (h : execPowerStepReady inp s = .next t) :
    LcwGrows s.otp.lcw t.otp.lcw := by
  unfold execPowerStepReady at h
  dsimp only at h
  split at h
  · split at h
    · rw [Host.Outcome.next.injEq] at h
      rw [← h]
      split
      · exact .refl _
      · exact State.release_grows _ _
    · rw [Host.Outcome.next.injEq] at h
      rw [← h]
      exact LcwGrows.trans (.of_eq (State.powerStep_frame _ _).2.2) (runSeq_grows _ _ _ _)
  · rw [Host.Outcome.next.injEq] at h; rw [← h]; exact .refl _

theorem execSequenceRestart_grows (inp : StartIn) (s : State) {t : State} (h : execSequenceRestart inp s = .next t) :
    LcwGrows s.otp.lcw t.otp.lcw := by
  unfold execSequenceRestart at h
  split at h <;> (rw [Host.Outcome.next.injEq] at h; subst h)
  · exact State.reseq_grows _ _
  · exact .refl _

theorem execWarmReset_grows (src : ResetSrc) (held : Bool) (inp : StartIn) (s : State) {t : State}
    (h : execWarmReset src held inp s = .next t) : LcwGrows s.otp.lcw t.otp.lcw := by
  have k : LcwGrows s.otp.lcw
      ({ s with boot := { s.boot with resetHeld := held }, jtag := { s.jtag with drive := jtagDrive s.jtag.ir held } } :
        State).otp.lcw := .refl _
  unfold execWarmReset at h
  generalize ({ s with boot := { s.boot with resetHeld := held }, jtag := { s.jtag with drive := jtagDrive s.jtag.ir held } } :
    State) = s1 at h k
  split at h
  · split at h <;> (rw [Host.Outcome.next.injEq] at h; rw [← h])
    · exact State.warmReset_grows _ _ _
    · exact .refl _
  · dsimp only at h
    split at h
    · rw [Host.Outcome.next.injEq] at h; rw [← h]; exact k.trans (State.warmReset_grows _ _ _)
    · split at h <;> (rw [Host.Outcome.next.injEq] at h; rw [← h])
      · split
        · have g := State.reseq_grows { s1 with pwr := { s1.pwr with failRow := 0 } } inp
          exact k.trans g
        · exact k
      · split
        · exact k
        · exact k.trans (.of_eq (State.wake_frame _ _).2.2)
      · split
        · exact k.trans (State.release_grows _ _)
        · exact k
      · exact k

theorem execLcReset_grows (inp : StartIn) (s : State) {t : State} (h : execLcReset inp s = .next t) :
    LcwGrows s.otp.lcw t.otp.lcw := by
  unfold execLcReset at h
  split at h <;> (rw [Host.Outcome.next.injEq] at h; subst h)
  · exact State.warmReset_grows _ _ _
  · exact .refl _

theorem execFwRecoverReset_grows (inp : StartIn) (s : State) {t : State} (h : execFwRecoverReset inp s = .next t) :
    LcwGrows s.otp.lcw t.otp.lcw := by
  unfold execFwRecoverReset at h
  split at h <;> (rw [Host.Outcome.next.injEq] at h; subst h)
  · exact State.warmReset_grows _ _ _
  · exact .refl _

theorem execStartRetry_grows (inp : StartIn) (s : State) {t : State} (h : execStartRetry inp s = .next t) :
    LcwGrows s.otp.lcw t.otp.lcw := by
  unfold execStartRetry at h
  split at h <;> (rw [Host.Outcome.next.injEq] at h; subst h)
  · exact LcwGrows.trans (.of_eq rfl) (State.runStart_grows _ _)
  · exact .refl _

theorem execDustWake_grows (inp : StartIn) (s : State) {t : State} (h : execDustWake inp s = .next t) :
    LcwGrows s.otp.lcw t.otp.lcw := by
  unfold execDustWake at h
  dsimp only at h
  repeat' split at h
  all_goals (rw [Host.Outcome.next.injEq] at h; subst h)
  · exact .refl _
  · exact .of_eq (by simp)
  · exact LcwGrows.trans (.of_eq (by simp)) (runSeq_grows _ _ _ _)
  · exact .refl _

theorem execAutoExit_grows (w : UnitId) (dev : Bool) (inp : StartIn) (s : State) {t : State}
    (h : execAutoExit w dev inp s = .next t) : LcwGrows s.otp.lcw t.otp.lcw := by
  unfold execAutoExit at h
  repeat' split at h
  all_goals (rw [Host.Outcome.next.injEq] at h; subst h)
  · exact .refl _
  · exact .refl _
  · exact .of_eq (by simp)
  · exact LcwGrows.trans (.of_eq (by simp)) (State.warmReset_grows _ _ _)
  · exact .of_eq (by simp)

end Sys2Proof.Machine
end

