-- ==== Sys2Proof/WellFormed.lean ====
section
/-!
DEFINITION. Well-formed commands: operands within the fields that carry them and the units that exist. A frame's own checks
(R137, R140) are part of its meaning and no part of this.
-/
namespace Sys2Proof
open Sys2Proof.Machine

/-- An argument of `w` bits. -/
def argOk (w n : Nat) : Bool := decide (n < 2 ^ w)

/-- PF0 or a VF. -/
def fnOk (f : Nat) : Bool := decide (f < 256)

def vfOk (v : Nat) : Bool := decide (1 ≤ v ∧ v < 256)

/-- A request comes from slot 1-15, from VF1-VF255 or over the SMBus, and fits its frame (R116, R124). -/
def hdrOk (h : Hdr) : Bool :=
  match h.iss with
  | .pf n => decide (1 ≤ n ∧ n ≤ 15 ∧ h.argLen < 65536)
  | .vf v => vfOk v && decide (h.argLen < 65536)
  | .smb => decide (h.argLen < 65536)

/-- The DMA of a buffer gave as many bytes as it was asked for, or an error (R126). -/
def bufOk (b : Buf) : Bool := b.err.isSome || decide (b.data.length = 0 ∨ b.data.length = b.len.toNat)

/-- Queue 4 096 is Horrov's own (R138). -/
def jobIdOk (id : JobId) : Bool := decide (id.q ≤ 4096)

def queueOk (q : Nat) : Bool := decide (q < 4096)

/-- A queue page of PF BAR0, or of a VF BAR0 (R39). -/
def pageOk (f p : Nat) : Bool := if f = 0 then decide (p < 4096) else decide (p < 16)

def engOk (n : Nat) : Bool := decide (n < 36)

def quadOk (q : Nat) : Bool := decide (q < 9)

/-- Arbiter resources of ranks 1-15 (R237). -/
def resOk (k : Nat) : Bool := decide (1 ≤ k ∧ k ≤ 15)

def unitOk (u : Nat) : Bool := decide (u < 151)

def pairOk (n : Nat) : Bool := decide (n < 8)

def portOk (p : Nat) : Bool := decide (p < 16)

def subOk (i : Nat) : Bool := decide (i < 4)

def saOk (a : Nat) : Bool := decide (a < 16384)

/-- Holders of Float grants (R557). -/
def holderOk (h : Holder) : Bool :=
  match h.kind with
  | .standing => decide (h.idx < 8)
  | .renderLa => decide (h.idx < 36)
  | .lath => decide (h.idx < 36)
  | .hawk => decide (h.idx < 9)
  | .sponge => decide (h.idx < 16)

/-- A write carries 1 to 64 bytes; the value of a BAR write is 64 bits, so wider ones are PUSH_SLOT_WRITE. -/
def regWrOk : RegWr → Bool
  | .bar f _ size _ => fnOk f && decide (1 ≤ size ∧ size ≤ 8)
  | .bar2 f _ size _ => fnOk f && decide (1 ≤ size ∧ size ≤ 8)
  | .cfg f _ _ => fnOk f
  | .arongReq _ _ _ => true

/-- The command can occur. -/
def Instr.wf : Instr → Bool
  | .devInfo h => hdrOk h
  | .devStatus h => hdrOk h
  | .devExpert h enable => hdrOk h && argOk 8 enable
  | .devLog h _ out => hdrOk h && bufOk out
  | .fnInfo h vf => hdrOk h && argOk 8 vf
  | .fnQuota h profile vf quota => hdrOk h && argOk 16 profile && argOk 8 vf && argOk 16 quota
  | .fnPerm h vf _ => hdrOk h && argOk 8 vf
  | .queAssign h q fn slot cls => hdrOk h && argOk 16 q && argOk 8 fn && argOk 8 slot && argOk 8 cls
  | .queRelease h q => hdrOk h && argOk 16 q
  | .queClass h cls profile weight masks => hdrOk h && argOk 8 cls && argOk 8 profile && argOk 8 weight && decide (masks.length ≤ 5)
  | .queInfo h queue => hdrOk h && argOk 16 queue
  | .queMove h q cls => hdrOk h && argOk 16 q && argOk 8 cls
  | .txnBegin h timeout => hdrOk h && argOk 32 timeout
  | .txnCommit h => hdrOk h
  | .txnRollback h => hdrOk h
  | .txnStatus h => hdrOk h
  | .portMode h pair profile params => hdrOk h && argOk 8 pair && argOk 8 profile && bufOk params
  | .portEnable h pair => hdrOk h && argOk 8 pair
  | .portDisable h pair => hdrOk h && argOk 8 pair
  | .portStatus h port => hdrOk h && argOk 8 port
  | .portRecal h port lane disruptive => hdrOk h && argOk 8 port && argOk 8 lane && argOk 8 disruptive
  | .saCreate h dir sa pair suite params => hdrOk h && argOk 8 dir && argOk 16 sa && argOk 8 pair && argOk 8 suite && bufOk params
  | .saStage h dir sa _ _ _ _ _ => hdrOk h && argOk 8 dir && argOk 16 sa
  | .saCommit h dir sa => hdrOk h && argOk 8 dir && argOk 16 sa
  | .saDelete h dir sa => hdrOk h && argOk 8 dir && argOk 16 sa
  | .saTimers h profile overlap drain => hdrOk h && argOk 8 profile && argOk 32 overlap && argOk 32 drain
  | .saStatus h dir sa => hdrOk h && argOk 8 dir && argOk 16 sa
  | .keyInfo h _ => hdrOk h
  | .keyFree h _ => hdrOk h
  | .keyImport h usage _ _ blob => hdrOk h && argOk 8 usage && bufOk blob
  | .keyUpdate h record => hdrOk h && bufOk record
  | .keyAttest h _ => hdrOk h
  | .keyList h first out => hdrOk h && argOk 32 first && bufOk out
  | .fltBudget h profile tokens caps => hdrOk h && argOk 8 profile && argOk 16 tokens && caps.all (argOk 16) && decide (caps.length ≤ 4)
  | .fltStatus h => hdrOk h
  | .pwrTelemetry h rail => hdrOk h && argOk 8 rail
  | .pwrState h profile target ms => hdrOk h && argOk 8 profile && argOk 8 target && argOk 32 ms
  | .pwrWake h _ => hdrOk h
  | .grtStatus h => hdrOk h
  | .grtKat h target _ => hdrOk h && argOk 8 target
  | .scrStatus h => hdrOk h
  | .scrClear h cause => hdrOk h && argOk 16 cause
  | .scrConfig h profile cause rank quiet => hdrOk h && argOk 8 profile && argOk 16 cause && argOk 8 rank && argOk 32 quiet
  | .tmpStatusCmd h => hdrOk h
  | .tmpClear h buf _ => hdrOk h && bufOk buf
  | .tmpTest h source _ _ => hdrOk h && argOk 8 source
  | .lcyStatusCmd h => hdrOk h
  | .lcyAdvance h buf wordFails candFails => hdrOk h && decide (wordFails ≤ 8) && decide (candFails ≤ 4) && bufOk buf
  | .lcyDebug h token => hdrOk h && bufOk token
  | .fwInfo h => hdrOk h
  | .fwStage h image buf _ => hdrOk h && argOk 8 image && bufOk buf
  | .fwActivate h image => hdrOk h && argOk 8 image
  | .fwPutty h buf => hdrOk h && bufOk buf
  | .fwRecover h buf _ => hdrOk h && bufOk buf
  | .engStatus h kind idx => hdrOk h && argOk 8 kind && argOk 8 idx
  | .engRetire h kind idx => hdrOk h && argOk 8 kind && argOk 8 idx
  | .engKat h kind idx => hdrOk h && argOk 8 kind && argOk 8 idx
  | .engMargin h => hdrOk h
  | .hashExport h n out => hdrOk h && argOk 16 n && bufOk out
  | .ctxFree h n => hdrOk h && argOk 16 n
  | .opFamily h _ _ _ _ => hdrOk h
  | .cmdTimeLimit h => hdrOk h
  | .mbxDoneClear _ => true
  | .vmbDoneClear vf => vfOk vf
  | .smbusTimeout => true
  | .pmbusPage _ => true
  | .operation _ => true
  | .clearFaults _ => true
  | .capability _ => true
  | .voutMode _ => true
  | .ioutOcWarnLimit _ => true
  | .otWarnLimit _ => true
  | .vinOvWarnLimit _ => true
  | .vinUvWarnLimit _ => true
  | .statusByte _ => true
  | .statusWord _ => true
  | .statusVout _ => true
  | .statusIout _ => true
  | .statusInput _ => true
  | .statusTemperature _ => true
  | .statusMfrSpecific _ => true
  | .readVin _ => true
  | .readIin _ => true
  | .readVout _ => true
  | .readIout _ => true
  | .readTemperature1 _ => true
  | .readPout _ => true
  | .readPin _ => true
  | .pmbusRevision _ => true
  | .mfrId _ => true
  | .mfrModel _ => true
  | .alertResponse => true
  | .telemetrySample page _ _ _ => decide (page < 8)
  | .jIdcode => true
  | .jExtest => true
  | .jSamplePreload _ => true
  | .jClamp => true
  | .jHighz => true
  | .jDbgHalt => true
  | .jDbgDiag => true
  | .jDbgTrace => true
  | .jDbgSerdes => true
  | .jDbgLstep => true
  | .jDbgMram => true
  | .jDbgScan => true
  | .jBypass => true
  | .regWrite w => regWrOk w
  | .unmappedRead r => fnOk r.f
  | .expertWindowRead _ _ => true
  | .reg64LowRead f _ => fnOk f
  | .pcieErrCntRead k => decide (k < 6)
  | .queJobsCntRead f p => fnOk f && pageOk f p
  | .spgYieldCntRead => true
  | .bndFullCntRead => true
  | .fltWaitCntRead => true
  | .fltLimitCntRead => true
  | .rndSaevRead => true
  | .rndSaevStatRead => true
  | .evqRecLoRead => true
  | .evqRecHiRead => true
  | .evqStatusRead => true
  | .quePiWrite f page _ => fnOk f && pageOk f page
  | .pushSlotWrite f page off data => fnOk f && pageOk f page && decide (off + data.length ≤ 512)
  | .queInvalHold f page _ => fnOk f && pageOk f page
  | .queInvalRelease f page _ => fnOk f && pageOk f page
  | .queueEnable f page _ => fnOk f && pageOk f page
  | .queueDisable f page _ => fnOk f && pageOk f page
  | .queueStopped q => queueOk q
  | .queModWrite f page timer count => fnOk f && pageOk f page && decide (timer < 1024 ∧ count < 256)
  | .msixUnmask f _ _ => fnOk f
  | .descriptorFetch q _ => queueOk q
  | .jobDispatch q => queueOk q
  | .jobEnd id => jobIdOk id
  | .queModTimer q => queueOk q
  | .fence q => queueOk q
  | .nop q => queueOk q
  | .aeadSeal id _ => jobIdOk id
  | .aeadOpen id _ => jobIdOk id
  | .gmacTag id _ => jobIdOk id
  | .gmacCheck id _ => jobIdOk id
  | .kemKeygen id _ _ => jobIdOk id
  | .kemEncaps id _ => jobIdOk id
  | .kemDecaps id _ => jobIdOk id
  | .hybEncaps id _ => jobIdOk id
  | .hybDecaps id _ => jobIdOk id
  | .kemRekey id _ => jobIdOk id
  | .hybridLathPart id _ _ => jobIdOk id
  | .dsaKeygen id _ _ => jobIdOk id
  | .dsaSign id _ _ => jobIdOk id
  | .dsaVerify id _ => jobIdOk id
  | .slhKeygen id _ _ => jobIdOk id
  | .slhSign id _ _ => jobIdOk id
  | .slhVerify id _ => jobIdOk id
  | .lmsKeygen id _ _ => jobIdOk id
  | .lmsSign id _ _ => jobIdOk id
  | .lmsVerify id _ => jobIdOk id
  | .reservationWriteDone k _ => decide (k < 131072)
  | .lmsRebuildDone k => decide (k < 131072)
  | .hqcKeygen id _ _ => jobIdOk id
  | .hqcEncaps id _ => jobIdOk id
  | .hqcDecaps id _ => jobIdOk id
  | .mceKeygen id _ _ => jobIdOk id
  | .mceEncaps id _ => jobIdOk id
  | .mceDecaps id _ => jobIdOk id
  | .mceCache id _ => jobIdOk id
  | .regionAlloc id q => jobIdOk id && quadOk q
  | .mceKeyLoaded id _ => jobIdOk id
  | .hashDigest id _ => jobIdOk id
  | .hashImport id _ => jobIdOk id
  | .macHmac id _ => jobIdOk id
  | .macKmac id _ => jobIdOk id
  | .kdfDerive id _ => jobIdOk id
  | .poolYield id => jobIdOk id
  | .poolResume id => jobIdOk id
  | .ecKeygen id _ _ => jobIdOk id
  | .ecDh id _ _ => jobIdOk id
  | .ecSign id _ _ => jobIdOk id
  | .ecVerify id _ => jobIdOk id
  | .rsaSign id _ _ => jobIdOk id
  | .rsaVerify id _ => jobIdOk id
  | .rsaEncrypt id _ => jobIdOk id
  | .rsaDecrypt id _ _ => jobIdOk id
  | .bnModexp id _ => jobIdOk id
  | .bnModmul id _ => jobIdOk id
  | .mSeq n _ => engOk n
  | .mBranch n _ _ => engOk n
  | .mCall n _ => engOk n
  | .mReturn n => engOk n
  | .mSafe n _ => engOk n
  | .mHalt n => engOk n
  | .mDispatch n _ _ => engOk n
  | .mPjump n _ => engOk n
  | .mRjump n _ => engOk n
  | .mAdd n _ _ _ => engOk n
  | .mSub n _ _ _ => engOk n
  | .mAnd n _ _ _ => engOk n
  | .mOr n _ _ _ => engOk n
  | .mXor n _ _ _ => engOk n
  | .mSll n _ _ _ => engOk n
  | .mSrl n _ _ _ => engOk n
  | .mSra n _ _ _ => engOk n
  | .mMul n _ _ _ => engOk n
  | .mMulhu n _ _ _ => engOk n
  | .mAddi n _ _ _ => engOk n
  | .mAndi n _ _ _ => engOk n
  | .mOri n _ _ _ => engOk n
  | .mXori n _ _ _ => engOk n
  | .mShi n _ _ _ _ => engOk n
  | .mLui n _ _ => engOk n
  | .mCmp n _ _ => engOk n
  | .mCmpi n _ _ => engOk n
  | .mMfs n _ _ => engOk n
  | .mMts n _ _ => engOk n
  | .mSel n _ _ _ => engOk n
  | .mVadd n _ => engOk n
  | .mVsub n _ => engOk n
  | .mVand n _ => engOk n
  | .mVor n _ => engOk n
  | .mVxor n _ => engOk n
  | .mVsll n _ => engOk n
  | .mVsrl n _ => engOk n
  | .mVsra n _ => engOk n
  | .mVmul n _ => engOk n
  | .mVmulhu n _ => engOk n
  | .mVminu n _ => engOk n
  | .mVmaxu n _ => engOk n
  | .mVmv n _ => engOk n
  | .mVcmp n _ => engOk n
  | .mVclmul n _ => engOk n
  | .mVaddq n _ => engOk n
  | .mVsubq n _ => engOk n
  | .mVmulq n _ => engOk n
  | .mVredq n _ => engOk n
  | .mVntt n _ => engOk n
  | .mVintt n _ => engOk n
  | .mVtwid n _ => engOk n
  | .mVbmul n _ => engOk n
  | .mVcprs n _ => engOk n
  | .mVdcprs n _ => engOk n
  | .mVunpk n _ => engOk n
  | .mVpack n _ => engOk n
  | .mVcompress n _ => engOk n
  | .mVpopc n _ => engOk n
  | .mSetvl n _ => engOk n
  | .mVmop n _ => engOk n
  | .mVmvxv n _ => engOk n
  | .mVmvvx n _ => engOk n
  | .mSmvxs n _ => engOk n
  | .mSmvsx n _ => engOk n
  | .mVslidedn n _ => engOk n
  | .mVslideup n _ => engOk n
  | .mVred n _ => engOk n
  | .mVperm n _ => engOk n
  | .mVbsll n _ => engOk n
  | .mVbsrl n _ => engOk n
  | .mVbrot n _ => engOk n
  | .mVbpopc n _ => engOk n
  | .mVbtrn n _ => engOk n
  | .mVgfmul n _ => engOk n
  | .mVfclr n _ => engOk n
  | .mVfrd n _ => engOk n
  | .mVaddqS n _ => engOk n
  | .mVsubqS n _ => engOk n
  | .mVmulqS n _ => engOk n
  | .mVnttS n _ => engOk n
  | .mVinttS n _ => engOk n
  | .mVbmulS n _ => engOk n
  | .mVxorS n _ => engOk n
  | .mVandS n _ => engOk n
  | .mVshS n _ => engOk n
  | .mVrefS n _ => engOk n
  | .mVa2bS n _ => engOk n
  | .mVb2aS n _ => engOk n
  | .mVcprsS n _ => engOk n
  | .mVmeqzS n _ => engOk n
  | .mVrecomb n _ => engOk n
  | .mVsplit n _ => engOk n
  | .mVle n _ => engOk n
  | .mVse n _ => engOk n
  | .mVlse n _ => engOk n
  | .mVsse n _ => engOk n
  | .mVlux n _ => engOk n
  | .mVsux n _ => engOk n
  | .mVlseg n _ => engOk n
  | .mVsseg n _ => engOk n
  | .mSld n _ => engOk n
  | .mSst n _ => engOk n
  | .mXld n _ => engOk n
  | .mXst n _ => engOk n
  | .mAcq n _ => engOk n
  | .mRel n _ => engOk n
  | .mLock n _ => engOk n
  | .mUnlock n _ => engOk n
  | .mSinit n _ => engOk n
  | .mSabs n _ => engOk n
  | .mSsqz n _ => engOk n
  | .mMget n _ => engOk n
  | .mBload n _ => engOk n
  | .mBstor n _ => engOk n
  | .mDin n _ _ => engOk n
  | .mDout n _ _ => engOk n
  | .spongeOpDone n => engOk n
  | .dmaDone n _ => engOk n
  | .arbRound q k _ _ => quadOk q && resOk k
  | .lockOver q r => quadOk q && resOk r
  | .safeMiss n => engOk n
  | .preemptRequest n => engOk n
  | .jobResume n => engOk n
  | .engineWipeDone hawk n => if hawk then decide (n < 9) else engOk n
  | .hostFrameRx n sub _ _ _ => pairOk n && subOk sub
  | .lineFrameRx n sub _ _ _ => pairOk n && subOk sub
  | .pauseRefresh n sub => pairOk n && subOk sub
  | .renderFrameDone e => engOk e
  | .commitEpoch => true
  | .overlapTimer a k => saOk a && decide (k < 2)
  | .drainTimer dir a k => decide (dir < 2) && saOk a && decide (k < 2)
  | .txnTimeout => true
  | .portUp port sub => portOk port && subOk sub
  | .portLockLoss port sub _ => portOk port && subOk sub
  | .remoteFault port sub => portOk port && subOk sub
  | .renderTakeover u => unitOk u
  | .maskFeedStall q _ => quadOk q
  | .vfEnable => true
  | .vfReady v => vfOk v
  | .vfDisable => true
  | .flr f => fnOk f
  | .flrComplete f => fnOk f
  | .persistRestore => true
  | .busMasterEnable f => fnOk f
  | .d3hotEntry f => fnOk f
  | .d3hotExit f => fnOk f
  | .linkDown => true
  | .linkChange _ _ _ => true
  | .l1Entry => true
  | .dmaReadError id _ => jobIdOk id
  | .floatGrant => true
  | .revokeAck h => holderOk h
  | .fltRevokeLate h => holderOk h
  | .fltLimitAssert => true
  | .fltLimitDeassert => true
  | .fltOverdraw h => holderOk h
  | .tjWarn => true
  | .tjCrit => true
  | .phaseFault => true
  | .railOor page => decide (page < 7)
  | .vcoreSlewDone => true
  | .clockRelock u => unitOk u
  | .rootUnlock _ => true
  | .sdUnlock k => decide (k < 4)
  | .pcieRefclkLoss => true
  | .coldStart _ => true
  | .warmReset _ _ _ => true
  | .vinLoss => true
  | .vinOvervoltage => true
  | .vinWarn => true
  | .powerStepReady _ => true
  | .seqStepTimeout => true
  | .startTimeout => true
  | .startRetry _ => true
  | .lcReset _ => true
  | .fwRecoverReset _ => true
  | .idleEntry => true
  | .dustJobTimeout => true
  | .dustSample _ => true
  | .dustWake _ => true
  | .wakeN => true
  | .rtcAlarm => true
  | .tamperAlarm k _ => decide (k < 19)
  | .debugExpire => true
  | .sourceWindowEnd k w => decide (k < 8 ∧ w.count ≤ 1024)
  | .seedDone _ _ => true
  | .gritStartTimeout => true
  | .reseedDue n _ => decide (n < 38)
  | .reseedComplete n => decide (n < 38)
  | .genOverdue n _ => decide (n < 38)
  | .rngWaitTimeout id n => jobIdOk id && decide (n < 38)
  | .refreshSweep => true
  | .slotWipe => true
  | .journalCommitDone _ => true
  | .causeReport c unit _ => decide (c < 768) && argOk 12 unit
  | .wire g b unit => decide (g < 24 ∧ b < 31) && argOk 12 unit
  | .scrCheck => true
  | .autoExit w _ _ => argOk 12 w.unit && decide (w.group < 24)
  | .seamRetransmit _ _ => true
  | .katDone u _ => unitOk u
  | .unitDrained u => unitOk u
  | .engKatTimeout u => unitOk u
  | .dailyCycle => true
  | .plbMarginLow u _ _ => decide (u < 183)
  | .replanRetry => true
  | .mbxDoorbell vf slot _ => fnOk vf && decide (slot < 16)
  | .vbatLoss => true
  | .vbatApplied => true
  | .vinRecovery => true
  | .thermalCapLift => true
  | .pcieLinkError kind => decide (kind < 3)
  | .pauseExpiry n sub _ => pairOk n && subOk sub
  | .sequenceRestart _ => true
  | .mramScrub _ _ => true
  | .drainedMeasurementDone u _ _ => unitOk u
  | .cycleWaitExpiry => true

end Sys2Proof
end

