-- ==== Sys2Proof/Tests/Slice0.lean ====
section
/-!
SUPPORT. The smoke test of well-formedness, one small test per family, and for each statement of Certificates/Slice0/Obligations.lean a
concrete state that meets its hypotheses (`witness_<Name>`, a clause of the statement for each conjunct). Where a hypothesis asks a free
value of Config for an answer (a signature that verifies, a key that is valid) no concrete state can show it: the witness shows the
others, and the statement's other clause covers the other answer.
-/
namespace Sys2Proof.Tests
open Sys2Proof.Machine Sys2Proof.Spec

set_option Elab.async false

/-! ## States and headers for the tests -/

/-- A device in RUN with its link up, PF0 enabled for bus mastering and a command frame waiting in slot 1. -/
def base : State :=
  { pcie := { linkUp := true, speed := 5, width := 16, fns := [(0, { gen := 1, st := .active, mse := true, bme := true })] }
    mbx := { ready := true, slots := [(1, { st := .queued })], order := [1] }
    boot := { step := 12 } }

/-- The header of a frame of PF0 with `n` bytes of arguments at level `l`. -/
def hd (n : Nat) (l : Byte := 0) : Hdr := { argLen := n, level := l }

/-- A buffer of the host with the bytes read from it. -/
def bufOf (bytes : List Byte) (len : Nat := 0) : Buf :=
  { addr := 0x1000, len := BitVec.ofNat 32 (if len = 0 then bytes.length else len), data := bytes }

/-- `base` with VF1 and VF2, the second one in its FLR. -/
def withVfs : State := { base with pcie := { base.pcie with
  vfEn := true, numVfs := 2,
  fns := [(0, { gen := 1, st := .active, mse := true, bme := true }), (1, { gen := 2, st := .active, mse := true, bme := true, perm := 3 }),
    (2, { gen := 1, st := .flr, flr := true, quota := 7 })] } }

/-- Nothing that the free value says: the call did not end with an error. -/
abbrev Ok {ε α : Type} (e : Except ε α) : Prop := e.isOk = true

/-- A NOP, and a SHA3-256 digest of 64 bytes. -/
def nopDesc : Desc := { opcode := 1 }

def digestDesc : Desc := { opcode := 0x60, inLen := 64, outLen := 32, inPtr := 0x1000, outPtr := 0x2000, param := 0x1200 }

/-- `base` with every unit in service and every generator seeded. -/
def withUnits : State := { base with
  plb := { units := (List.range 160).map (fun n => (n, ({ st := .inService } : Machine.PUnit))) }
  grt := { st := .ok, gens := (List.range 38).map (fun n => (n, ({ st := .ok, fill := 100 } : Gen))) } }

/-! ## Well-formed commands: one ill-formed term for each check -/

theorem test_wf_header : (Instr.devInfo { iss := .pf 0 }).wf = false ∧ (Instr.devInfo { iss := .pf 16 }).wf = false ∧
    (Instr.devInfo { iss := .vf 0 }).wf = false ∧ (Instr.devInfo { iss := .vf 256 }).wf = false ∧
    (Instr.devInfo { iss := .smb, argLen := 65536 }).wf = false ∧ (Instr.devInfo {}).wf = true := by decide

theorem test_wf_arguments : (Instr.devExpert {} 256).wf = false ∧ (Instr.queInfo {} 65536).wf = false ∧
    (Instr.txnBegin {} (2 ^ 32)).wf = false ∧ (Instr.queClass {} 0 0 1 [0, 0, 0, 0, 0, 0]).wf = false ∧
    (Instr.fltBudget {} 4 0 [65536]).wf = false ∧ (Instr.fltBudget {} 4 0 [0, 0, 0, 0, 0]).wf = false ∧
    (Instr.lcyAdvance {} {} 9 0).wf = false ∧ (Instr.lcyAdvance {} {} 0 5).wf = false := by decide

theorem test_wf_buffer : (Instr.fwPutty {} { len := 2, data := [0] }).wf = false ∧ (Instr.fwPutty {} { len := 1, data := [0] }).wf = true := by
  decide

theorem test_wf_pages_and_queues : (Instr.quePiWrite 256 0 0).wf = false ∧ (Instr.quePiWrite 0 4096 0).wf = false ∧
    (Instr.quePiWrite 1 16 0).wf = false ∧ (Instr.pushSlotWrite 0 0 505 [0, 0, 0, 0, 0, 0, 0, 0]).wf = false ∧
    (Instr.queueStopped 4096).wf = false ∧ (Instr.queModWrite 0 0 1024 0).wf = false ∧ (Instr.queModWrite 0 0 0 256).wf = false ∧
    (Instr.fence 4096).wf = false ∧ (Instr.jobEnd { q := 4097 }).wf = false := by decide

theorem test_wf_registers : (Instr.regWrite (.bar 256 0 4 0)).wf = false ∧ (Instr.regWrite (.bar 0 0 0 0)).wf = false ∧
    (Instr.regWrite (.bar2 0 0 9 0)).wf = false ∧ (Instr.regWrite (.cfg 256 .memSpace 0)).wf = false ∧
    (Instr.unmappedRead { f := 256 }).wf = false ∧ (Instr.pcieErrCntRead 6).wf = false ∧ (Instr.pcieLinkError 3).wf = false := by decide

theorem test_wf_units : (Instr.mHalt 36).wf = false ∧ (Instr.regionAlloc {} 9).wf = false ∧ (Instr.arbRound 0 0 [] 0).wf = false ∧
    (Instr.arbRound 0 16 [] 0).wf = false ∧ (Instr.engineWipeDone true 9).wf = false ∧ (Instr.renderTakeover 151).wf = false ∧
    (Instr.hostFrameRx 8 0 0 0 {}).wf = false ∧ (Instr.hostFrameRx 0 4 0 0 {}).wf = false ∧ (Instr.portUp 16 0).wf = false ∧
    (Instr.overlapTimer 16384 0).wf = false ∧ (Instr.overlapTimer 0 2).wf = false ∧ (Instr.drainTimer 2 0 0).wf = false ∧
    (Instr.reservationWriteDone 131072 .first).wf = false ∧ (Instr.telemetrySample 8 0 0 0).wf = false ∧ (Instr.sdUnlock 4).wf = false := by decide

theorem test_wf_sources_and_holders : (Instr.revokeAck { kind := .standing, idx := 8 }).wf = false ∧
    (Instr.revokeAck { kind := .renderLa, idx := 36 }).wf = false ∧ (Instr.revokeAck { kind := .lath, idx := 36 }).wf = false ∧
    (Instr.revokeAck { kind := .hawk, idx := 9 }).wf = false ∧ (Instr.revokeAck { kind := .sponge, idx := 16 }).wf = false ∧
    (Instr.tamperAlarm 19 true).wf = false ∧ (Instr.sourceWindowEnd 8 {}).wf = false ∧ (Instr.reseedDue 38 true).wf = false ∧
    (Instr.causeReport 768 0 true).wf = false ∧ (Instr.causeReport 0 4096 true).wf = false ∧ (Instr.wire 24 0 0).wf = false ∧
    (Instr.wire 0 31 0).wf = false ∧ (Instr.autoExit { group := 24 } false {}).wf = false ∧ (Instr.mbxDoorbell 0 16 none).wf = false ∧
    (Instr.vmbDoneClear 0).wf = false := by decide

/-! ## Witnesses: the queue of commands -/

theorem witness_StepRunsFrontCommand : ({ base with pending := [.linkDown, .vfEnable] } : State).pending = .linkDown :: [.vfEnable] := by (repeat' apply And.intro) <;> decide +kernel

theorem witness_EmptyQueueTicks : State.reset.pending = [] ∧ State.reset.computeOn = false ∧ State.reset.pwr.vin = false ∧
    State.reset.pwr.vbat = false ∧ base.pending = [] ∧ base.computeOn = true ∧ (base.clk + 1).toNat % 25000 ≠ 0 ∧
    ({ base with clk := 24999 } : State).computeOn = true ∧ (({ base with clk := 24999 } : State).clk + 1).toNat % 25000 = 0 ∧
    ({ State.reset with pwr := { State.reset.pwr with vbat := true } } : State).computeOn = false ∧
    ({ State.reset with pwr := { State.reset.pwr with vbat := true } } : State).pwr.vbat = true := by (repeat' apply And.intro) <;> decide +kernel

theorem witness_CommandsLeaveQueueAndTime : ∃ t, exec .l1Entry base = .next t := ⟨_, rfl⟩

theorem witness_LifeCycleBitsStay : HoldsBits [1] [1, 0, 0, 0, 0, 0, 0, 0] ∧
    (∃ t, step { base with otp := { lcw := [1, 0, 0, 0, 0, 0, 0, 0] }, pending := [.l1Entry] } = .next t) := by
  refine ⟨⟨rfl, fun i => ?_⟩, _, rfl⟩
  match i with
  | 0 => rfl
  | 1 | 2 | 3 | 4 | 5 | 6 | 7 => rfl
  | n + 8 => simp

theorem witness_MicrowordBeyondEnginesStops : 36 ≤ 36 := by (repeat' apply And.intro) <;> decide +kernel

/-! ## Witnesses: commands of Arong -/

theorem witness_StatusCommandsAnswer :
    Runs base (hd 0) { vf := true, smb := true, basic := true, primer := true, scrap := true } ∧
    Runs base (hd 0 1) { smb := true, basic := true, primer := true, scrap := true } ∧ Runs base (hd 0) { smb := true } ∧
    Runs base { iss := .smb, argLen := 1 } { smb := true, basic := true, len := 1, lenX := 1 } ∧
    Runs base (hd 0) { smb := true, basic := true } ∧ Runs base (hd 0) { smb := true, basic := true, primer := true } ∧
    Runs base (hd 2) { smb := true, basic := true, len := 2, lenX := 2 } ∧ (engArg 1 0).toOption = some 0 ∧ (engArg 5 53).toOption = some 150 := by (repeat' apply And.intro) <;> decide +kernel

/-- A transaction is open, SA 16 383 is present, and slot 7 holds a key that handle 1 0001 0000 0007h names. -/
def withObjects : State := { withVfs with
  mbx := { base.mbx with txn := some {} }
  rdr := { sas := [(16383, { present := true })] }
  bnd := { slots := [(7, { st := .allocated, run := 1, serial := 1, gen := 1 })] } }

theorem witness_StatusCommandsAnswer_objects :
    Runs base (hd 1) { vf := true, len := 1, lenX := 1 } ∧ target (hd 1) 255 = 255 ∧ ((running withVfs (hd 1)).fn 3).st = .absent ∧
    Runs base (hd 2) { vf := true, len := 2, lenX := 2 } ∧ targetQueue (running base (hd 2)) (hd 2) 4095 = some 4095 ∧
    Runs withObjects (hd 0) {} ∧ (running withObjects (hd 0)).mbx.txn = some {} ∧ (running base (hd 0)).mbx.txn = none ∧
    Runs base (hd 1) { smb := true, len := 1, lenX := 1 } ∧
    Runs withObjects (hd 4) { len := 4, lenX := 4 } ∧ ((running withObjects (hd 4)).sa 0 16383).present = true ∧
    Runs withObjects (hd 8) { vf := true, len := 8, lenX := 8 } := by (repeat' apply And.intro) <;> decide +kernel

/-- The handle of slot 7 in `withObjects`. -/
def handle7 : W64 := 0x0000010100000007

theorem witness_StatusCommandsAnswer_key :
    ((running withObjects (hd 8)).handleSlot (hd 8).iss.fn handle7).toOption = some 7 := by (repeat' apply And.intro) <;> decide +kernel

/-- A device with an attestation secret and two log records. -/
def withLog : State := { base with mram := { log := [{ seq := 4 }, { seq := 5 }], logSeq := 5 }
                                   bnd := { slots := [(8196, { st := .allocated, origin := .system, klen := 64 })] } }

theorem witness_ListAndAttestationCommandsAnswer :
    Runs withLog { iss := .smb, argLen := 4 } { smb := true, basic := true, len := 4, lenX := 4 } ∧
    Runs withLog (hd 24) { smb := true, basic := true, len := 24, lenX := 24, buf := true, bufX := true } ∧
    (bufOf [] 64).mbz = 0 ∧ (bufOf [] 64).err = none ∧ (hd 24).iss ≠ .smb ∧
    (withLog.mram.log.filter (fun r => decide ((5 : W32).toNat ≤ r.seq.toNat))).length = 1 ∧
    Runs base (hd 24) { len := 24, lenX := 24, buf := true, bufX := true } ∧ 131071 ≤ 131071 ∧ 24 ≤ (bufOf [] 24).len.toNat ∧
    1640 ≤ (bufOf [] 1640).len.toNat ∧ Runs base (hd 32) { len := 32, lenX := 32 } ∧ (running base (hd 32)).system 8196 = none ∧
    ((running { withUnits with bnd := withLog.bnd } (hd 32)).system 8196).isSome = true ∧
    (running { withUnits with bnd := withLog.bnd } (hd 32)).rngWaits genPool = false ∧
    (running { withUnits with bnd := withLog.bnd } (hd 32)).rngErr genPool = none := by (repeat' apply And.intro) <;> decide +kernel

/-! Statements on quotas, queues, classes, ports and the Float budget. -/

/-- VFs 1 and 2 of `withVfs`, queues 5 (DISABLED, assigned) and 4 095 (free). -/
def withQueue : State := { withVfs with que := { queues := [(5, { assigned := true, slot := 3 })] } }

theorem witness_StageableCommandsTakeEffectAtOnce_queues :
    (hd 2).stage = false ∧ (running withVfs (hd 2)).mbx.txn = none ∧
    Runs withVfs (hd 2) { t := true, len := 2, lenX := 4 } ∧ (running withVfs (hd 2)).countedVfs ≠ [] ∧
    Runs withVfs (hd 4 1) { t := true, len := 2, lenX := 4 } ∧ ((running withVfs (hd 4 1)).fn 1).st ≠ .absent ∧
    (running withVfs (hd 4 1)).quotaSum - ((running withVfs (hd 4 1)).fn 1).quotaSet + 4096 ≤ 61440 ∧
    Runs withVfs (hd 8) { t := true, len := 8, lenX := 8 } ∧ ((running withVfs (hd 8)).fn 2).st = .flr ∧
    Runs withQueue (hd 5) { t := true, len := 5, lenX := 5 } ∧ ((running withQueue (hd 5)).queue 4095).assigned = false ∧
    (running withQueue (hd 5)).awaits 4095 = none ∧ (running withQueue (hd 5)).slotTaken 0 63 = false ∧
    (running withQueue (hd 5)).slotTaken 1 15 = false ∧ ((running withQueue (hd 5)).fn 2).flr = true ∧
    (running withQueue (hd 2)).awaits 5 = none ∧ ((running withQueue (hd 2)).queue 5).leaving = false ∧
    ((running withQueue (hd 5)).fn 1).st ≠ .absent ∧
    Runs withQueue (hd 2) { t := true, len := 2, lenX := 2 } ∧ ((running withQueue (hd 2)).queue 5).assigned = true ∧
    ((running withQueue (hd 2)).queue 5).st = .disabled ∧ (running withQueue (hd 2)).inFlight 5 = false ∧
    Runs base (hd 2) { t := true, len := 2, lenX := 48 } ∧ Runs base (hd 48 1) { t := true, len := 2, lenX := 48 } ∧
    Runs withQueue (hd 3) { t := true, len := 3, lenX := 3 } ∧ ((running withQueue (hd 3)).queue 5).assigned = true := by (repeat' apply And.intro) <;> decide +kernel

/-- Pair 7 has its mode and is disabled; pair 0 is enabled. Grit is OK. -/
def withPairs : State := { base with rdr := { pairs := [(0, { modeSet := true, enabled := true }), (7, { modeSet := true })]
                                              engs := (List.range 32).map (fun n => (n, ({} : Rnd))) }
                                     plb := { units := (List.range 32).map (fun n => (n, ({ st := .inService } : Machine.PUnit))) }
                                     grt := { st := .ok } }

/-- The 32 bytes of the expert level of `port.mode`: mode 0, MACsec, PFC off, 9 216 bytes. -/
def portParams : List Byte := [0, 0, 2, 0xFF, 0, 1, 0, 0x24, 0xB5, 0x88, 0x80, 0, 0x60, 0] ++ List.replicate 18 0

theorem witness_StageableCommandsTakeEffectAtOnce_ports :
    (running withPairs (hd 2)).mbx.txn = none ∧ Runs withPairs (hd 2) { t := true, len := 2, lenX := 24, bufX := true } ∧
    ((running withPairs (hd 2)).pair 7).enabled = false ∧
    Runs withPairs (hd 24 1) { t := true, len := 2, lenX := 24, bufX := true } ∧ (bufOf portParams).data.length = 32 ∧
    portParamErr portParams = none ∧ (bufOf portParams).mbz = 0 ∧ (bufOf portParams).err = none ∧
    Runs withPairs (hd 1) { t := true, len := 1, lenX := 1 } ∧ ((running withPairs (hd 1)).pair 7).modeSet = true ∧
    (running withPairs (hd 1)).held = false ∧ (running withPairs (hd 1)).lcy.prepared = false ∧
    (running withPairs (hd 1)).pwr.st ≠ .dustEntry ∧ (running withPairs (hd 1)).grt.st ≠ .unseeded ∧
    ((running withPairs (hd 1)).enablePair 7).enabledDirs.length ≤ ((running withPairs (hd 1)).enablePair 7).rndPool.length ∧
    ((running withPairs (hd 1)).enablePair 7).standingSum + wipeReserve ≤ ((running withPairs (hd 1)).enablePair 7).flt.target ∧
    ((running withPairs (hd 1)).pair 0).enabled = true ∧
    Runs withPairs (hd 1) { t := true, len := 1, lenX := 10 } ∧
    (running withPairs (hd 1)).standingSum + wipeReserve ≤ [1280, 1600, 960, 640].getD 3 0 ∧
    Runs withPairs (hd 10 1) { t := true, len := 1, lenX := 10 } ∧
    (∀ c ∈ [0xFFFF, 16, 1600, 16], c = 0xFFFF ∨ (16 ≤ c ∧ c ≤ 1600)) ∧
    (running withPairs (hd 10 1)).standingSum + wipeReserve ≤ 640 := by (repeat' apply And.intro) <;> decide +kernel

/-- The same with the grants of pair 0 given, or with no token left. -/
def withGrant : State := { withPairs with flt := { grants := [{ who := { kind := .standing, idx := 0 }, size := 29 }] } }

theorem witness_StageableCommandsTakeEffectAtOnce_grants :
    (atEpoch ((running withPairs (hd 1)).enablePair 7)).standingHeld 7 = true ∧
    (atEpoch ((running { withPairs with flt := { free := 0 } } (hd 1)).enablePair 7)).standingHeld 7 = false ∧
    (atEpoch (running withGrant (hd 1))).standingHeld 0 = true ∧ (running withGrant (hd 1)).mbx.txn = none ∧
    Runs withGrant (hd 1) { t := true, len := 1, lenX := 1 } := by (repeat' apply And.intro) <;> decide +kernel

/-! Statements on SAs and transactions. -/

/-- Pair 7 carries MACsec on sub-port 0; receive SA 7 is an ESP one without an epoch; transmit SA 16 383 has a current epoch, receive SA 5 a staged one; slot 7 holds a key for SAs. -/
def withSas : State := { base with
  rdr := { pairs := [(7, { modeSet := true })]
           sas := [(16383, { present := true, ep0 := { st := .current } }),
                   (16389, { present := true, ep0 := { st := .current }, ep1 := { st := .staged } }),
                   (16391, { present := true, suite := 4, pair := 6, flags := 1 })] }
  bnd := { slots := [(7, { st := .allocated, run := 1, serial := 1, gen := 1, alg := 0x0101, klen := 16 }),
                     (8, { st := .allocated, run := 1, serial := 1, gen := 1, usage := .dec, alg := 0x0103, klen := 20 })] } }

/-- The 72 bytes of the expert level of `sa.create`: suite 0 on pair 7, sub-port 0, with an explicit SCI. -/
def saParams : List Byte := [0, 7, 0x02, 0] ++ List.replicate 20 0 ++ [0xFF, 0xFF] ++ List.replicate 46 0

theorem witness_SaCommandsTakeEffect :
    (running withSas (hd 6)).mbx.txn = none ∧ Runs withSas (hd 6) { t := true, len := 6, lenX := 24, bufX := true } ∧
    ((running withSas (hd 6)).sa 0 16382).present = false ∧ (running withSas (hd 6)).subMissing 7 = false ∧
    (running withSas (hd 6)).protoFits 7 3 = true ∧ (running withSas (hd 6)).rxClash 7 0 Sa.wild = false ∧
    Runs withSas (hd 24 1) { t := true, len := 6, lenX := 24, bufX := true } ∧
    Ok (effSaCreateParams 0 16382 saParams (running withSas (hd 24 1))) ∧
    Runs withSas (hd 16) { t := true, len := 16, lenX := 48 } ∧ Runs withSas (hd 48 1) { t := true, len := 16, lenX := 48 } ∧
    ((running withSas (hd 16)).sa 0 16383).present = true ∧ ((running withSas (hd 16)).sa 0 16383).staged = none ∧
    ((running withSas (hd 16)).sa 0 16383).draining = none ∧ ((running withSas (hd 16)).sa 0 16383).suite ≤ 1 ∧
    Ok ((running withSas (hd 16)).checkHandle 0 0x0000010100000007 .enc (fun v => v == suiteAlg 0)) ∧
    (1 : W64).toNat < pnLimit 0 0 ∧ (0xFFFFFFFE : W64).toNat < pnLimit 0 0 ∧
    ((running withSas (hd 48 1)).sa 0 16383).current.map (fun i => (((running withSas (hd 48 1)).sa 0 16383).ep i).an) ≠ some (BitVec.ofNat 2 3) ∧
    ((running withSas (hd 48 1)).sa 1 7).isEsp = true ∧ ((running withSas (hd 48 1)).sa 1 7).staged = none ∧
    ((running withSas (hd 48 1)).sa 1 7).draining = none ∧ (running withSas (hd 48 1)).spiUsed 6 0 1 = false ∧
    Ok ((running withSas (hd 48 1)).checkHandle 0 0x0000010100000008 .dec (fun v => v == suiteAlg 4)) ∧
    Runs withSas (hd 4) { t := true, len := 4, lenX := 4 } ∧ ((running withSas (hd 4)).sa 1 5).present = true ∧
    ((running withSas (hd 4)).sa 1 5).staged = some 1 ∧ ((running withSas (hd 4)).sa 1 5).current = some 0 ∧
    Runs withSas (hd 1) { t := true, len := 1, lenX := 8 } ∧ Runs withSas (hd 8 1) { t := true, len := 1, lenX := 8 } ∧
    10 ≤ 10 ∧ 60000 ≤ 600000 := by (repeat' apply And.intro) <;> decide +kernel

/-- A transaction with a staged `sa.timers`. -/
def withTxn : State := { withVfs with mbx := { base.mbx with txn := some { id := 9, staged := [.saTimersMs 60000 600000] } } }

theorem witness_TransactionsCollectAndCommit :
    Runs base (hd 4) { len := 4, lenX := 4 } ∧ (running base (hd 4)).mbx.txn = none ∧ 60000 ≤ 60000 ∧
    Runs withTxn { txn := 9 } {} ∧ (running withTxn { txn := 9 }).mbx.txn = some { id := 9, staged := [.saTimersMs 60000 600000] } ∧
    Ok (applyAll 0 [.saTimersMs 60000 600000] (running withTxn { txn := 9 })) ∧ withTxn.mbx.pend = none ∧ withTxn.mbx.txn.isSome = true ∧
    base.mbx.pend = none ∧ ({ base with mbx := { base.mbx with pend := some { cmds := [.portDisable 7] } } } : State).mbx.pend.isSome = true ∧
    (({ cmds := [.portDisable 7] } : PendCommit).done = none) ∧
    ((applyAll 0 [.portDisable 7] base).toOption.map (fun y =>
      ({ y with mbx := { y.mbx with epoch := y.mbx.epoch + 1 } } : State).endTxn.dispatchAll.flowAll.commitReady [.portDisable 7]) = some true) ∧
    ((applyAll 0 [.portEnable 7] { withPairs with flt := { free := 0 } }).toOption.map (fun y =>
      ({ y with mbx := { y.mbx with epoch := y.mbx.epoch + 1 } } : State).endTxn.dispatchAll.flowAll.commitReady [.portEnable 7]) = some false) := by
  (repeat' apply And.intro) <;> decide +kernel

/-- A staged frame of the open transaction. -/
def staged (n : Nat) : Hdr := { stage := true, txn := 9, argLen := n }

theorem witness_TransactionsCollectAndCommit_staged :
    (running withTxn (staged 8)).mbx.txn.isSome = true ∧ withTxn.canStartCmd (staged 8).iss = true ∧
    (running withTxn (staged 8)).modeErr (staged 8).iss { t := true, len := 8, lenX := 8 } = none ∧
    (running withTxn (staged 8)).frameErr (staged 8) { t := true, len := 8, lenX := 8 } = none ∧
    (applyAll 0 [.saTimersMs 60000 600000] (running withTxn (staged 8))).toOption.map (fun y => (applyT (.fnPerm 1 3) y).isOk) = some true ∧
    (running withTxn (staged 1)).frameErr (staged 1) { t := true, len := 1, lenX := 1 } = none ∧
    (applyAll 0 [.saTimersMs 60000 600000] (running withTxn (staged 1))).toOption.map (fun y => (applyT (.portDisable 7) y).isOk) = some true ∧
    (running withTxn (staged 4)).frameErr (staged 4) { t := true, len := 4, lenX := 4 } = none ∧
    (applyAll 0 [.saTimersMs 60000 600000] (running { withTxn with rdr := { sas := [(0, { present := true })] } } (staged 4))).toOption.map
      (fun y => (applyT (.saDelete 0 0) y).isOk) = some true := by (repeat' apply And.intro) <;> decide +kernel

/-! Statements on keys, firmware, the life cycle and tamper records. -/

/-- Slots 7 (a persistent LMS key), 8 (an import wrapping key); context 65 535 is idle and unkeyed. -/
def withKeys : State := { base with
  bnd := { slots := [(7, { st := .allocated, run := 1, serial := 1, gen := 1, persist := true }),
                     (8, { st := .allocated, run := 1, serial := 1, gen := 1, alg := 0x0500, usage := .wrap, klen := 32 })] }
  spg := { ctxs := [(3, { alloc := true, live := true, gen := 1, alg := 1, base := List.replicate 208 1 })] } }

/-- An import blob for a 16-byte SA key: header, IV, ciphertext and tag. -/
def blob16 : List Byte := leBytes 4 0x494B5146 ++ [0, 1, 1, 1, 16, 0, 0, 0] ++ List.replicate 44 7

theorem witness_KeyCommandsTakeEffect :
    Runs withKeys (hd 8) { vf := true, len := 8, lenX := 8 } ∧
    ((running withKeys (hd 8)).handleSlot 0 0x0000010100000007).toOption = some 7 ∧
    ((running withKeys (hd 8)).slot 7).epochRefs = 0 ∧ ((running withKeys (hd 8)).slot 7).txn = false ∧
    ((running withKeys (hd 8)).slot 7).origin ≠ .owner ∧ ((running withKeys (hd 8)).slot 7).origin ≠ .root ∧
    Runs withKeys (hd 32) { len := 32, lenX := 32, buf := true, bufX := true } ∧
    ((running withKeys (hd 32)).checkHandle 0 0x0000010100000008 .wrap (fun a => a == 0x0500)).toOption = some 8 ∧
    (bufOf blob16).mbz = 0 ∧ (bufOf blob16).err = none ∧ blobOk 0 0x0101 blob16 = true ∧ algImport 0x0101 = true ∧
    (running { withKeys with grt := { st := .ok, gens := [(18, { st := .ok }), (37, { st := .ok, fill := 64 })] } } (hd 32)).rngCmdErr = none ∧
    ((running withKeys (hd 32)).allocKey { alg := 0x0101, data := [1] }).1.isSome = true ∧
    Runs withKeys (hd 16) { len := 16, lenX := 16, buf := true, bufX := true } ∧ (running withKeys (hd 16)).tmp.erased = none ∧
    Runs withKeys (hd 24 1) { vf := true, expertOnly := true, len := 24, lenX := 24, buf := true, bufX := true } ∧
    (running withKeys (hd 24 1)).ctxIdle 0 3 = true ∧ ((running withKeys (hd 24 1)).ctx 3).keyed = false ∧
    400 ≤ (bufOf [] 400).len.toNat ∧
    Runs withKeys (hd 2) { vf := true, len := 2, lenX := 2 } ∧ (running withKeys (hd 2)).ctxIdle 0 3 = true := by
  (repeat' apply And.intro) <;> decide +kernel

/-- BLANK takes unsigned records: a key update that names its signer 0 and one ROOT key, a transition request to the next state, and a
clearing record. Each holds the DEVICE_ID of the device. -/
def updRec : List Byte := leBytes 4 0x554B5146 ++ [1, 0, 1, 0, 1, 0, 0, 0, 0, 0, 0, 0] ++ w256Bytes base.deviceId ++ [0, 0, 0, 0] ++ leBytes 4 17 ++
  List.replicate 72 0 ++ [3, 3, 0, 4, 0, 0, 0, 0, 0, 32, 1, 0, 0, 0, 0, 0, 9]

def lifeReq : List Byte := leBytes 4 0x54435146 ++ [1, 0, 0, 1] ++ List.replicate 8 0 ++ w256Bytes base.deviceId ++ List.replicate 80 0

def clearRec : List Byte := leBytes 4 0x50545146 ++ [1, 0, 0, 0, 1, 0, 0, 0, 0, 0, 0, 0] ++ w256Bytes base.deviceId ++ List.replicate 80 0

/-- `base` with Grit OK. -/
def seeded : State := { base with grt := { st := .ok, started := true, gens := [(18, { st := .ok, fill := 8 }), (37, { st := .ok, fill := 64 })] } }

theorem witness_KeyCommandsTakeEffect_update : Ok ((running seeded (hd 16)).updCheck updRec) := by
  have hp : updParse updRec = .ok [{ off := 128, type := 3, usage := 3, alg := 0x0400, klen := 32, hdr := (updRec.drop 128).take 16, data := [9] }] := by
    set_option maxRecDepth 100000 in rfl
  unfold Ok State.updCheck
  rw [hp]
  dsimp only
  rw [if_neg (by decide +kernel), if_neg (by exact fun h => h rfl), if_neg (by decide +kernel), if_neg (by decide +kernel)]
  rfl

theorem witness_LifeCycleCommandsTakeEffect :
    Runs base (hd 16) { len := 16, lenX := 16, buf := true, bufX := true } ∧ (bufOf lifeReq).mbz = 0 ∧ (bufOf lifeReq).err = none ∧
    (running base (hd 16)).lifeErr lifeReq = none ∧ (running base (hd 16)).lcy.st < 2 ∧
    2 ≤ (running { base with lcy := { st := 2 } } (hd 16)).lcy.st ∧
    (running { base with lcy := { st := 2 } } (hd 16)).seamDown = false ∧ (hd 16).iss = .pf 1 := by
  refine ⟨by (repeat' apply And.intro) <;> decide +kernel, rfl, rfl, ?_, by decide +kernel, by decide +kernel, by decide +kernel, rfl⟩
  · unfold State.lifeErr
    rw [show lifeLayout lifeReq = none by decide +kernel]
    dsimp only
    rw [if_neg (by decide +kernel), if_neg (by exact fun h => h rfl), if_neg (by decide +kernel)]
    rfl

theorem witness_TamperCommandsTakeEffect :
    Runs base (hd 16) { len := 16, lenX := 16, buf := true, bufX := true } ∧ (bufOf clearRec).mbz = 0 ∧ (bufOf clearRec).err = none ∧
    (running base (hd 16)).clearErr clearRec = none ∧ Runs base (hd 1) { len := 1, lenX := 1 } ∧ 17 ≤ 17 ∧
    (running base (hd 1)).seamDown = false ∧ ((running base (hd 1)).report 133 0).seamDown = false ∧
    (running base (hd 1)).srcOn 17 = true ∧ (running base (hd 1)).watches 17 = true := by
  refine ⟨by (repeat' apply And.intro) <;> decide +kernel, rfl, rfl, ?_,
    by (repeat' apply And.intro) <;> decide +kernel, by decide, by decide +kernel, by decide +kernel, by decide +kernel, by decide +kernel⟩
  · unfold State.clearErr
    rw [show clearLayout clearRec = none by decide +kernel]
    dsimp only
    rw [if_neg (by decide +kernel), if_neg (by exact fun h => h rfl), if_neg (by decide +kernel), if_neg (by decide +kernel)]
    rfl

/-- An image of BLANK (one page, no Putty set, a signature block of no signer) and a Putty set of one word. -/
def imageHead : List Byte := leBytes 4 0x57465146 ++ [1, 0, 0, 0] ++ leBytes 4 7 ++ leBytes 4 0 ++ leBytes 4 0 ++ leBytes 4 4096 ++
  List.replicate 232 0

def noSigner : List Byte := leBytes 4 0x42535146 ++ List.replicate 12 0

def image0 : List Byte := (imageHead ++ List.replicate 4096 0) ++ noSigner

def putty0 : List Byte := leBytes 4 0x59545550 ++ leBytes 4 1 ++ leBytes 4 0x00020001 ++ [1, 0, 0, 0] ++ List.replicate 64 0 ++
  noSigner

theorem slice_left (a b : List Byte) (off n : Nat) (h : off + n ≤ a.length) : slice (a ++ b) off n = slice a off n := by
  unfold slice
  rw [List.drop_append_of_le_length (by omega), List.take_append_of_le_length (by rw [List.length_drop]; omega)]

theorem slice_right (a b : List Byte) (k o n : Nat) (h : k = a.length) : slice (a ++ b) (k + o) n = slice b o n := by
  subst h; unfold slice; rw [List.drop_append, List.drop_eq_nil_of_le (by omega)]; simp

theorem imageHead_len : imageHead.length = 256 := by decide +kernel

theorem imageBody_len : (imageHead ++ List.replicate 4096 0).length = 4352 := by
  rw [List.length_append, imageHead_len, List.length_replicate]

theorem image0_head (off n : Nat) (h : off + n ≤ 256) : fieldLe image0 off n = fieldLe imageHead off n := by
  unfold Sys2Proof.Machine.fieldLe image0
  rw [slice_left _ _ _ _ (by rw [imageBody_len]; omega), slice_left _ _ _ _ (by rw [imageHead_len]; exact h)]

theorem image0_tail (o n : Nat) : fieldLe image0 (4352 + o) n = fieldLe noSigner o n := by
  unfold Sys2Proof.Machine.fieldLe image0; rw [slice_right _ _ _ _ _ imageBody_len.symm]

theorem nonZero_none (l : List Byte) (off n : Nat) (h : ∀ i < n, l.getD (off + i) 0 = 0) : nonZero l off n = none := by
  unfold nonZero
  rw [List.find?_eq_none]
  intro x hx
  obtain ⟨i, hi, rfl⟩ := List.mem_map.mp hx
  rw [h i (List.mem_range.mp hi)]; decide

theorem image0_zero (off n : Nat) (h : off + n ≤ 256) (z : ∀ i < n, imageHead.getD (off + i) 0 = 0) : nonZero image0 off n = none := by
  refine nonZero_none _ _ _ (fun i hi => ?_)
  refine Eq.trans ?_ (z i hi); unfold image0
  rw [List.getD_eq_getElem?_getD, List.getElem?_append_left (by rw [imageBody_len]; omega),
    List.getElem?_append_left (by rw [imageHead_len]; omega), ← List.getD_eq_getElem?_getD]

theorem image0_layout : imageLayout image0 true = none := by
  have e : imgSig image0 = 4352 := by
    unfold imgSig; rw [image0_head 20 4 (by decide), image0_head 24 4 (by decide)]; decide +kernel
  have w : sigLen image0 4352 = 16 := by unfold sigLen; rw [image0_tail 4 1]; decide +kernel
  have z : image0.length = 4368 := by unfold image0; rw [List.length_append, imageBody_len]; decide +kernel
  have y : nonZero image0 (4352 + 5) 11 = none := by
    refine nonZero_none _ _ _ (fun i hi => ?_)
    have q : ∀ i < 11, noSigner.getD (5 + i) 0 = 0 := by decide +kernel
    refine Eq.trans ?_ (q i hi); unfold image0
    rw [List.getD_eq_getElem?_getD, List.getElem?_append_right (by rw [imageBody_len]; omega), imageBody_len,
      show 4352 + 5 + i - 4352 = 5 + i by omega, ← List.getD_eq_getElem?_getD]
  have g : sigErr image0 4352 = none := by
    have a := image0_tail 0 4
    have b := image0_tail 4 1
    unfold sigErr
    rw [show fieldLe image0 4352 4 = _ from a, b, y]
    decide +kernel
  unfold imageLayout
  rw [e, w, z, g, image0_head 20 4 (by decide), image0_head 24 4 (by decide), image0_head 0 4 (by decide), image0_head 4 2 (by decide),
    image0_zero 6 2 (by decide) (by decide +kernel), image0_zero 28 228 (by decide) (by decide +kernel),
    show fieldLe imageHead 24 4 = 0 by decide +kernel]
  decide +kernel

theorem image0_ok (s : State) (h : s.lcy.st = 0) : s.imageErr image0 true = none := by
  unfold State.imageErr
  simp only [image0_layout]
  rw [if_neg (by rw [h]; decide), show fieldLe image0 16 4 = 0 by rw [image0_head 16 4 (by decide)]; decide, if_neg (Nat.not_lt_zero _), if_neg, if_neg (by rw [h]; exact fun k => absurd k.1 (by decide))]
  unfold State.fwSigned
  rw [h]
  simp [fwSigners]

/-- The image of slot A runs; slot B has passed; a recovery may be asked for. -/
def withBoot : State := { base with boot := { base.boot with image := 0, passedB := true } }

theorem witness_FirmwareCommandsTakeEffect :
    Runs withBoot (hd 24) { len := 24, lenX := 24, buf := true, bufX := true } ∧ 1 ≠ (running withBoot (hd 24)).boot.image ∧
    (running withBoot (hd 24)).imageErr image0 true = none ∧ (bufOf image0).mbz = 0 ∧ (bufOf image0).err = none ∧
    Runs withBoot (hd 1) { len := 1, lenX := 1 } ∧ (running withBoot (hd 1)).slotPassed 1 = true ∧
    (running withBoot (hd 1)).seamDown = false ∧ (running withBoot (hd 16)).seamDown = false ∧
    Runs withBoot (hd 16) { len := 16, lenX := 16, buf := true, bufX := true } ∧ (hd 16).iss = .pf 1 ∧
    (running withBoot (hd 16)).puttyErr putty0 0 putty0.length = none ∧
    Runs withBoot (hd 16) { basic := true, len := 16, lenX := 16, buf := true, bufX := true } ∧ (running withBoot (hd 16)).lcy.st ≠ 0xFF ∧
    (running withBoot (hd 16)).imageErr image0 true = none := by
  refine ⟨by (repeat' apply And.intro) <;> decide +kernel, by decide +kernel, image0_ok _ rfl, rfl, rfl,
    by (repeat' apply And.intro) <;> decide +kernel, by decide +kernel, by decide +kernel, by decide +kernel,
    by (repeat' apply And.intro) <;> decide +kernel, rfl,
    by decide +kernel, by (repeat' apply And.intro) <;> decide +kernel, by decide +kernel, image0_ok _ rfl⟩

/-! Statements on the device, Scrim, Grit and the engines. -/

/-- Cause 512 is latched and its reporter is normal. -/
def withCause : State := { base with scr := { cause := [(16, 1)] } }

theorem witness_DeviceAndScrimCommandsTakeEffect :
    Runs base (hd 1) { len := 1, lenX := 1 } ∧ Runs base (hd 1) { len := 1, lenX := 8 } ∧ Runs base (hd 8 1) { len := 1, lenX := 8 } ∧
    scrRankErr 132 4 = none ∧ (100 ≤ 100 ∧ 60000 ≤ 60000) ∧ (running base (hd 1)).mbx.txn = none ∧
    (running base (hd 1)).lcy.pending = false ∧ (∀ n < 8, ((running base (hd 1)).pair n).enabled = false) ∧
    Runs base (hd 8) { len := 8, lenX := 8 } ∧
    Runs withCause (hd 2) { len := 2, lenX := 2 } ∧ (running withCause (hd 2)).clearable 512 = true ∧ 767 ≤ 767 := by
  (repeat' apply And.intro) <;> decide +kernel

/-- A known-answer test of Render engine 0 waits; unit 1 drains; pair 7 is enabled. -/
def withTests : State := { base with
  plb := { units := [(0, { st := .inService }), (1, { st := .draining })], testq := [{ unit := 0, waiters := [(2, 0)] }] }
  rdr := { pairs := [(7, { modeSet := true, enabled := true })] } }

theorem witness_GritAndEngineCommandsTakeEffect :
    Runs base (hd 1) { len := 1, lenX := 1 } ∧ 19 ≤ 19 ∧
    Runs withTests (hd 2 1) { expertOnly := true, lenX := 2 } ∧ (engArg 1 0).toOption = some 0 ∧
    ((running withTests (hd 2 1)).unit 0).st ≠ .retired ∧ ((running withTests (hd 2 1)).unit 1).st = .draining ∧
    (engArg 5 53).toOption = some 150 ∧
    Runs withTests (hd 2) { len := 2, lenX := 2 } ∧ (hd 2).iss = .pf 1 ∧
    (running withTests (hd 2)).plb.testq.all (fun t => !(t.unit == 1 && t.purpose == .kat)) = true ∧
    (running withTests (hd 2)).requested < 64 ∧
    (running withTests (hd 2)).plb.testq.any (fun t => t.unit == 0 && t.purpose == .kat) = true ∧
    Runs withTests (hd 0) {} ∧ Runs withTests (hd 3) { len := 3, lenX := 3 } ∧ 15 % 8 = 7 ∧
    ((running withTests (hd 3)).pair (15 % 8)).enabled = true ∧ (running withTests (hd 3)).locked [.pair (15 % 8)] = false ∧ 3 ≤ 3 := by
  (repeat' apply And.intro) <;> decide +kernel

/-! ## Witnesses: the host's registers, queues and mailboxes -/

theorem witness_OpFamilyCommandsBecomeJobs :
    Runs base (hd 64) { len := 64, lenX := 64 } ∧ (hd 64).iss = .pf 1 ∧
    ((running base (hd 64)).commonErr 0 nopDesc false (.got []) (.got [])).toOption = some ([], []) ∧ nopDesc.isNop = true ∧
    (base.fn 0).d3hot = false ∧ (base.fn 0).bme = true ∧
    Ok ((running withUnits (hd 64)).commonErr 0 digestDesc false (.got []) (.got [])) ∧ digestDesc.isNop = false ∧
    ((((running withUnits (hd 64)).dispatchDesc { q := horrovQ, idx := 0 } 0 horrovCls digestDesc [] (some (1, 0))).toOption.map
      Option.isSome) = some true) := by (repeat' apply And.intro) <;> decide +kernel

/-- Queue 5 is page 5 of PF0, with two descriptors in its ring, and queue 9 is page 0 of VF1. -/
def withRings : State := { withUnits with
  que := { withUnits.que with queues := [
    (5, { assigned := true, st := .active, en := true, irqEn := true, sizeLog2 := 4, base := 0x4000, pi := 2, cls := 1, modTimer := true, modPend := 1 }),
    (9, { assigned := true, fn := 1 })] }
  rdr := { withUnits.rdr with saev := [{}] }
  scr := { withUnits.scr with evq := [{}] } }

/-- The same after the host has cleared queue 5's EN bit, and after the ring has been stopped by an error. -/
def stopping : State := withRings.updQueue 5 (fun q => { q with st := .stopping, en := false })

theorem witness_RegisterReadsAnswerTheHost :
    withRings.pcie.linkUp = true ∧ withRings.barOpen 0 = true ∧ Page withRings 0 5 5 ∧ Page { withRings with pcie := withVfs.pcie } 1 0 9 ∧
    withRings.rdr.saev = {} :: [] ∧ base.rdr.saev = [] ∧ base.scr.evq = [] ∧ evqBest withRings.scr.evq = some {} ∧
    inWindow 0x02000000 = true ∧ 0x02000000 % 8 = 0 ∧ withRings.mbx.expert = false ∧ withRings.mbx.undercoat = false ∧
    withRings.barOpen 2 = false := by (repeat' apply And.intro) <;> decide +kernel

/-- The device with a request over SMBus that is done. -/
def withSmb : State := { withVfs with mbx := { base.mbx with smbState := 2, smbSeq := 7 } }

/-- A halted device. -/
def haltedDev : State := { withSmb with mbx := {}, scr := { withSmb.scr with halted := true } }

theorem witness_ConfigurationAndResponseReads :
    withSmb.pcie.linkUp = true ∧ withSmb.cfgOpen 0 = true ∧ withSmb.cfgOpen 1 = true ∧ (withSmb.fn 2).st ≠ .absent ∧
    (withSmb.fn 2).flr = true ∧ (withSmb.fn 3).st = .absent ∧ withSmb.smbMute = false ∧ withSmb.smbDead = false ∧
    withSmb.mbx.smbState = 2 ∧ base.smbMute = false ∧ base.smbDead = false ∧ base.mbx.smbState ≠ 2 ∧
    haltedDev.smbMute = false ∧ haltedDev.smbDead = true ∧ State.reset.smbMute = true := by
  (repeat' apply And.intro) <;> decide +kernel

theorem witness_RegisterWritesTakeEffect :
    withRings.pcie.linkUp = true ∧ withRings.barOpen 0 = true ∧
    Page (withRings.updQueue 5 (fun q => { q with st := .disabled })) 0 5 5 ∧
    ((withRings.updQueue 5 (fun q => { q with st := .disabled })).queue 5).st = .disabled ∧ 127 < (if 0 = 0 then 128 else 17) ∧
    { withRings with pcie := withVfs.pcie }.barOpen 1 = true ∧ 16 < (if 1 = 0 then 128 else 17) ∧
    withRings.cfgOpen 0 = true ∧ { withRings with pcie := withVfs.pcie }.cfgOpen 1 = true ∧
    (withVfs.fn 2).st ≠ .absent ∧ (withVfs.fn 2).flr = true ∧
    (withRings.fn 0).rrs = false ∧ (withRings.fn 0).flr = false := by (repeat' apply And.intro) <;> decide +kernel

theorem witness_MailboxEventsTakeEffect :
    withVfs.mbx.ready = true ∧ withVfs.barOpen 0 = true ∧ withVfs.barOpen 1 = true ∧
    ({ base with mbx := { base.mbx with running := 15 } } : State).lifeRuns 15 = false ∧ (withVfs.fn 0).flr = false ∧ (withVfs.mslot 15).st = .free ∧ (withVfs.mslot 1).st ≠ .free ∧
    withVfs.mbx.undercoat = false ∧ (withVfs.fn 1).st ≠ .absent ∧ (withVfs.fn 1).flr = false ∧ (withVfs.vmbx 1).slot.st = .free ∧
    ((withVfs.updVmbx 1 (fun m => { m with slot := { m.slot with st := .queued } })).vmbx 1).slot.st ≠ .free ∧
    ({ base with mbx := { base.mbx with running := 15 } } : State).mbx.running = 15 ∧ base.mramWaits 15 = false ∧
    ({ base with pwr := { base.pwr with vinWarn := true }, commits := [{ mbx := some (15, 1) }] } : State).mramWaits 15 = true ∧ (hd 0).iss = .pf 1 := by
  (repeat' apply And.intro) <;> decide +kernel

theorem witness_QueueWritesTakeEffect :
    withRings.barOpen 0 = true ∧ withRings.queueAt 0 5 = some 5 ∧ (withRings.queue 5).st = .active ∧
    idxDist (withRings.queue 5).ci 16 ≤ (withRings.queue 5).size ∧ idxDist (withRings.queue 5).pi 16 ≤ (withRings.queue 5).size ∧
    (withRings.queue 5).size < idxDist (withRings.queue 5).ci 17 ∧ (stopping.queue 5).st ≠ .active ∧ stopping.queueAt 0 5 = some 5 ∧
    64 ∈ [8, 16, 32, 64] ∧ 448 % 64 = 0 ∧ 448 + 64 ≤ 512 ∧
    { withRings with pcie := withVfs.pcie }.queueAt 1 0 = some 9 ∧ (withRings.queue 9).en = false ∧ (withRings.queue 9).st = .disabled ∧
    (withRings.queue 5).en = true ∧ (stopping.queue 5).st = .stopping ∧ stopping.queueIdle 5 = true ∧
    (withRings.queue 5).hold = none ∧ idxDist (withRings.queue 5).ci 1 < idxDist (withRings.queue 5).ci (withRings.queue 5).pi ∧
    (withRings.queue 5).entry 1 = none ∧ (withRings.queue 5).modTimer = true ∧ (withRings.queue 5).irqEn = true ∧
    0 < (withRings.queue 5).modPend ∧
    ((withRings.updQueue 5 (fun q => { q with hold := some 1 })).queue 5).hold = some 1 := by (repeat' apply And.intro) <;> decide +kernel

/-- `withRings` with the entry at CI pushed, or checked: a digest, a FENCE or a NOP. -/
def withEntry (st : EntSt) (d : Desc) : State :=
  withRings.updQueue 5 (fun q => { q with entries := [(0, some { st := st, desc := d })], fetch := if st = .pushed then 0 else 1 })

/-- `withRings` with a job of queue 5 on an engine of kind `k`. -/
def withJob (k : EKind) (d : Desc) (st : JobSt := .running) : State :=
  { withRings with que := { withRings.que with jobs := [{ id := { q := 5 }, gen := 1, cls := 1, desc := d, kind := k, st := st, part := 1 }] } }

theorem witness_QueueEntriesBecomeJobs :
    (withRings.queue 5).nextFetch = some 0 ∧ (withRings.queue 5).st = .active ∧ withRings.serving 0 = true ∧ withRings.pfRoom 0 = true ∧
    withRings.tokenFree 0 = true ∧ (withRings.fn 0).bme = true ∧ (withRings.queue 5).entry 0 = none ∧ (withRings.queue 5).ahead < 32 ∧
    ((withEntry .pushed nopDesc).queue 5).nextFetch = some 0 ∧ ((withEntry .pushed nopDesc).queue 5).entry 0 ≠ none ∧
    ((withEntry .ready digestDesc).dispatchable 5).map (fun e => (e.1, e.2.desc.isNop)) = some (0, false) ∧
    ((((withEntry .ready digestDesc).dispatchDesc { q := 5, idx := 0 } 0 1 digestDesc [] none).toOption.map Option.isSome) = some true) ∧
    ((withEntry .ready nopDesc).dispatchable 5).isSome = true ∧ ((withEntry .ready { opcode := 0 }).dispatchable 5).isSome = true ∧
    ((withJob .keccak digestDesc .ended).findJob { q := 5 }).map (fun j => (j.st == .ended, (withJob .keccak digestDesc .ended).canComplete j)) =
      some (true, true) := by
  (repeat' apply And.intro) <;> decide +kernel

/-! ## Witnesses: jobs -/

/-- The job of `withJob`. -/
def theJob (k : EKind) (d : Desc) (st : JobSt := .running) : Job :=
  { id := { q := 5 }, gen := 1, cls := 1, desc := d, kind := k, st := st, part := 1 }

/-- A descriptor that names nothing but its opcode. -/
def descOf (op : Nat) : Desc := { opcode := BitVec.ofNat 8 op }

theorem witness_JobsStopOnAbortAndFailedRead :
    (∀ op ∈ [0x10, 0x20, 0x74, 0x60], (withJob .lath (descOf op)).findJob { q := 5 } = some (theJob .lath (descOf op)) ∧
      (theJob .lath (descOf op)).desc.op = op ∧ (theJob .lath (descOf op)).desc.isHybrid = false) ∧
    ((withJob .lath (descOf 0x10)).fn 0).bme = true ∧ (withJob .lath (descOf 0x10)).que.jobs.all (fun j => j.abort == none) = true ∧
    (((withJob .lath (descOf 0x10)).updJob { q := 5 } (fun j => { j with abort := some (stAborted, 1) })).findJob { q := 5 }).map (fun j => j.abort) =
      some (some (stAborted, 1)) := by
  (repeat' apply And.intro) <;> decide +kernel

/-- The words of generators 19, 18, 28 and 37 can be drawn: those of Render, the device, the first mask generator and the pool. -/
theorem drawn_isSome : (drawn withRings [19, genDevice]).isSome = true ∧ (drawn withRings (genDevice :: (theJob .lath {}).maskGen)).isSome = true ∧
    (drawn withRings ({ theJob .lath {} with level := 1 } : Job).maskGen).isSome = true ∧ (drawn withRings [genDevice, genDevice]).isSome = true ∧
    (drawn withRings [genPool]).isSome = true ∧ (maskDrawn withRings { theJob .lath {} with level := 1 } [genDevice]).isSome = true ∧
    (maskDrawn withRings (theJob .lath {}) []).isSome = true ∧ (hawkDrawn withRings (theJob .hawk {}) 1).isSome = true ∧
    PoolSeeded withRings := by (repeat' apply And.intro) <;> decide +kernel

theorem witness_AeadJobsComplete :
    ∀ op ∈ [0x10, 0x11, 0x12, 0x13], JobRuns (withJob .render (descOf op)) { q := 5 } op (theJob .render (descOf op)) := by decide +kernel

theorem witness_KemJobsComplete :
    (∀ op ∈ [0x20, 0x21, 0x22, 0x23, 0x24, 0x25], JobRuns (withJob .lath (descOf op)) { q := 5 } op (theJob .lath (descOf op))) ∧
    (descOf 0x23).isHybrid = true ∧
    (withRings.allocKeys [(theJob .lath (descOf 0x20)).key .dec 0x1001 .generated []]).isSome = true := by
  (repeat' apply And.intro) <;> decide +kernel

theorem witness_SignatureJobsComplete :
    ∀ op ∈ [0x28, 0x29, 0x2A, 0x40, 0x41, 0x42], JobRuns (withJob .lath (descOf op)) { q := 5 } op (theJob .lath (descOf op)) := by
  decide +kernel

/-- An LMS key of slot 7680 with indices up to 8 reserved, the next reservation being written, its subtree being built. -/
def withLms : State := { withJob .lath (descOf 0x45) with lth := { base.lth with hss := [(7680, { limit := 8, next := 3, writing := some 16, started := true, rebuilding := true })] } }

/-- A Classic McEliece job that waits for its region, or for its key. -/
def blockedJob (op b : Nat) : State := (withJob .lath (descOf op) .waiting).updJob { q := 5 } (fun j => { j with blocked := b })

theorem witness_LmsAndCodeBasedJobsComplete :
    (∀ op ∈ [0x44, 0x45, 0x46, 0x48, 0x49, 0x4A, 0x4C, 0x4D, 0x4E, 0x4F],
      JobRuns (withJob .lath (descOf op)) { q := 5 } op (theJob .lath (descOf op))) ∧
    (∀ c ∈ withRings.commits, c.job ≠ some { q := 5 }) ∧ withRings.lmsSlot = some 7680 ∧ withRings.lmsCount < 512 ∧
    7 < (withLms.hss 7680).limit.toNat ∧ (withLms.hss 7680).limit.toNat ≤ 8 ∧ (withLms.hss 7680).writing = some 16 ∧
    (withLms.hss 7680).started = true ∧ withLms.seamDown = false ∧ hssOptions 1 [] [] = false ∧
    { withLms with lth := { withLms.lth with hss := [(7680, { waitFrom := some 0 })] } }.lth.hss ≠ [] ∧ (withLms.hss 7680).rebuilding = true ∧ withLms.cacheInUse 1 0 = false ∧
    ((blockedJob 0x4C 1).findJob { q := 5 }).map (fun j => (j.st == .waiting, j.blocked)) = some (true, 1) ∧
    (∃ i < 4, (blockedJob 0x4C 1).serves 1 .lath (4 * 0 + i) = true) ∧
    (blockedJob 0x4C 1).regionRoom { theJob .lath (descOf 0x4C) with blocked := 1 } 0 = true ∧
    (blockedJob 0x4C 1).regionAt 0 ({ theJob .lath (descOf 0x4C) with blocked := 1 } : Job).regionSize = some 0 ∧
    (((blockedJob 0x45 1).giveHome 7680).hss 7680).home.isSome = true ∧
    ((blockedJob 0x4D 2).findJob { q := 5 }).map (fun j => (j.st == .waiting, j.blocked)) = some (true, 2) := by
  (repeat' apply And.intro) <;> decide +kernel

/-- A digest runs on Keccak core 0, a rival of another queue waits, and every other core of the class is busy. -/
def withRival : State := { withJob .keccak digestDesc with que := { (withJob .keccak digestDesc).que with
  jobs := (List.range 8).map (fun n => { theJob .keccak digestDesc with id := { q := if n = 0 then 5 else 10 + n }, engine := n }) ++
    [{ theJob .keccak digestDesc .waiting with id := { q := 30 } }] } }

/-- The digest is suspended, and its core is free. -/
def withSaved : State := { withJob .keccak digestDesc .suspended with spg := { base.spg with saved := [{ q := 5 }] } }

theorem witness_SpongeJobsComplete :
    (∀ op ∈ [0x60, 0x61, 0x62, 0x63, 0x64], JobRuns (withJob .keccak (descOf op)) { q := 5 } op (theJob .keccak (descOf op))) ∧
    algIsXof 0x18 = true ∧ importFault [] = some 0 ∧
    (withRival.findJob { q := 5 }).map (fun j => (j.kind.isPool, withRival.rivalWaits j, withRival.poolIdle j)) = some (true, true, false) ∧
    (withRival.unit (EKind.unit .keccak 0)).st ≠ .draining ∧ withRival.spg.saved.length < 64 ∧
    64 ≤ ({ withRival with spg := { withRival.spg with saved := List.replicate 64 {} } } : State).spg.saved.length ∧
    (withSaved.nextJob .keccak 0).map (fun p => p.1.id) = some { q := 5 } ∧ withSaved.held = false := by
  (repeat' apply And.intro) <;> decide +kernel

theorem witness_HawkJobsComplete :
    (∀ op ∈ [0x70, 0x71, 0x72, 0x73, 0x74, 0x75, 0x76, 0x77, 0x78, 0x79],
      JobRuns (withJob .hawk (descOf op)) { q := 5 } op (theJob .hawk (descOf op))) ∧
    ofBe [2] < 256 := by (repeat' apply And.intro) <;> decide +kernel

/-! ## Witnesses: the Lath engines -/

/-- The job that runs on engine 35, at level 1, with its input and output of 64 bytes. -/
def lathJob : Job :=
  { id := { q := 5 }, gen := 1, desc := { opcode := 0x29, inLen := 64, outLen := 64 }, kind := .lath, st := .running,
    engine := 35, level := 1 }

/-- Engine 35 runs it: VL 256, X1 = 2^64 - 1, X2 = 64, X3 = 8, X4 = 0; M1 has element 255; a Quad core is claimed. -/
def lath35 : Lath :=
  { st := .busy, running := true,
    r := { x := [(1, 0xFFFFFFFFFFFFFFFF), (2, 64), (3, 8)], vl := 256, m := [(1, 1 <<< 255)] },
    jobLevel := 1, claims := [1, 6] }

def withLath (e : Lath := lath35) (j : Job := lathJob) : State :=
  { withUnits with que := { base.que with jobs := [j] }, lth := { base.lth with engs := [(35, e)] } }

theorem withLath_issues : Issues withLath 35 lathJob := by (repeat' apply And.intro) <;> decide +kernel

theorem withLath_ready : Ready withLath 35 lathJob [0, 31] := by (repeat' apply And.intro) <;> decide +kernel

/-- The same with the stack of subroutines full, with a register written twice, and at a gap of 4 096 microwords. -/
theorem witness_SequencerGoesOn :
    Issues withLath 35 lathJob ∧ (withLath.lath 35).stage.conflict = false ∧ ((committed withLath 35 false).lath 35).gap < 4096 ∧
    ((committed withLath 35 true).lath 35).gap < 4096 ∧ ((committed withLath 35 false).lath 35).r.stack = [] ∧
    16 ≤ ((committed (withLath { lath35 with r := { lath35.r with stack := List.replicate 16 {} } }) 35 false).lath 35).r.stack.length ∧
    Issues (withLath lath35 { lathJob with abort := some (stAborted, 1) }) 35 { lathJob with abort := some (stAborted, 1) } ∧
    ((withLath { lath35 with stage := { x := [(1, 0), (1, 0)] } }).lath 35).stage.conflict = true ∧
    ((withLath { lath35 with stage := { stall := true } }).lath 35).stage.stall = true := by
  (repeat' apply And.intro) <;> decide +kernel

theorem witness_ScalarOperationsStageResults :
    Issues withLath 35 lathJob ∧ ((withLath.lath 35).special 35 4).isSome = true ∧
    ((withLath.lath 35).xr 1).toNat + ((withLath.lath 35).xr 2).toNat = 2 ^ 64 + 63 := by (repeat' apply And.intro) <;> decide +kernel

theorem witness_VectorIntegerOperations :
    Ready withLath 35 lathJob ({ vd := 31, vs1 := 31, ew := 2 } : VSlot).reads ∧ ({ ew := 2 } : VSlot).fnIn 16 = true ∧
    (withLath.lath 35).r.vstart < (withLath.lath 35).r.vl ∧
    ((withLath { lath35 with r := { lath35.r with vl := 0 } }).lath 35).r.vl ≤ ((withLath { lath35 with r := { lath35.r with vl := 0 } }).lath 35).r.vstart ∧
    Ready withLath 35 lathJob [({ vs2 := 31, ew := 2 } : VSlot).b] ∧
    ({ ew := 3 } : VSlot).ew = 3 ∧ ({ ew := 3 } : VSlot).msk = 0 ∧ ({ ew := 2, fn := 17 } : VSlot).fnIn 17 = true := by
  (repeat' apply And.intro) <;> decide +kernel

theorem witness_VectorIntegerOperations_short : Ready withLath 35 lathJob [] ∧ ({ u := 1, ew := 0 } : VSlot).fnIn 16 = true := by
  (repeat' apply And.intro) <;> decide +kernel

theorem witness_VectorMovesAndMasks_binary :
    Ready withLath 35 lathJob [31] ∧ ({ vs1 := 31, ew := 3 } : VSlot).vs2 = 0 ∧ ({ vs1 := 31, ew := 3 } : VSlot).vd ≠ 31 ∧ (withLath.lath 35).r.vl % 32 = 0 := by
  (repeat' apply And.intro) <;> decide +kernel

theorem witness_VectorModularOperations :
    Ready withLath 35 lathJob ({ ew := 2, fn := 8 } : VSlot).reads ∧ ({ ew := 2, fn := 24 } : VSlot).fnIn 24 = true ∧
    ({ ew := 2, fn := 11 } : VSlot).fnIn 11 = true ∧ ({ fn := 8 } : VSlot).f % 4 = 0 ∧ ({ fn := 9 } : VSlot).f % 4 = 1 ∧
    ({ fn := 2 } : VSlot).f % 4 = 2 ∧ ({ ew := 2, fn := 11 } : VSlot).fnIn 15 = true ∧ 1 ≤ ({ ew := 2, fn := 11 } : VSlot).f % 16 ∧
    ({ ew := 2, fn := 11 } : VSlot).f % 16 ≤ 11 ∧ 1 ≤ ({ ew := 2, fn := 1 } : VSlot).f % 16 := by
  (repeat' apply And.intro) <;> decide +kernel

theorem witness_VectorModularOperations_transforms :
    (withLath.lath 35).r.vl = 256 ∧ (withLath.lath 35).r.vstart = 0 ∧ Ready withLath 35 lathJob [0, 31] ∧
    ({ ew := 2, fn := 7 } : VSlot).fnIn 15 = true ∧ ({ ew := 2, fn := 7 } : VSlot).layerOk = true ∧
    ({ ew := 2, fn := 8 } : VSlot).layerOk = true := by (repeat' apply And.intro) <;> decide +kernel

theorem witness_VectorMovesAndMasks :
    Ready withLath 35 lathJob [31, 0] ∧ Ready withLath 35 lathJob [31] ∧ Ready withLath 35 lathJob [] ∧ Issues withLath 35 lathJob ∧
    ({ vd := 7, ew := 2, fn := 21 } : VSlot).fnIn 23 = true ∧ ({ vd := 7, ew := 2, fn := 21 } : VSlot).f % 8 ≤ 5 ∧
    ({ vd := 7 } : VSlot).d < 8 ∧ ({ fn := 7 } : VSlot).fnIn 7 = true ∧ ({ fn := 4 } : VSlot).f ≤ 4 ∧
    (withLath.lath 35).active 1 = [255] ∧ (({ fn := 31 } : VSlot).f + 1) * (withLath.lath 35).r.vl ≤ 8192 := by
  (repeat' apply And.intro) <;> decide +kernel

/-- The engine without a claim; at level 2 with its shuffle state due. -/
def lathFree (lvl : Nat) : Lath := { lath35 with claims := [], jobLevel := lvl, shufLeft := if lvl = 2 then 0 else 5 }

theorem witness_ShareModeOperations :
    MayDraw (withLath (lathFree 1)) 35 (lathFree 1) (shareWords (lathFree 1) 0) ∧
    MayDraw (withLath (lathFree 2)) 35 (lathFree 2) (shareWords (lathFree 2) 42) ∧ shuffleDue (lathFree 2) ∧ ¬ shuffleDue (lathFree 1) ∧
    ShareReady (withLath (lathFree 1)) 35 lathJob { vd := 30, vs1 := 2, vs2 := 4, ew := 2 } 30 (some 30) [2, 4] [] ∧
    ShareReady (withLath (lathFree 2)) 35 lathJob { vd := 29, vs1 := 2, vs2 := 8, ew := 2, fn := 16 } 22 (some 29) [2, 8] [] ∧
    ({ vd := 30, vs1 := 2, vs2 := 4, ew := 2 } : VSlot).pubOk = true ∧
    ShareReady (withLath (lathFree 1)) 35 lathJob { vs1 := 2, ew := 2 } 25 none [2] [] ∧
    ShareReady (withLath (lathFree 1)) 35 lathJob { vd := 4, vs1 := 2, ew := 2, fn := 11 } 31 (some 4) [2] [] ∧
    ShareReady (withLath (lathFree 1)) 35 lathJob { vd := 4, vs1 := 2, ew := 2, fn := 1 } 25 (some 4) [] [2] ∧
    ShareReady (withLath (lathFree 1)) 35 lathJob { vd := 4, vs1 := 2, vs2 := 8, ew := 2, fn := 7 } 31 (some 4) [2] [8] ∧
    ({ vd := 4, vs1 := 2, vs2 := 8, ew := 2, fn := 7 } : VSlot).layerOk = true := by
  (repeat' apply And.intro) <;> decide +kernel

/-- Engine 32 of the same Quad runs a locked sequence that covers bank 0. -/
def withLocked : State := { withLath with lth := { withLath.lth with engs := [(32, { lath35 with lock := true, claims := [8] }), (35, lath35)] } }

theorem witness_LathMemoryAccesses :
    Ready withLath 35 lathJob [31] ∧ (withLath.lath 35).walk false none (fun i => [64 + 4 * i]) [255] = ([255], none) ∧
    (withLath.lath 35).walk true none (fun i => [64 + 4 * i]) [255] = ([255], none) ∧ Ready withLath 35 lathJob [31, 30] ∧
    Ready withLath 35 lathJob (groupOf 4 28) ∧ 28 + 3 ≤ 31 ∧
    (withLath.lath 35).firstBad false none 8 [64] = none ∧ (withLath.lath 35).firstBad true none 8 [65528] = none ∧
    ((withLath.lath 35).firstBad true none 8 [4]).isSome = true ∧ ((withLath.lath 35).firstBad false none 8 [262144]).isSome = true ∧
    ((withLath.lath 35).firstBad false (some 0) 8 [64]).isSome = true ∧ withLath.lockedOut 8 3 [8] = false ∧
    withLocked.lockedOut 8 3 [8] = true := by
  (repeat' apply And.intro) <;> decide +kernel

theorem witness_StoresChangeOnlyTheirBytes :
    Ready withLath 35 lathJob [] ∧ (withLath.lath 35).r.vstart = 0 ∧ (withLath.lath 35).firstBad true none 8 [65528] = none ∧
    (withLath.lath 35).firstBad false none 8 [65528] = none ∧
    withLath.lockedOut 8 3 ((beatsOf [65528]).map (fun b => 8 + b / 8192)) = false := by (repeat' apply And.intro) <;> decide +kernel

theorem witness_PortOperations :
    Issues withLath 35 lathJob ∧ (∀ c ∈ (withLath.lath 35).claims, c < 15) ∧ (∃ c ∈ (withLath.lath 35).claims, 6 ≤ c) ∧
    (withLath.lath 35).lock = false ∧ MayDraw withLath 35 (withLath.lath 35) (((withLath.lath 35).r.vl + 15) / 16) ∧
    30 + shareCount 1 ≤ 32 ∧ ((withLath lath35 { lathJob with keys := [[1, 2, 3, 4]] }).lath 35).jobLevel = 1 ∧
    withLath.bloadKey { lathJob with keys := [[1, 2, 3, 4]] } 0 = some [1, 2, 3, 4] ∧ (withLath.lath 35).vBusy (groupOf 2 30) = false ∧
    rangeMapped 64 64 = true ∧ 0 + 64 ≤ lathJob.desc.inLen.toNat ∧ (withLath.lath 35).rangeOpen true 64 64 = true ∧
    (withLath.lath 35).rangeOpen false 64 64 = true ∧ lathJob.desc.inLen.toNat < 8 + 64 := by (repeat' apply And.intro) <;> decide +kernel

/-- The engine's port fills V31 from the core it claims, or feeds it; a transfer of the input is under way. -/
def lathBusy (sq : Bool) : Lath :=
  { lath35 with spg := some { core := 1, squeeze := sq, vreg := 31, len := 256 }, dma := [{ inn := true, addr := 64, off := 0, len := 64 }] }

theorem witness_SpongePortOperations :
    Issues withLath 35 lathJob ∧ (withLath.lath 35).spg = none ∧ (withLath.lath 35).claimsCore 1 = true ∧
    3 < (if 1 ≤ 2 then 4 else 3) ∧ Issues (withLath (lathBusy true)) 35 lathJob ∧
    (lathBusy true).spg.map (fun o => o.squeeze) = some true ∧ (lathBusy false).spg.map (fun o => o.squeeze) = some false ∧
    withLath.rngWaits (maskGenOf 35) = false ∧ withLath.rngErr (maskGenOf 35) = none ∧ withLath.lockedOut 8 3 [1, 7] = false ∧
    withLath.lockedOut 8 3 [1] = false ∧ (lathBusy true).dma ≠ [] ∧ ((withLath (lathBusy true)).fn lathJob.fn).bme = true := by (repeat' apply And.intro) <;> decide +kernel

/-- Quad 8 holds the state of a suspended job, of queue 6, that its engine 35 can take up again. -/
def withSave : State := { withUnits with
  que := { base.que with jobs := [{ lathJob with id := { q := 6 }, st := .suspended, quad := some 8 }] }
  lth := { base.lth with engs := [(35, { st := .idle })], quads := [(8, { save := some { job := { q := 6 } } })] } }

/-- Unit 71, Lath engine 35, drains while its job runs; Hawk 8 and Lath 34 are being wiped; engine 35 holds the lock of its Quad. -/
def withDrain : State := { withLath { lath35 with lock := true } with
  plb := { units := [(71, { st := .draining })] }
  hwk := [(8, { st := 5 })]
  lth := { base.lth with engs := [(35, { lath35 with lock := true }), (34, { st := .wiping })] } }

theorem witness_EngineEventsTakeEffect :
    (withDrain.hawk 8).st = 5 ∧ (withDrain.lath 34).st = .wiping ∧ (withDrain.unit (36 + 35)).st = .draining ∧
    (withDrain.jobOn .lath 35).isSome = true ∧ (withDrain.quad (35 / 4)).save = none ∧
    (withSave.nextJob .lath 35).map (fun p => (p.1.st == .suspended, p.1.id)) = some (true, { q := 6 }) ∧
    (withSave.quad (35 / 4)).save.map (fun v => v.job) = some { q := 6 } ∧ withSave.held = false ∧
    (withDrain.lath (4 * 8 + 3)).lock = true ∧ (withDrain.jobOn .lath (4 * 8 + 3)).isSome = true ∧ 5 < 6 := by
  (repeat' apply And.intro) <;> decide +kernel

/-- With requesters, the arbiter of the device picks one of them; without, none. -/
theorem witness_EngineEventsTakeEffect_arbiter : (withLath.arbWinner 8 {} [0, 5]).isSome = true ∧ withLath.arbWinner 8 {} [] = none := by
  (repeat' apply And.intro) <;> decide +kernel

theorem witness_FreshSharingsHoldTheirValue : (3329 = 0 ∨ 3329 = 3329 ∨ 3329 = 8380417) ∧ (3 = 2 ∨ 3 = 3) ∧ 255 < 256 := by
  (repeat' apply And.intro) <;> decide

/-! ## Witnesses: the SMBus side, the link, the ports and the power stage -/

def withPage (p : Byte) : State := { base with pwr := { base.pwr with page := p, rails := [(6, { ocWarn := some 0, otWarn := some 0 })], alert := true } }

theorem witness_PmbusReadsAnswer :
    (withPage 7).pwr.vin = true ∧ (withPage 7).pwr.st ≠ .dustsheet ∧ (withPage 255).pwr.page.toNat = 255 ∧ (withPage 6).pwr.page.toNat = 6 ∧
    ((withPage 6).rail 6).ocWarn = some 0 ∧ ((withPage 6).rail 6).otWarn = some 0 ∧
    { withPage 7 with pwr := { (withPage 7).pwr with st := .dustsheet, vinOvWarn := some 0, vinUvWarn := some 0 } }.pwr.vin = true := by
  (repeat' apply And.intro) <;> decide +kernel

theorem witness_PmbusWritesTakeEffect :
    (withPage 7).pwr.vin = true ∧ (withPage 7).pwr.st ≠ .dustsheet ∧ (withPage 255).pwr.page.toNat = 255 ∧ (withPage 6).pwr.page.toNat = 6 ∧
    ((7 : W16).setWidth 8 : Byte).toNat ≤ 7 ∧ ((0xFF : W16).setWidth 8 : Byte) = 0xFF ∧ 8 ≤ ((8 : W16).setWidth 8 : Byte).toNat ∧
    0 ≤ lin11 0 ∧ lin11 0 ≤ railMax 6 ∧ (railMax 0 : Int) < lin11 0x7BFF ∧ 60000 ≤ lin11 120 ∧ lin11 120 ≤ 120000 ∧
    lin11 0 < 5700 ∧ 120000 < lin11 0x03FF ∧ State.reset.pwr.vin = false ∧ 20000 ≤ lin11 41 ∧ lin11 41 ≤ 41000 ∧
    5700 ≤ lin11 12 ∧ lin11 12 ≤ 12000 ∧ (withPage 6).pwr.alert = true := by (repeat' apply And.intro) <;> decide +kernel

theorem witness_JtagInstructionsSelect :
    base.tapOn = true ∧ base.boot.resetHeld = false ∧
    ({ base with boot := { base.boot with resetHeld := true } } : State).tapOn = true := by (repeat' apply And.intro) <;> decide +kernel

/-- PF0 may create the seven VFs it has without ARI; VF1 in D3hot or in DRAIN; a store that is loaded. -/
def manyVfs : State := { base with pcie := { base.pcie with numVfs := 256 }, bnd := { base.bnd with loaded := true } }

theorem witness_FunctionEventsTakeEffect :
    manyVfs.pcie.vfEn = false ∧ manyVfs.cfgOpen 0 = true ∧ withVfs.cfgOpen 1 = true ∧ withVfs.cfgOpen 0 = true ∧ withVfs.barOpen 1 = true ∧
    withVfs.pcie.linkUp = true ∧ ({ manyVfs with pcie := { manyVfs.pcie with pageSize := 8 } } : State).pcie.pageSize = 8 ∧
    ({ manyVfs with mbx := { manyVfs.mbx with undercoat := true } } : State).mbx.undercoat = true ∧ (manyVfs.fn 0).flr = false ∧ (manyVfs.fn 0).rrs = false ∧ manyVfs.mbx.undercoat = false ∧
    manyVfs.pcie.pageSize = 1 ∧ 7 = (if manyVfs.pcie.ari then min manyVfs.pcie.numVfs 255 else min (min manyVfs.pcie.numVfs 255) 7) ∧
    (withVfs.fn 1).st = .active ∧ (withVfs.fn 1).flr = false ∧ withVfs.pcie.vfEn = true ∧ (withVfs.fn 2).st ≠ .absent ∧
    (withVfs.fn 2).flr = true ∧ withVfs.flrDrained 2 = true ∧ (withVfs.fn 2).st ≠ .drain ∧
    (((withVfs.updFn 2 (fun x => { x with st := .drain })).fn 2).st = .drain) ∧
    (withVfs.updFn 0 (fun x => { x with flr := true })).flrDrained 0 = true ∧ manyVfs.bnd.loaded = true ∧ manyVfs.tmp.erased = none ∧
    (withVfs.fn 1).rrs = false ∧ ((withVfs.updFn 1 (fun x => { x with d3hot := true })).fn 1).d3hot = true := by
  (repeat' apply And.intro) <;> decide +kernel

theorem witness_LinkEventsTakeEffect :
    decide (4 < 5 ∨ 16 < 16) = true ∧ decide (5 < 5 ∨ 16 < 16) = false ∧ base.pcie.speed = 5 ∧ base.pcie.width = 16 ∧
    base.pcie.degraded = false ∧ base.pcie.linkUp = true ∧
    ({ base with pcie := { base.pcie with aspmL1 := true } } : State).pcie.aspmL1 = true ∧
    ({ base with pcie := { base.pcie with aspmL1 := true }, mbx := {} } : State).hostWork = false ∧
    (withJob .lath (descOf 0x29)).findJob { q := 5 } = some (theJob .lath (descOf 0x29)) := by (repeat' apply And.intro) <;> decide +kernel

/-- Pair 0 carries frames on all its sub-ports (mode 0), and is an ESP pair or a MACsec pair; its receive SA 16 383 drains. -/
def withPorts (proto : Byte) : State := { withUnits with
  pwr := { withUnits.pwr with sdLock := 0xF, sdRefOk := 0xF, refclkOk := true, rootLock := true }
  flt := { withUnits.flt with grants := [{ who := { kind := .standing, idx := 0 }, size := 96 }] }
  plb := { units := (0, { st := .retired }) :: (List.range 150).map (fun n => (n + 1, ({ st := if n = 31 then .spare else .inService } : Machine.PUnit))) }
  rdr := { withUnits.rdr with
    pairs := [(0, { modeSet := true, enabled := true, maxFrame := 9216, proto := proto })]
    subs := [(0, { st := .up, lanes := 8, pausing := 1 }), (32, { st := .up, lanes := 8 })]
    flows := [(0, [{ todo := .inEngine 4 }])]
    engs := [(1, { st := .inline }), (2, { st := .inline, dir := 1 }), (4, { st := .inline })]
    takeover := [(0, 0, 0)]
    sas := [(32767, { present := true, ep0 := { st := .drainAccept }, ep1 := { st := .draining } })] } }

/-- The shortest frame and a longer one, not MAC control. -/
def frame60 : Frame := { bytes := List.replicate 12 0 ++ [8, 0] ++ List.replicate 46 1 }

theorem witness_PortEventsTakeEffect :
    ((withPorts 0).pair 0).enabled = true ∧ 0 < subCount ((withPorts 0).pair 0).mode ∧ (withPorts 0).powered = true ∧
    octets ({} : Frame).bytes < 64 ∧ 64 ≤ octets frame60.bytes ∧ frame60.fcsOk = true ∧ be16 frame60.bytes 12 ≠ 0x8808 ∧
    ((withPorts 0).pair 0).uncontrolled 0 frame60.bytes = false ∧ octets frame60.bytes ≤ ((withPorts 0).pair 0).maxFrame ∧
    (withPorts 0).forwards 0 0 = true ∧ bufBytes 0 none ((withPorts 0).flow 0 0) + octets frame60.bytes ≤ shareBytes ((withPorts 0).pair 0).mode ∧
    ((withPorts 0).pair 0).esp 0 = false ∧ ((withPorts 1).pair 0).esp 0 = true ∧
    ((withPorts 0).subPort 0 0).pausing ≠ 0 ∧ (withPorts 0).flowOf 4 = some 0 ∧
    (((withPorts 0).sa 1 16383).ep 0).st = .drainAccept ∧ (((withPorts 0).sa 1 16383).ep 1).st = .draining ∧
    (withPorts 0).subLive 0 0 = true ∧ ((withPorts 0).subPort 0 0).st = .up ∧ (withPorts 0).subLive 8 1 = (withPorts 0).subLive 0 1 ∧
    ((withPorts 0).updSub 0 0 (fun x => { x with st := .training })).subLive 0 0 = true ∧ (withPorts 0).pwr.sdLock.getLsbD (0 / 4) = true ∧
    (withPorts 0).rdr.takeover.find? (fun t => t.1 == 0) = some (0, 0, 0) ∧ ((withPorts 0).unit 0).st ≠ .draining ∧
    (withPorts 0).standingHeld 0 = true ∧ 0 < 8 ∧ (withPorts 0).spareFor 0 = some 32 ∧ ((withPorts 0).gen (19 + 8)).st = .ok := by
  (repeat' apply And.intro) <;> decide +kernel

/-- A Lath job runs with its grant, which Float has revoked; a request of 30 tokens waits. -/
def withGrants : State := { withLath with flt := { withLath.flt with
  grants := [{ who := { kind := .lath, idx := 35 }, size := 30, revoked := true }, { who := { kind := .lath, idx := 4 }, size := 30 }], reqs := [{ who := { kind := .lath, idx := 3 }, size := 30 }] } }

theorem witness_FloatEventsTakeEffect :
    withGrants.flt.nextReq withGrants.flt.reqs = some { who := { kind := .lath, idx := 3 }, size := 30 } ∧ 30 ≤ withGrants.flt.free ∧
    withGrants.flt.grants.any (fun g => g.who == { kind := .lath, idx := 35 } && g.revoked) = true ∧
    ({ withGrants with flt := withGrants.flt.ack { kind := .lath, idx := 35 } } : State).jobOf { kind := .lath, idx := 35 } = some lathJob ∧
    lathJob.st = .running ∧ withGrants.flt.holds { kind := .lath, idx := 4 } = true ∧ withGrants.flt.limit = false ∧
    ({ withGrants with flt := { withGrants.flt with limit := true, thermal := true } } : State).flt.limit = true ∧
    withGrants.computeOn = true ∧ withGrants.flt.thermal = false := by (repeat' apply And.intro) <;> decide +kernel

theorem witness_RailAndClockEventsTakeEffect :
    base.computeOn = true ∧ ({ base with pwr := { base.pwr with phases := 22, slewing := true, vinWarn := true } } : State).computeOn = true ∧
    ({ base with pwr := { base.pwr with phases := 22, slewing := true, vinWarn := true } } : State).pwr.phases = 21 + 1 ∧ 6 ≤ 6 ∧ 3 < 4 ∧
    base.pwr.vin = true ∧ base.pwr.vinWarn = false ∧
    ({ base with pwr := { base.pwr with phases := 22, slewing := true, vinWarn := true } } : State).pwr.vinWarn = true ∧
    ({ base with pwr := { base.pwr with phases := 22, slewing := true, vinWarn := true } } : State).pwr.slewing = true := by
  (repeat' apply And.intro) <;> decide +kernel

/-- `base` in the power situation `st`, at step `k` of the power sequence. -/
def powered (st : PowerSt) (k : Nat := 0) : State := { base with pwr := { base.pwr with st := st, step := k, wakes := 2 }, bkp := { base.bkp with rtcAlarm := 1 } }

theorem witness_StartsResetsAndPowerStates :
    State.reset.pwr.st = .off ∧ (powered .sequencing 9).pwr.st = .sequencing ∧ (powered .sequencing 9).pwr.step = 9 ∧
    (powered .sequencing 10).boot.resetHeld = false ∧ (powered .sequencing 0).pwr.step = 0 ∧ (powered .sequencing 9).pwr.tries < 3 ∧
    base.computeOn = true ∧ ResetSrc.perst ≠ .self ∧ (powered .stopped).computeOn = false ∧ (powered .dustsheet).computeOn = false ∧
    (powered .sequencing 10).computeOn = false ∧ (powered .sequencing 10).pwr.step = 10 ∧ (powered .stopped).pwr.st = .stopped ∧
    ({ base with lcy := { base.lcy with resetDue := true } } : State).computeOn = true ∧
    ({ base with lcy := { base.lcy with resetDue := true } } : State).lcy.resetDue = true ∧
    ({ base with boot := { base.boot with recoverReset := true } } : State).boot.recoverReset = true ∧
    ({ base with boot := { base.boot with step := 11 }, mbx := {} } : State).boot.step < 12 ∧
    ({ base with boot := { base.boot with step := 11 }, mbx := {} } : State).mbx.ready = false ∧
    ({ base with boot := { base.boot with hold := true } } : State).boot.hold = true ∧ base.boot.resetHeld = false ∧
    base.pwr.vin = true ∧ State.reset.pwr.vin = false ∧ base.pwr.st ≠ .off ∧
    base.pwr.st = .run ∧ base.boot.step = 12 ∧ (List.range 8).all (fun n => !(base.pair n).enabled) = true ∧
    base.que.jobs.all (fun j => j.st == .ended) = true ∧ base.cmdRunning = false ∧ (powered .dustEntry).pwr.st = .dustEntry ∧
    (powered .dustsheet).pwr.st = .dustsheet ∧ (powered .dustsheet).pwr.wakes ≠ 0 ∧ (powered .dustEntry).bkp.rtcAlarm ≠ 0 := by
  (repeat' apply And.intro) <;> decide +kernel

/-! ## Witnesses: Grit, the custody die, Scrim and Plumb -/

/-- Grit runs with all its sources; source 7 has failed twice within 2^20 windows; the expander of instance 0 is due. -/
def withGrit : State := { base with grt := {
  st := .ok, started := true,
  srcs := (List.range 8).map (fun n => (n, ({ passed := true, bits := 1024, window := 9, recent := if n = 7 then [1, 2] else [] } : Source))),
  gens := (List.range 38).map (fun n => (n, ({ st := .ok, fill := 100, due := true, fresh := decide (n = 0) } : Gen))) } }

/-- The start of Grit with no healthy source, and every generator unseeded. -/
def gritStart : State := { withJob .lath (descOf 0x28) with grt := { started := true, srcs := (List.range 8).map (fun n => (n, ({ disabled := true } : Source))) } }

/-- The same with Seam down: its record is open. -/
def seamLost : State := { withGrit with scr := { recs := [{ rid := 1, who := { group := 3, unit := 0 }, cause := 98, rank := 5, nums := [98] }] } }

theorem witness_GritEventsTakeEffect :
    withGrit.grt.started = true ∧ (withGrit.src 0).disabled = false ∧ withGrit.grt.st ≠ .fail ∧ (withGrit.src 7).disabled = false ∧
    4 < withGrit.otp.cutRep.toNat ∧ 4 < withGrit.otp.cutProp.toNat ∧
    (((withGrit.src 0).recent.filter (fun w => decide ((withGrit.src 0).window < w + 1048576))) ++ [9]).length < 3 ∧
    withGrit.seamDown = false ∧ seamLost.seamDown = true ∧ ((seamLost.updSrc 0 (fun y => { y with fails := 1 })).seamDown = true) ∧
    ((withGrit.updGen 0 (fun g => { g with st := .fail, cause := .overdue })).gen 0).cause = .overdue ∧
    3 ≤ (((withGrit.src 7).recent.filter (fun w => decide ((withGrit.src 7).window < w + 1048576))) ++ [9]).length ∧
    4 ≤ withGrit.healthy ∧ ({ withGrit with grt := { withGrit.grt with gens := [] } } : State).seedTarget = some 18 ∧
    (takeBits 144 0 withGrit.grt.turn ((List.range 8).map (fun i => if withGrit.srcHealthy i then (withGrit.src i).bits else 0))).isSome = true ∧
    gritStart.grt.started = true ∧ gritStart.grt.st = .unseeded ∧ gritStart.healthy < 4 ∧ (withGrit.gen 37).st = .ok ∧
    (withGrit.gen 0).due = true ∧ (withGrit.gen 0).fresh = true ∧ (withGrit.gen (if 37 = 37 then 18 else 37 - 19)).st = .ok ∧
    (gritStart.findJob { q := 5 }).map (fun j => (j.st, j.draws.contains genDevice)) = some (.running, true) ∧ gritStart.rngWaits genDevice = true := by
  (repeat' apply And.intro) <;> decide +kernel

/-- Slot 7 waits for its wipe; a commit is under way; the debug scope of a device in life-cycle state 2 is over. -/
def withCommit : State := { base with
  bnd := { slots := [(7, { st := .awaitWipe, s0 := 1 })], wipeQ := [7] }
  commits := [{ counter := some 5, started := true }]
  lcy := { st := 2, scope := 1, notAfter := 1 }
  bkp := { base.bkp with rtc := 0xFFFFFFFF, rtcValid := true, bkekValid := true, enable := 0xFF }
  tmp := { base.tmp with rtcValid := true, bkekValid := true, enable := 0xFF }
  pwr := { base.pwr with vbat := true } }

theorem witness_CustodyEventsTakeEffect :
    withCommit.bnd.paused = false ∧ (withGrit.gen genDevice).st = .ok ∧ (withCommit.gen genDevice).st ≠ .ok ∧
    withCommit.seamDown = false ∧ withCommit.pwr.vinWarn = false ∧ withCommit.bnd.wipeQ.find? (fun k => (withCommit.slot k).jobRefs == 0) = some 7 ∧
    withCommit.commits = [{ counter := some 5, started := true }] ∧ withCommit.tmp.erased = none ∧
    ({ withCommit with tmp := { withCommit.tmp with erased := some 3 } } : State).tmp.erased = some 3 ∧
    ({ withCommit with commits := [{ life := some { dst := 3 }, started := true }] } : State).commits.head?.map (fun c => c.life) = some (some { dst := 3 }) ∧
    (withCommit.commitImage { counter := some 5, started := true }).isSome = true ∧
    withCommit.lcy.scope ≠ 0 ∧ 2 ≤ withCommit.lcy.st ∧ withCommit.lcy.notAfter.toNat < rtcSeconds withCommit ∧
    withCommit.srcOn 0 = true ∧ withCommit.watches 0 = true := by
  (repeat' apply And.intro) <;> decide +kernel

/-- Cause 512 reads 0b10 at unit 7; a record of Lath engine 0 at rank 4 is open, with its cause quiet; the same bound to a start. -/
def withRec (sb : Bool) : State := { base with scr := {
  asserted := [(512, 7)],
  recs := [{ rid := 1, who := { group := 10, unit := 0 }, cause := 320, rank := 4, startBound := sb, nums := [320] }] } }

theorem witness_ScrimEventsTakeEffect :
    (withRec false).scrimOn = true ∧ (withRec false).seamDown = false ∧ seamLost.scrimOn = true ∧ seamLost.seamDown = true ∧ (withRec false).scr.asserted.contains (544, 0) = false ∧ causeKnown 544 = true ∧ 544 % 32 ≠ 31 ∧
    (withRec false).scr.asserted.contains (512, 7) = true ∧ (causeBits 16).contains 1 = true ∧
    ((withRec false).recordOf { group := 10, unit := 0 } false).map (fun r => (r.rank, r.startBound, r.nums.contains 5, (withRec false).allQuiet r)) =
      some (4, false, false, true) ∧
    ((withRec true).recordOf { group := 10, unit := 0 } false).map (fun r => r.startBound) = some true ∧
    (withRec false).scr.terminal = false ∧ (withRec false).scr.quietMs ≠ 0 ∧ (withRec false).exitsInHour < 7 ∧
    7 ≤ ({ withRec false with scr := { (withRec false).scr with exits := List.replicate 7 0 } } : State).exitsInHour := by
  (repeat' apply And.intro) <;> decide +kernel

/-- Unit 36 (Lath engine 0) stands in state `st` for a test of purpose `p`, for which the command of slot 2 waits. -/
def withTest (st : USt) (p : Purpose) : State := { base with
  boot := { base.boot with step := 12 }
  bkp := { base.bkp with rtc := 0x800000000000, rtcValid := true }
  plb := { units := [(36, { st := st })], vcoreMv := 800, cycle := true, retryDue := true,
           testq := [{ unit := 36, purpose := p, active := true, waiters := [(2, 7)] }] } }

theorem witness_PlumbEventsTakeEffect :
    ((withTest .test .kat).unit 36).st = .test ∧
    ((withTest .test .kat).plb.testq.filter (fun t => t.unit == 36 && t.purpose == .kat)).any (fun t => t.active) = true ∧
    (((withTest .draining .kat).serveQueue.activeEnt 36).map (fun t => t.purpose == .kat) = some true) ∧
    ((withTest .draining .kat).serveQueue.unit 36).st = .draining ∧ (withTest .draining .kat).serveQueue.noWork 36 = true ∧
    ((withTest .draining .measure).serveQueue.activeEnt 36).map (fun t => t.purpose == .measure) = some true ∧
    ((withTest .draining .derate).serveQueue.activeEnt 36).map (fun t => t.purpose == .derate) = some true ∧
    ((withTest .draining .derate).serveQueue.unit 36).st = .draining ∧ (withTest .draining .derate).serveQueue.noWork 36 = true ∧
    (base.serveQueue.plb.testq.filter (fun t => t.unit == 36 && t.purpose == .kat)).any (fun t => t.active) = false ∧
    ((withTest .draining .putty).serveQueue.activeEnt 36).map (fun t => t.purpose == .putty) = some true ∧
    unitEngine 36 = some (.lath, 0) ∧ ({ base with lth := { base.lth with load := some {} } } : State).lth.load.isSome = true ∧ 182 < 183 ∧
    base.boot.step = 12 ∧ base.mbx.undercoat = false ∧ base.pwr.st = .run ∧ 150 < 151 ∧ (base.unit 150).st ≠ .retired ∧
    tempOk 250 = true ∧ tempOk 2000 = false ∧ s105 0 250 < 15 ∧ ¬ s105 200 250 < 15 ∧ (withTest .test .kat).plb.retryDue = true ∧
    ((withTest .test .derate).activeEnt 36).isSome = true ∧ ((withTest .test .measure).activeEnt 36).isSome = true ∧
    (withTest .test .measure).plb.cycle = true := by (repeat' apply And.intro) <;> decide +kernel

/-! ## Witnesses of the statements that state a rule whole -/

theorem witness_FaultRecordIsReadAndCleared :
    Issues withLath 35 lathJob ∧ (withLath.lath 35).stage.fault = none ∧ (withLath.lath 35).stage.vsMts = none ∧
    (withLath.lath 35).stage.vsClr = false ∧ (withLath.lath 35).stage.vsElem = false ∧ (withLath.lath 35).stage.x = [] ∧
    ({ ew := 2, fn := 1 } : VSlot).fnIn 1 = true ∧ ({ vd := 31, ew := 2 } : VSlot).d ≠ 0 := by (repeat' apply And.intro) <;> decide +kernel

theorem witness_BaseCaseProducts : Ready withLath 35 lathJob [0, 31] ∧ (withLath.lath 35).r.vl = 256 ∧ (withLath.lath 35).r.vstart = 0 := by
  (repeat' apply And.intro) <;> decide +kernel

theorem witness_ScrimStatusAnswers : Runs base (hd 0) { smb := true, basic := true } := by (repeat' apply And.intro) <;> decide +kernel

theorem witness_BranchConditions :
    Issues withLath 35 lathJob ∧ (withLath.lath 35).stage.conflict = false ∧ ((committed withLath 35 false).lath 35).gap < 4096 ∧
    (∃ i < ((committed withLath 35 false).lath 35).r.vl, (((committed withLath 35 false).lath 35).mr 0).getLsbD i = false) := by
  refine ⟨by (repeat' apply And.intro) <;> decide +kernel, by decide +kernel, by decide +kernel, 0, by decide +kernel, by decide +kernel⟩

/-! ## Small tests: one step or one operation, against the spec's words -/

/-- What a step answers from a state, without the state's fields that the test does not speak of. -/
def after {α : Type} (f : State → α) : Host.Outcome State Fault Refusal → Option α
  | .next s => some (f s)
  | _ => none

/-- The device has 36 Lath engines, 0-35 (R19). -/
theorem test_engine36_stops : exec (.mUnlock 36 {}) base = .fault .noSuchEngine := by rfl

/-- An idle step counts one period of CLK_SLOW. -/
theorem test_idle_ticks : after (fun s => s.clk) (step base) = some 1 := by decide +kernel

/-- A word of no row: the device's commands have no encoding. -/
theorem test_no_words : decodeTableWord 64 0 = none := by rfl

/-- X1 is 2^64 - 1, X2 is 64: the sum wraps to 63 with carry (R212). -/
theorem test_add_wraps : after (fun s => ((s.lath 35).stage.x, (s.lath 35).stage.cf)) (exec (.mAdd 35 5 1 2) withLath) =
    some ([(5, 63)], some true) := by decide +kernel

/-- X2 - X1 borrows: C, "no borrow", is 0. -/
theorem test_sub_borrows : after (fun s => ((s.lath 35).stage.x, (s.lath 35).stage.cf)) (exec (.mSub 35 5 2 1) withLath) =
    some ([(5, 65)], some false) := by decide +kernel

/-- X0 takes no result (R205). -/
theorem test_x0_ignored : after (fun s => (s.lath 35).stage.x) (exec (.mAdd 35 0 1 2) withLath) = some [] := by decide +kernel

/-- Compression to one bit (R258, FIPS 203): 832 is nearer to 0, 833 nearer to half the prime. -/
theorem test_compress : compress 1 832 = 0 ∧ compress 1 833 = 1 ∧ compress 10 3328 = 0 := by decide +kernel

/-- In GF(2^12) with polynomial 1009h, x^11 times x is x^3 + 1 (R260). -/
theorem test_gf_reduces : gfMul 12 0x1009 0x800 2 = 9 := by decide +kernel

/-- Without carries, 3 times 3 is 5. -/
theorem test_clmul : (clmul 3 3).toNat = 5 := by decide +kernel

/-- 3^5 mod 7, the exponent most significant byte first. -/
theorem test_powMod : powMod 3 7 [0, 5] = 5 := by decide +kernel

/-- A status write of 1 clears a FN_EVENT bit, a 0 keeps it. -/
theorem test_event_w1c : after (fun s => s.pcie.event) (exec (.regWrite (.bar 0 0x01200010 4 5))
    { base with pcie := { base.pcie with event := 0xF } }) = some 0xA := by decide +kernel

/-- A Linear11 word: mantissa in bits 10:0, exponent of two in bits 15:11 (R552), here 12 V and 2 V, in thousandths. -/
theorem test_lin11 : lin11 12 = 12000 ∧ lin11 0x0801 = 2000 := by decide +kernel

/-- PAGE takes 0-7 and FFh; another number is not taken and is flagged (R551). -/
theorem test_page_range : after (fun s => (s.pwr.page, s.pwr.cml)) (exec (.pmbusPage (.write 8)) base) = some (0, true) := by decide +kernel

/-- The worked NTT layer (07_lath_vectors): the two words of its vector slots, fields and operations. -/
theorem test_vtwid_word : vecFields 0x58400206 = { vd := 2, ew := 2, fn := 6 } ∧
    vectorSlot 35 0x58400206 = .row (execMVtwid 35 { vd := 2, ew := 2, fn := 6 }) := ⟨by decide, rfl⟩

theorem test_vntt_word : vecFields 0x50211206 = { vd := 1, vs1 := 1, vs2 := 2, ew := 2, fn := 6 } ∧
    vectorSlot 35 0x50211206 = .row (execMVntt 35 { vd := 1, vs1 := 1, vs2 := 2, ew := 2, fn := 6 }) := ⟨by decide, rfl⟩

/-- Its twiddle factors, and the elements of butterflies 0 and 64. -/
theorem test_ntt_layer : (twiddle 3329 6 false 0, twiddle 3329 6 false 64) = (2580, 3289) ∧
    ((2121 + 300 * 2580) % 3329, (2121 + 3329 - 300 * 2580 % 3329) % 3329) = (464, 449) ∧
    [0, 64, 128, 192].map (nttElt 3329 6 ((List.range 256).map (fun i =>
      if i = 0 then 2121 else if i = 64 then 300 else if i = 128 then 1218 else if i = 192 then 11 else 0))
      ((List.range 256).map (fun t => if t < 64 then 2580 else 3289))) = [464, 449, 778, 1658] := by
  (repeat' apply And.intro) <;> decide +kernel

/-- A word of each other slot, from the field tables of R211, R213, R218 and R269: ADD X5, X1, X2; VLE V3 from X1; ACQ of core 1; CALL 7. -/
theorem test_slot_words : scalarSlot 35 (BitVec.ofNat 32 (0x01 * 2 ^ 26 + 5 * 2 ^ 21 + 1 * 2 ^ 16 + 2 * 2 ^ 11)) = .row (execMAdd 35 5 1 2) ∧
    memorySlot 35 (BitVec.ofNat 24 (1 * 2 ^ 20 + 3 * 2 ^ 15 + 1 * 2 ^ 10)) = .row (execMVle 35 { vr := 3, xa := 1 }) ∧
    portSlot 35 (BitVec.ofNat 16 (1 * 2 ^ 12 + 1 * 2 ^ 8)) = .row (execMAcq 35 { res := 1 }) ∧
    seqField 35 2 0 7 = .row (execMCall 35 7) := ⟨rfl, rfl, rfl, rfl⟩

/-- Reserved encodings: SOP 0x16, VOP 0 with a field, MOP 9, OP 13, SEQ 9 (R211, R213, R218, R250). -/
theorem test_reserved_words : scalarSlot 35 (BitVec.ofNat 32 (0x16 * 2 ^ 26)) = .bad bResvSop false ∧
    vectorSlot 35 1 = .bad bResvSop true ∧ memorySlot 35 (BitVec.ofNat 24 (9 * 2 ^ 20)) = .bad bResvSop true ∧
    portSlot 35 (BitVec.ofNat 16 (13 * 2 ^ 12)) = .bad bPortOp false ∧ seqField 35 9 0 0 = .badSeq := ⟨rfl, rfl, rfl, rfl, rfl⟩

/-- A patch word issued by a tick: ADD X5, X1, X2 with SEQ, NEXT 7. -/
theorem test_patch_word_issues : (((withLath { lath35 with pc := { patch := true, addr := 5 }, patchRam := [(5,
      BitVec.ofNat 128 ((0x01 * 2 ^ 26 + 5 * 2 ^ 21 + 1 * 2 ^ 16 + 2 * 2 ^ 11) * 2 ^ 72 + 7 * 2 ^ 114))] }).issue 35).lath 35).xr 5 = 63 ∧
    (((withLath { lath35 with pc := { patch := true, addr := 5 }, patchRam := [(5, BitVec.ofNat 128 (7 * 2 ^ 114))] }).issue 35).lath 35).pc =
      { patch := true, addr := 7 } := by
  (repeat' apply And.intro) <;> decide +kernel

end Sys2Proof.Tests
end

/-!
R214, BRANCH. What each condition code names once (`condition_…`, one lemma per group of codes), what the row does with the
condition (`exec_mBranch_of_condition`, `exec_mBranch_of_reserved`), and the obligation assembled from the two.
-/
namespace Sys2Proof.Branch
open Sys2Proof.Machine Sys2Proof.Spec Sys2Proof.Laws

/-! ## The condition that CSEL names -/

/-- MANY ranges over the elements below VL, and over no others. -/
theorem many_eq_decide (e : Lath) : e.many = decide (∃ i < e.r.vl, (e.mr 0).getLsbD i = true) := by
  rw [Bool.eq_iff_iff]
  simp [Lath.many]

section
variable (s : State) (n : Nat)

/-- MANY (CSEL 8). -/
theorem condition_many : s.condition n 8 =
    some (decide (∃ i < (s.lath n).r.vl, ((s.lath n).mr 0).getLsbD i = true)) :=
  congrArg some (many_eq_decide (s.lath n))

/-- MNONE (CSEL 9) is the opposite of MANY. -/
theorem condition_mnone : s.condition n 9 =
    some (decide (¬ ∃ i < (s.lath n).r.vl, ((s.lath n).mr 0).getLsbD i = true)) := by
  rw [decide_not, ← many_eq_decide]
  rfl

/-- DMA_DONE (CSEL 11): no DIN or DOUT of the job is outstanding. -/
theorem condition_dmaDone : s.condition n 11 = some (decide ((s.lath n).dma = [])) := by
  have h : (s.lath n).dma.isEmpty = decide ((s.lath n).dma = []) := by
    rw [Bool.eq_iff_iff, List.isEmpty_iff, decide_eq_true_iff]
  exact congrArg some h

/-- MG_OK (CSEL 12): the mask generator of the engine's Quad is in state OK. -/
theorem condition_maskGenOk : s.condition n 12 = some (decide ((s.gen (maskGenOf n)).st = .ok)) := by
  have h : ((s.gen (maskGenOf n)).st == .ok) = decide ((s.gen (maskGenOf n)).st = .ok) := by
    rw [Bool.eq_iff_iff, beq_iff_eq, decide_eq_true_iff]
  exact congrArg some h

/-- Past the named codes: reserved below 32, then bit 0 of a register. -/
theorem condition_of_le {k : Nat} (h : 14 ≤ k) :
    s.condition n k = if k < 32 then none else some (((s.lath n).xr (k - 32)).getLsbD 0) := by
  obtain ⟨m, rfl⟩ := Nat.exists_eq_add_of_le' h
  rfl

theorem condition_reserved {k : Nat} (h : 14 ≤ k) (h' : k ≤ 31) : s.condition n k = none := by
  rw [condition_of_le s n h, if_pos (by omega)]

/-- XB0-XB31 (CSEL 32-63). -/
theorem condition_register (r : Nat) : s.condition n (32 + r) = some (((s.lath n).xr r).getLsbD 0) := by
  rw [condition_of_le s n (by omega), if_neg (by omega), Nat.add_sub_cancel_left]

end

/-! ## The row -/

section
variable {s : State} {n : Nat} {j : Job} (r : Issues s n j) (c : (s.lath n).stage.conflict = false)
  (g : ((committed s n false).lath n).gap < 4096) {csel : BitVec 6} {next : BitVec 14}
include r c g

/-- Bit 0 of the next address is the condition, taken in the state that the microword's other slots leave. -/
theorem exec_mBranch_of_condition {b : Bool} (h : (committed s n false).condition n csel.toNat = some b) :
    exec (.mBranch n csel next) s = .next ((committed s n false).goto n
      (((committed s n false).lath n).here (if b then setBit next 0 else clrBit next 0))) := by
  change execMBranch n csel next s = _
  unfold execMBranch
  rw [seqRow_ok s n j false _ r c g, h]

theorem exec_mBranch_of_reserved (h : (committed s n false).condition n csel.toNat = none) :
    exec (.mBranch n csel next) s = .next ((committed s n false).engCause n bResvCond) := by
  change execMBranch n csel next s = _
  unfold execMBranch
  rw [seqRow_ok s n j false _ r c g, h]

end

/-- Settles O60: each clause is the row's lemma at the condition that its code names. -/
theorem branchConditions : Obligations.BranchConditions := by
  unfold Obligations.BranchConditions
  rintro s _ n j _ next r c rfl rfl g _ rfl
  have taken {csel : BitVec 6} {b : Bool} (h : (committed s n false).condition n csel.toNat = some b) :=
    exec_mBranch_of_condition r c g (next := next) h
  refine ⟨taken rfl, taken rfl, taken rfl, taken rfl, taken rfl, taken rfl, taken rfl, taken rfl,
    taken (condition_many _ n), taken (condition_mnone _ n), taken rfl, taken (condition_dmaDone _ n),
    taken (condition_maskGenOk _ n), taken rfl, fun csel h h' => ?reserved, fun k => taken ?register⟩
  case reserved => exact exec_mBranch_of_reserved r c g (condition_reserved _ n h h')
  case register =>
    have hk : (BitVec.ofNat 6 (32 + k.toNat)).toNat = 32 + k.toNat := by
      rw [BitVec.toNat_ofNat, Nat.mod_eq_of_lt (by omega)]
    rw [hk]
    exact condition_register _ n k.toNat

end Sys2Proof.Branch

/-!
R257 and R278. `vecRow_reserved` is the other side of `vecRow_ok`. The base-case product pair by pair (`baseMul_even`,
`baseMul_odd`), what the rows of the fault record stage (`exec_mVfclr_ok`, `exec_mVfrd_ok`) and what the end of the
microword makes of it (`vfault_commit_stage`, `vstart_commit_stage`), and the two obligations assembled from them.
-/
namespace Sys2Proof.LathVectors
open Sys2Proof.Machine Sys2Proof.Spec Sys2Proof.Laws

/-! ## Shared by the vector rows -/

/-- A vector microword whose encoding is reserved latches RESV_SOP (R250). -/
theorem vecRow_reserved {s : State} {n : Nat} {j : Job} {reads : List Nat} {ok : Lath → Bool} (f : Lath → State)
    (r : Ready s n j reads) (bad : ok (s.lath n) = false) : vecRow n reads ok s f = .next (s.engCause n bResvSop) := by
  obtain ⟨issues, idle, clear⟩ := r
  unfold vecRow vecRowJ
  rw [slotRow_ok s n j _ issues, idle, clear, bad]
  rfl

theorem elt_map_range (f : Nat → W32) {k i : Nat} (h : i < k) : elt ((List.range k).map f) i = f i := by
  unfold elt
  rw [List.getD_eq_getElem?_getD, List.getElem?_map, List.getElem?_range h]
  rfl

/-! ## The base-case product (R257) -/

/-- A residue of the ML-KEM prime fits an element. -/
theorem w32_mod_qKem_toNat (x : Nat) : (w32 (x % qKem)).toNat = x % 3329 := by
  have h : x % 3329 < 3329 := Nat.mod_lt x (by decide)
  exact (BitVec.toNat_ofNat _ _).trans (Nat.mod_eq_of_lt (show x % 3329 < 2 ^ 32 by omega))

section
variable (q a0 a1 b0 b1 g : Nat)

/-- Reducing each operand, and a1·b1 besides, changes no residue of the constant coefficient. -/
theorem baseCase_even_mod :
    (a0 % q * (b0 % q) + a1 % q * (b1 % q) % q * (g % q)) % q = (a0 * b0 + a1 * b1 * (g % q)) % q := by
  rw [← Nat.mul_mod a1 b1 q, Nat.add_mod, ← Nat.mul_mod a0 b0 q, ← Nat.mul_mod (a1 * b1) g q, ← Nat.add_mod,
    Nat.add_mod (a0 * b0) (a1 * b1 * (g % q)), Nat.mul_mod_mod, ← Nat.add_mod]

/-- Reducing each operand changes no residue of the linear coefficient. -/
theorem baseCase_odd_mod : (a0 % q * (b1 % q) + a1 % q * (b0 % q)) % q = (a0 * b1 + a1 * b0) % q := by
  rw [Nat.add_mod, ← Nat.mul_mod a0 b1 q, ← Nat.mul_mod a1 b0 q, ← Nat.add_mod]

end

section
variable (x y : List W32) {i : Nat} (h : i < 128)
include h

/-- The constant coefficient of the product of pair `i`. The model reduces each operand first, which the residue does not show. -/
theorem baseMul_even : (elt (baseMul x y) (2 * i)).toNat =
    ((elt x (2 * i)).toNat * (elt y (2 * i)).toNat +
      (elt x (2 * i + 1)).toNat * (elt y (2 * i + 1)).toNat * (17 ^ (2 * bitRev 7 i + 1) % 3329)) % 3329 := by
  unfold baseMul
  rw [elt_map_range _ (by omega), if_pos (by omega), w32_mod_qKem_toNat, show 2 * i / 2 = i by omega]
  exact baseCase_even_mod _ _ _ _ _ _

/-- The linear coefficient of the product of pair `i`. -/
theorem baseMul_odd : (elt (baseMul x y) (2 * i + 1)).toNat =
    ((elt x (2 * i)).toNat * (elt y (2 * i + 1)).toNat + (elt x (2 * i + 1)).toNat * (elt y (2 * i)).toNat) % 3329 := by
  unfold baseMul
  rw [elt_map_range _ (by omega), if_neg (by omega), w32_mod_qKem_toNat, show (2 * i + 1) / 2 = i by omega]
  exact baseCase_odd_mod _ _ _ _ _

end

/-- Settles O58: the row stages `baseMul`, whose pairs `baseMul_even` and `baseMul_odd` give. -/
theorem baseCaseProducts : Obligations.BaseCaseProducts := by
  unfold Obligations.BaseCaseProducts
  rintro s n j v _ r rfl u ew msk vl vstart
  have long := long_ok v false u ew (.inr msk)
  have full : (s.lath n).fullVec = true := by simp [Lath.fullVec, vl, vstart]
  change (_ → ∃ l : List W32, _ ∧ execMVbmul n v s = _ ∧ _) ∧ (_ → execMVbmul n v s = _)
  unfold execMVbmul
  refine ⟨fun fn => ⟨baseMul ((s.lath n).vr v.a) ((s.lath n).vr v.b), ?length, ?staged, ?pairs⟩, fun fn => ?reserved⟩
  case length => simp [baseMul]
  case staged => exact vecRow_ok s n j _ _ _ r (by simp [fn, long, full])
  case pairs =>
    rintro i hi _ _ _ _ _ rfl rfl rfl rfl rfl
    exact ⟨baseMul_even _ _ hi, baseMul_odd _ _ hi⟩
  case reserved => exact vecRow_reserved _ r (by simp only [beq_false_of_ne fn, Bool.false_and])

/-! ## The fault record (R278) -/

theorem ew_of_long {v : VSlot} {b : Bool} (h : v.long b = true) : v.ew = 2 := by
  simp only [VSlot.long, Bool.and_eq_true, beq_iff_eq] at h
  exact h.1.2

section
variable {s : State} {n : Nat} {j : Job} (r : Issues s n j) {v : VSlot}
include r

theorem exec_mVfclr_ok (ok : v.long false = true) (fn : v.fnIn 1 = true) (vs1 : v.vs1 = 0) (vs2 : v.vs2 = 0) (vd : v.vd = 0) :
    exec (.mVfclr n v) s =
      .next (s.stage n (fun t => { t with vfClr := true, vsClr := t.vsClr || v.fn.getLsbD 0 })) := by
  change execMVfclr n v s = _
  unfold execMVfclr
  rw [slotRow_ok s n j _ r, if_pos (by simp [ok, fn, vs1, vs2, vd])]

theorem exec_mVfclr_reserved (bad : v.ew ≠ 2 ∨ v.vs1 ≠ 0 ∨ v.vs2 ≠ 0 ∨ v.vd ≠ 0) :
    exec (.mVfclr n v) s = .next (s.engCause n bResvSop) := by
  change execMVfclr n v s = _
  unfold execMVfclr
  rw [slotRow_ok s n j _ r, if_neg]
  simp only [Bool.and_eq_true, beq_iff_eq]
  rintro ⟨⟨⟨⟨long, _⟩, vs1⟩, vs2⟩, vd⟩
  rcases bad with h | h | h | h
  · exact h (ew_of_long long)
  · exact h vs1
  · exact h vs2
  · exact h vd

theorem exec_mVfrd_ok (ok : v.long false = true) (fn : v.fn = 0) (vs1 : v.vs1 = 0) (vs2 : v.vs2 = 0) :
    exec (.mVfrd n v) s = .next (s.stageX n v.d (s.lath n).vfault.word) := by
  change execMVfrd n v s = _
  unfold execMVfrd
  rw [slotRow_ok s n j _ r, if_pos (by simp [ok, fn, vs1, vs2])]

theorem exec_mVfrd_reserved (bad : v.ew ≠ 2 ∨ v.vs1 ≠ 0 ∨ v.vs2 ≠ 0) :
    exec (.mVfrd n v) s = .next (s.engCause n bResvSop) := by
  change execMVfrd n v s = _
  unfold execMVfrd
  rw [slotRow_ok s n j _ r, if_neg]
  simp only [Bool.and_eq_true, beq_iff_eq]
  rintro ⟨⟨⟨long, _⟩, vs1⟩, vs2⟩
  rcases bad with h | h | h
  · exact h (ew_of_long long)
  · exact h vs1
  · exact h vs2

end

section
variable (s : State) (n : Nat) (g : Stage → Stage)

/-- The engine after a microword that stages `g` last. -/
theorem lath_commit_stage : ((s.stage n g).updLath n Lath.commit).lath n =
    Lath.commit { s.lath n with stage := g (s.lath n).stage } := by
  rw [State.lath_updLath_self, State.stage, State.lath_updLath_self]

variable (f : (g (s.lath n).stage).fault = none)
include f

theorem vfault_commit_stage (c : (g (s.lath n).stage).vfClr = true) :
    (((s.stage n g).updLath n Lath.commit).lath n).vfault = {} := by
  rw [lath_commit_stage, Lath.commit]
  simp only [f, c, if_true]

/-- VSTART at the end of a microword without a fault and without an MTS to it (R282). -/
theorem vstart_commit_stage (m : (g (s.lath n).stage).vsMts = none) :
    (((s.stage n g).updLath n Lath.commit).lath n).r.vstart =
      if (g (s.lath n).stage).vsClr || (g (s.lath n).stage).vsElem then 0 else (s.lath n).r.vstart := by
  rw [lath_commit_stage, Lath.commit]
  simp only [Stage.vstart, f, m]

end

/-- `vfrd` into a register other than X0 stands there at the end of the microword. -/
theorem xr_commit_stageX (s : State) (n : Nat) {d : Nat} (w : W64) (hd : d ≠ 0) (hx : (s.lath n).stage.x = []) :
    (((s.stageX n d w).updLath n Lath.commit).lath n).xr d = w := by
  rw [State.stageX, if_neg hd, lath_commit_stage]
  exact commit_x1 _ d w hd (by simp [hx])

/-- Settles O57: what each row stages, and what its microword's end makes of it. -/
theorem faultRecordIsReadAndCleared : Obligations.FaultRecordIsReadAndCleared := by
  unfold Obligations.FaultRecordIsReadAndCleared
  rintro s n j v _ r rfl u msk
  refine ⟨fun ew vs1 vs2 => ⟨fun vd fn fault => ?clear, fun fn hd hx => ?read⟩, fun bad => ⟨?clearReserved, ?readReserved⟩, fun vd => ?clearVd⟩
  case clear =>
    refine ⟨_, exec_mVfclr_ok r (long_ok v false u ew (.inr msk)) fn vs1 vs2 vd, ?_⟩
    refine ⟨vfault_commit_stage s n _ (by exact fault) rfl, fun one mts => ?_, fun zero mts clr elem => ?_⟩
    · simp [vstart_commit_stage, fault, mts, one]
    · simp [vstart_commit_stage, fault, mts, zero, clr, elem]
  case read => exact ⟨_, exec_mVfrd_ok r (long_ok v false u ew (.inr msk)) fn vs1 vs2, xr_commit_stageX s n _ hd hx⟩
  case clearReserved => exact exec_mVfclr_reserved r (bad.imp_right (Or.imp_right Or.inl))
  case readReserved => exact exec_mVfrd_reserved r bad
  case clearVd => exact exec_mVfclr_reserved r (.inr (.inr (.inr vd)))

end Sys2Proof.LathVectors

/-!
R542, scr.status: what each bit of the cause summary says, how the three results are packed, and the obligation.
-/
namespace Sys2Proof.ScrimStatus
open Sys2Proof.Machine Sys2Proof.Spec Sys2Proof.Laws

/-- The summary has one bit for each of the 24 cause groups, set while a cause of the group is latched. -/
theorem testBit_causeSummary (x : State) (g : Nat) :
    x.causeSummary.testBit g = (decide (g < 24) && decide (x.cause g ≠ 0)) := by
  have latched : (x.cause g != 0) = decide (x.cause g ≠ 0) := by
    rw [Bool.eq_iff_iff, bne_iff_ne, decide_eq_true_iff]
  rw [State.causeSummary, (bitmap_range (fun g => x.cause g != 0) 24).2 g, latched]

/-- Fields of the sizes u32, u16 and u16 in this order are aligned as they stand (R126, R137): no padding. -/
theorem pack_u32_u16_u16 (a b c : Nat) :
    pack [.u 4 a, .u 2 b, .u 2 c] = leBytes 4 a ++ leBytes 2 b ++ leBytes 2 c := rfl

/-- What the row answers to a frame that runs: its state is the one in which the command started. -/
theorem exec_scrStatus_ok {s : State} {h : Hdr} (r : Runs s h { smb := true, basic := true }) :
    exec (.scrStatus h) s = answered h (running s h) (running s h)
      (leBytes 4 (running s h).causeSummary ++ leBytes 2 (running s h).scr.total.toNat ++
        leBytes 2 (running s h).scr.evq.length) := by
  change execScrStatus h s = _
  rw [execScrStatus, run_ok s h _ _ r, pack_u32_u16_u16]
  rfl

/-- Settles O59: the summary of the causes is the number whose bits R542 names. -/
theorem scrimStatusAnswers : Obligations.ScrimStatusAnswers := by
  unfold Obligations.ScrimStatusAnswers
  rintro s _ h rfl r
  exact ⟨_, testBit_causeSummary (running s h), exec_scrStatus_ok r⟩

end Sys2Proof.ScrimStatus

/-!
What every command keeps, in one table over the rows of the dispatch: the queue, the 25 MHz time and the programmed bits of the
life-cycle words. Each arm cites the row's own lemma of Laws/ (the row leaves the words alone, or only programs them). The two
statements about all commands, and the ones about the step itself, are read off the table.
-/
namespace Sys2Proof.EveryCommand
open Sys2Proof.Machine Sys2Proof.Spec

/-- From `s` to `t` the queue and the 25 MHz time stay, and programming has only set bits of the life-cycle words (R472). -/
structure Keeps (s t : State) : Prop where
  pending : t.pending = s.pending
  clk : t.clk = s.clk
  lcw : LcwGrows s.otp.lcw t.otp.lcw

/-- A row that programs no life-cycle word. -/
theorem Keeps.of_frame {s t : State} (h : t.pending = s.pending ∧ t.clk = s.clk ∧ t.otp.lcw = s.otp.lcw) : Keeps s t :=
  ⟨h.1, h.2.1, .of_eq h.2.2⟩

/-- A row that may program life-cycle words. -/
theorem Keeps.of_grows {s t : State} (h : t.pending = s.pending ∧ t.clk = s.clk) (g : LcwGrows s.otp.lcw t.otp.lcw) :
    Keeps s t :=
  ⟨h.1, h.2, g⟩

/-- Every row of the dispatch, cited once. -/
theorem exec_keeps (c : Instr) {s t : State} (h : exec c s = .next t) : Keeps s t := by
  cases c with
  -- Arong commands (R137)
  | devInfo => exact .of_frame (execDevInfo_frame _ _ h)
  | devStatus => exact .of_frame (execDevStatus_frame _ _ h)
  | devExpert => exact .of_frame (execDevExpert_frame _ _ _ h)
  | devLog => exact .of_frame (execDevLog_frame _ _ _ _ h)
  | fnInfo => exact .of_frame (execFnInfo_frame _ _ _ h)
  | fnQuota => exact .of_frame (execFnQuota_frame _ _ _ _ _ h)
  | fnPerm => exact .of_frame (execFnPerm_frame _ _ _ _ h)
  | queAssign => exact .of_frame (execQueAssign_frame _ _ _ _ _ _ h)
  | queRelease => exact .of_frame (execQueRelease_frame _ _ _ h)
  | queClass => exact .of_frame (execQueClass_frame _ _ _ _ _ _ h)
  | queInfo => exact .of_frame (execQueInfo_frame _ _ _ h)
  | queMove => exact .of_frame (execQueMove_frame _ _ _ _ h)
  | txnBegin => exact .of_frame (execTxnBegin_frame _ _ _ h)
  | txnCommit => exact .of_frame (execTxnCommit_frame _ _ h)
  | txnRollback => exact .of_frame (execTxnRollback_frame _ _ h)
  | txnStatus => exact .of_frame (execTxnStatus_frame _ _ h)
  | portMode => exact .of_frame (execPortMode_frame _ _ _ _ _ h)
  | portEnable => exact .of_frame (execPortEnable_frame _ _ _ h)
  | portDisable => exact .of_frame (execPortDisable_frame _ _ _ h)
  | portStatus => exact .of_frame (execPortStatus_frame _ _ _ h)
  | portRecal => exact .of_frame (execPortRecal_frame _ _ _ _ _ h)
  | saCreate => exact .of_frame (execSaCreate_frame _ _ _ _ _ _ _ h)
  | saStage => exact .of_frame (execSaStage_frame _ _ _ _ _ _ _ _ _ h)
  | saCommit => exact .of_frame (execSaCommit_frame _ _ _ _ h)
  | saDelete => exact .of_frame (execSaDelete_frame _ _ _ _ h)
  | saTimers => exact .of_frame (execSaTimers_frame _ _ _ _ _ h)
  | saStatus => exact .of_frame (execSaStatus_frame _ _ _ _ h)
  | keyInfo => exact .of_frame (execKeyInfo_frame _ _ _ h)
  | keyFree => exact .of_grows (execKeyFree_frame _ _ _ h) (execKeyFree_grows _ _ _ h)
  | keyImport => exact .of_frame (execKeyImport_frame _ _ _ _ _ _ h)
  | keyUpdate => exact .of_grows (execKeyUpdate_frame _ _ _ h) (execKeyUpdate_grows _ _ _ h)
  | keyAttest => exact .of_frame (execKeyAttest_frame _ _ _ h)
  | keyList => exact .of_frame (execKeyList_frame _ _ _ _ h)
  | fltBudget => exact .of_frame (execFltBudget_frame _ _ _ _ _ h)
  | fltStatus => exact .of_frame (execFltStatus_frame _ _ h)
  | pwrTelemetry => exact .of_frame (execPwrTelemetry_frame _ _ _ h)
  | pwrState => exact .of_frame (execPwrState_frame _ _ _ _ _ h)
  | pwrWake => exact .of_frame (execPwrWake_frame _ _ _ h)
  | grtStatus => exact .of_frame (execGrtStatus_frame _ _ h)
  | grtKat => exact .of_frame (execGrtKat_frame _ _ _ _ h)
  | scrStatus => exact .of_frame (execScrStatus_frame _ _ h)
  | scrClear => exact .of_frame (execScrClear_frame _ _ _ h)
  | scrConfig => exact .of_frame (execScrConfig_frame _ _ _ _ _ _ h)
  | tmpStatusCmd => exact .of_frame (execTmpStatusCmd_frame _ _ h)
  | tmpClear => exact .of_frame (execTmpClear_frame _ _ _ _ h)
  | tmpTest => exact .of_frame (execTmpTest_frame _ _ _ _ _ h)
  | lcyStatusCmd => exact .of_frame (execLcyStatusCmd_frame _ _ h)
  | lcyAdvance => exact .of_grows (execLcyAdvance_frame _ _ _ _ _ h) (execLcyAdvance_grows _ _ _ _ _ h)
  | lcyDebug => exact .of_frame (execLcyDebug_frame _ _ _ h)
  | fwInfo => exact .of_frame (execFwInfo_frame _ _ h)
  | fwStage => exact .of_frame (execFwStage_frame _ _ _ _ _ h)
  | fwActivate => exact .of_frame (execFwActivate_frame _ _ _ h)
  | fwPutty => exact .of_frame (execFwPutty_frame _ _ _ h)
  | fwRecover => exact .of_frame (execFwRecover_frame _ _ _ _ h)
  | engStatus => exact .of_frame (execEngStatus_frame _ _ _ _ h)
  | engRetire => exact .of_frame (execEngRetire_frame _ _ _ _ h)
  | engKat => exact .of_frame (execEngKat_frame _ _ _ _ h)
  | engMargin => exact .of_frame (execEngMargin_frame _ _ h)
  | hashExport => exact .of_frame (execHashExport_frame _ _ _ _ h)
  | ctxFree => exact .of_frame (execCtxFree_frame _ _ _ h)
  | opFamily => exact .of_frame (execOpFamily_frame _ _ _ _ _ _ h)
  -- Mailbox and SMBus events
  | cmdTimeLimit => exact .of_grows (execCmdTimeLimit_frame _ _ h) (execCmdTimeLimit_grows _ _ h)
  | mbxDoneClear => exact .of_frame (execMbxDoneClear_frame _ _ h)
  | vmbDoneClear => exact .of_frame (execVmbDoneClear_frame _ _ h)
  | smbusTimeout => exact .of_frame (execSmbusTimeout_frame _ h)
  -- PMBus and telemetry (R551, R552)
  | pmbusPage => exact .of_frame (execPmbusPage_frame _ _ h)
  | operation => exact .of_frame (execOperation_frame _ _ h)
  | clearFaults => exact .of_frame (execClearFaults_frame _ _ h)
  | capability => exact .of_frame (execCapability_frame _ _ h)
  | voutMode => exact .of_frame (execVoutMode_frame _ _ h)
  | ioutOcWarnLimit => exact .of_frame (execIoutOcWarnLimit_frame _ _ h)
  | otWarnLimit => exact .of_frame (execOtWarnLimit_frame _ _ h)
  | vinOvWarnLimit => exact .of_frame (execVinOvWarnLimit_frame _ _ h)
  | vinUvWarnLimit => exact .of_frame (execVinUvWarnLimit_frame _ _ h)
  | statusByte => exact .of_frame (execStatusByte_frame _ _ h)
  | statusWord => exact .of_frame (execStatusWord_frame _ _ h)
  | statusVout => exact .of_frame (execStatusVout_frame _ _ h)
  | statusIout => exact .of_frame (execStatusIout_frame _ _ h)
  | statusInput => exact .of_frame (execStatusInput_frame _ _ h)
  | statusTemperature => exact .of_frame (execStatusTemperature_frame _ _ h)
  | statusMfrSpecific => exact .of_frame (execStatusMfrSpecific_frame _ _ h)
  | readVin => exact .of_frame (execReadVin_frame _ _ h)
  | readIin => exact .of_frame (execReadIin_frame _ _ h)
  | readVout => exact .of_frame (execReadVout_frame _ _ h)
  | readIout => exact .of_frame (execReadIout_frame _ _ h)
  | readTemperature1 => exact .of_frame (execReadTemperature1_frame _ _ h)
  | readPout => exact .of_frame (execReadPout_frame _ _ h)
  | readPin => exact .of_frame (execReadPin_frame _ _ h)
  | pmbusRevision => exact .of_frame (execPmbusRevision_frame _ _ h)
  | mfrId => exact .of_frame (execMfrId_frame _ _ h)
  | mfrModel => exact .of_frame (execMfrModel_frame _ _ h)
  | alertResponse => exact .of_frame (execAlertResponse_frame _ h)
  | telemetrySample => exact .of_frame (execTelemetrySample_frame _ _ _ _ _ h)
  -- JTAG (R489)
  | jIdcode => exact .of_frame (execJIdcode_frame _ h)
  | jExtest => exact .of_frame (execJExtest_frame _ h)
  | jSamplePreload => exact .of_frame (execJSamplePreload_frame _ _ h)
  | jClamp => exact .of_frame (execJClamp_frame _ h)
  | jHighz => exact .of_frame (execJHighz_frame _ h)
  | jDbgHalt => exact .of_frame (execJDbgHalt_frame _ h)
  | jDbgDiag => exact .of_frame (execJDbgDiag_frame _ h)
  | jDbgTrace => exact .of_frame (execJDbgTrace_frame _ h)
  | jDbgSerdes => exact .of_frame (execJDbgSerdes_frame _ h)
  | jDbgLstep => exact .of_frame (execJDbgLstep_frame _ h)
  | jDbgMram => exact .of_frame (execJDbgMram_frame _ h)
  | jDbgScan => exact .of_frame (execJDbgScan_frame _ h)
  | jBypass => exact .of_frame (execJBypass_frame _ h)
  -- Host writes, and reads with side effects
  | regWrite => exact .of_frame (execRegWrite_frame _ _ h)
  | unmappedRead => exact .of_frame (execUnmappedRead_frame _ _ h)
  | expertWindowRead => exact .of_frame (execExpertWindowRead_frame _ _ _ h)
  | reg64LowRead => exact .of_frame (execReg64LowRead_frame _ _ _ h)
  | pcieErrCntRead => exact .of_frame (execPcieErrCntRead_frame _ _ h)
  | queJobsCntRead => exact .of_frame (execQueJobsCntRead_frame _ _ _ h)
  | spgYieldCntRead => exact .of_frame (execSpgYieldCntRead_frame _ h)
  | bndFullCntRead => exact .of_frame (execBndFullCntRead_frame _ h)
  | fltWaitCntRead => exact .of_frame (execFltWaitCntRead_frame _ h)
  | fltLimitCntRead => exact .of_frame (execFltLimitCntRead_frame _ h)
  | rndSaevRead => exact .of_frame (execRndSaevRead_frame _ h)
  | rndSaevStatRead => exact .of_frame (execRndSaevStatRead_frame _ h)
  | evqRecLoRead => exact .of_frame (execEvqRecLoRead_frame _ h)
  | evqRecHiRead => exact .of_frame (execEvqRecHiRead_frame _ h)
  | evqStatusRead => exact .of_frame (execEvqStatusRead_frame _ h)
  -- Queues
  | quePiWrite => exact .of_frame (execQuePiWrite_frame _ _ _ _ h)
  | pushSlotWrite => exact .of_frame (execPushSlotWrite_frame _ _ _ _ _ h)
  | queInvalHold => exact .of_frame (execQueInvalHold_frame _ _ _ _ h)
  | queInvalRelease => exact .of_frame (execQueInvalRelease_frame _ _ _ _ h)
  | queueEnable => exact .of_frame (execQueueEnable_frame _ _ _ _ h)
  | queueDisable => exact .of_frame (execQueueDisable_frame _ _ _ _ h)
  | queueStopped => exact .of_frame (execQueueStopped_frame _ _ h)
  | queModWrite => exact .of_frame (execQueModWrite_frame _ _ _ _ _ h)
  | msixUnmask => exact .of_frame (execMsixUnmask_frame _ _ _ _ h)
  | descriptorFetch => exact .of_frame (execDescriptorFetch_frame _ _ _ h)
  | jobDispatch => exact .of_frame (execJobDispatch_frame _ _ h)
  | jobEnd => exact .of_frame (execJobEnd_frame _ _ h)
  | queModTimer => exact .of_frame (execQueModTimer_frame _ _ h)
  | fence => exact .of_frame (execFence_frame _ _ h)
  | nop => exact .of_frame (execNop_frame _ _ h)
  -- Jobs
  | aeadSeal => exact .of_frame (execAeadSeal_frame _ _ _ h)
  | aeadOpen => exact .of_frame (execAeadOpen_frame _ _ _ h)
  | gmacTag => exact .of_frame (execGmacTag_frame _ _ _ h)
  | gmacCheck => exact .of_frame (execGmacCheck_frame _ _ _ h)
  | kemKeygen => exact .of_frame (execKemKeygen_frame _ _ _ _ h)
  | kemEncaps => exact .of_frame (execKemEncaps_frame _ _ _ h)
  | kemDecaps => exact .of_frame (execKemDecaps_frame _ _ _ h)
  | hybEncaps => exact .of_frame (execHybEncaps_frame _ _ _ h)
  | hybDecaps => exact .of_frame (execHybDecaps_frame _ _ _ h)
  | kemRekey => exact .of_frame (execKemRekey_frame _ _ _ h)
  | hybridLathPart => exact .of_frame (execHybridLathPart_frame _ _ _ _ h)
  | dsaKeygen => exact .of_frame (execDsaKeygen_frame _ _ _ _ h)
  | dsaSign => exact .of_frame (execDsaSign_frame _ _ _ _ h)
  | dsaVerify => exact .of_frame (execDsaVerify_frame _ _ _ h)
  | slhKeygen => exact .of_frame (execSlhKeygen_frame _ _ _ _ h)
  | slhSign => exact .of_frame (execSlhSign_frame _ _ _ _ h)
  | slhVerify => exact .of_frame (execSlhVerify_frame _ _ _ h)
  | lmsKeygen => exact .of_grows (execLmsKeygen_frame _ _ _ _ h) (execLmsKeygen_grows _ _ _ _ h)
  | lmsSign => exact .of_frame (execLmsSign_frame _ _ _ _ h)
  | lmsVerify => exact .of_frame (execLmsVerify_frame _ _ _ h)
  | reservationWriteDone => exact .of_frame (execReservationWriteDone_frame _ _ _ h)
  | lmsRebuildDone => exact .of_frame (execLmsRebuildDone_frame _ _ h)
  | hqcKeygen => exact .of_frame (execHqcKeygen_frame _ _ _ _ h)
  | hqcEncaps => exact .of_frame (execHqcEncaps_frame _ _ _ h)
  | hqcDecaps => exact .of_frame (execHqcDecaps_frame _ _ _ h)
  | mceKeygen => exact .of_frame (execMceKeygen_frame _ _ _ _ h)
  | mceEncaps => exact .of_frame (execMceEncaps_frame _ _ _ h)
  | mceDecaps => exact .of_frame (execMceDecaps_frame _ _ _ h)
  | mceCache => exact .of_frame (execMceCache_frame _ _ _ h)
  | regionAlloc => exact .of_frame (execRegionAlloc_frame _ _ _ h)
  | mceKeyLoaded => exact .of_frame (execMceKeyLoaded_frame _ _ _ h)
  | hashDigest => exact .of_frame (execHashDigest_frame _ _ _ h)
  | hashImport => exact .of_frame (execHashImport_frame _ _ _ h)
  | macHmac => exact .of_frame (execMacHmac_frame _ _ _ h)
  | macKmac => exact .of_frame (execMacKmac_frame _ _ _ h)
  | kdfDerive => exact .of_frame (execKdfDerive_frame _ _ _ h)
  | poolYield => exact .of_frame (execPoolYield_frame _ _ h)
  | poolResume => exact .of_frame (execPoolResume_frame _ _ h)
  | ecKeygen => exact .of_frame (execEcKeygen_frame _ _ _ _ h)
  | ecDh => exact .of_frame (execEcDh_frame _ _ _ _ h)
  | ecSign => exact .of_frame (execEcSign_frame _ _ _ _ h)
  | ecVerify => exact .of_frame (execEcVerify_frame _ _ _ h)
  | rsaSign => exact .of_frame (execRsaSign_frame _ _ _ _ h)
  | rsaVerify => exact .of_frame (execRsaVerify_frame _ _ _ h)
  | rsaEncrypt => exact .of_frame (execRsaEncrypt_frame _ _ _ h)
  | rsaDecrypt => exact .of_frame (execRsaDecrypt_frame _ _ _ _ h)
  | bnModexp => exact .of_frame (execBnModexp_frame _ _ _ h)
  | bnModmul => exact .of_frame (execBnModmul_frame _ _ _ h)
  -- Lath microwords: the sequencing slot (R213)
  | mSeq => exact .of_frame (execMSeq_frame _ _ _ h)
  | mBranch => exact .of_frame (execMBranch_frame _ _ _ _ h)
  | mCall => exact .of_frame (execMCall_frame _ _ _ h)
  | mReturn => exact .of_frame (execMReturn_frame _ _ h)
  | mSafe => exact .of_frame (execMSafe_frame _ _ _ h)
  | mHalt => exact .of_frame (execMHalt_frame _ _ h)
  | mDispatch => exact .of_frame (execMDispatch_frame _ _ _ _ h)
  | mPjump => exact .of_frame (execMPjump_frame _ _ _ h)
  | mRjump => exact .of_frame (execMRjump_frame _ _ _ h)
  -- Lath microwords: the scalar slot (R211)
  | mAdd => exact .of_frame (execMAdd_frame _ _ _ _ _ h)
  | mSub => exact .of_frame (execMSub_frame _ _ _ _ _ h)
  | mAnd => exact .of_frame (execMAnd_frame _ _ _ _ _ h)
  | mOr => exact .of_frame (execMOr_frame _ _ _ _ _ h)
  | mXor => exact .of_frame (execMXor_frame _ _ _ _ _ h)
  | mSll => exact .of_frame (execMSll_frame _ _ _ _ _ h)
  | mSrl => exact .of_frame (execMSrl_frame _ _ _ _ _ h)
  | mSra => exact .of_frame (execMSra_frame _ _ _ _ _ h)
  | mMul => exact .of_frame (execMMul_frame _ _ _ _ _ h)
  | mMulhu => exact .of_frame (execMMulhu_frame _ _ _ _ _ h)
  | mAddi => exact .of_frame (execMAddi_frame _ _ _ _ _ h)
  | mAndi => exact .of_frame (execMAndi_frame _ _ _ _ _ h)
  | mOri => exact .of_frame (execMOri_frame _ _ _ _ _ h)
  | mXori => exact .of_frame (execMXori_frame _ _ _ _ _ h)
  | mShi => exact .of_frame (execMShi_frame _ _ _ _ _ _ h)
  | mLui => exact .of_frame (execMLui_frame _ _ _ _ h)
  | mCmp => exact .of_frame (execMCmp_frame _ _ _ _ h)
  | mCmpi => exact .of_frame (execMCmpi_frame _ _ _ _ h)
  | mMfs => exact .of_frame (execMMfs_frame _ _ _ _ h)
  | mMts => exact .of_frame (execMMts_frame _ _ _ _ h)
  | mSel => exact .of_frame (execMSel_frame _ _ _ _ _ h)
  -- Lath microwords: the vector slot
  | mVadd => exact .of_frame (execMVadd_frame _ _ _ h)
  | mVsub => exact .of_frame (execMVsub_frame _ _ _ h)
  | mVand => exact .of_frame (execMVand_frame _ _ _ h)
  | mVor => exact .of_frame (execMVor_frame _ _ _ h)
  | mVxor => exact .of_frame (execMVxor_frame _ _ _ h)
  | mVsll => exact .of_frame (execMVsll_frame _ _ _ h)
  | mVsrl => exact .of_frame (execMVsrl_frame _ _ _ h)
  | mVsra => exact .of_frame (execMVsra_frame _ _ _ h)
  | mVmul => exact .of_frame (execMVmul_frame _ _ _ h)
  | mVmulhu => exact .of_frame (execMVmulhu_frame _ _ _ h)
  | mVminu => exact .of_frame (execMVminu_frame _ _ _ h)
  | mVmaxu => exact .of_frame (execMVmaxu_frame _ _ _ h)
  | mVmv => exact .of_frame (execMVmv_frame _ _ _ h)
  | mVcmp => exact .of_frame (execMVcmp_frame _ _ _ h)
  | mVclmul => exact .of_frame (execMVclmul_frame _ _ _ h)
  | mVaddq => exact .of_frame (execMVaddq_frame _ _ _ h)
  | mVsubq => exact .of_frame (execMVsubq_frame _ _ _ h)
  | mVmulq => exact .of_frame (execMVmulq_frame _ _ _ h)
  | mVredq => exact .of_frame (execMVredq_frame _ _ _ h)
  | mVntt => exact .of_frame (execMVntt_frame _ _ _ h)
  | mVintt => exact .of_frame (execMVintt_frame _ _ _ h)
  | mVtwid => exact .of_frame (execMVtwid_frame _ _ _ h)
  | mVbmul => exact .of_frame (execMVbmul_frame _ _ _ h)
  | mVcprs => exact .of_frame (execMVcprs_frame _ _ _ h)
  | mVdcprs => exact .of_frame (execMVdcprs_frame _ _ _ h)
  | mVunpk => exact .of_frame (execMVunpk_frame _ _ _ h)
  | mVpack => exact .of_frame (execMVpack_frame _ _ _ h)
  | mVcompress => exact .of_frame (execMVcompress_frame _ _ _ h)
  | mVpopc => exact .of_frame (execMVpopc_frame _ _ _ h)
  | mSetvl => exact .of_frame (execMSetvl_frame _ _ _ h)
  | mVmop => exact .of_frame (execMVmop_frame _ _ _ h)
  | mVmvxv => exact .of_frame (execMVmvxv_frame _ _ _ h)
  | mVmvvx => exact .of_frame (execMVmvvx_frame _ _ _ h)
  | mSmvxs => exact .of_frame (execMSmvxs_frame _ _ _ h)
  | mSmvsx => exact .of_frame (execMSmvsx_frame _ _ _ h)
  | mVslidedn => exact .of_frame (execMVslidedn_frame _ _ _ h)
  | mVslideup => exact .of_frame (execMVslideup_frame _ _ _ h)
  | mVred => exact .of_frame (execMVred_frame _ _ _ h)
  | mVperm => exact .of_frame (execMVperm_frame _ _ _ h)
  | mVbsll => exact .of_frame (execMVbsll_frame _ _ _ h)
  | mVbsrl => exact .of_frame (execMVbsrl_frame _ _ _ h)
  | mVbrot => exact .of_frame (execMVbrot_frame _ _ _ h)
  | mVbpopc => exact .of_frame (execMVbpopc_frame _ _ _ h)
  | mVbtrn => exact .of_frame (execMVbtrn_frame _ _ _ h)
  | mVgfmul => exact .of_frame (execMVgfmul_frame _ _ _ h)
  | mVfclr => exact .of_frame (execMVfclr_frame _ _ _ h)
  | mVfrd => exact .of_frame (execMVfrd_frame _ _ _ h)
  | mVaddqS => exact .of_frame (execMVaddqS_frame _ _ _ h)
  | mVsubqS => exact .of_frame (execMVsubqS_frame _ _ _ h)
  | mVmulqS => exact .of_frame (execMVmulqS_frame _ _ _ h)
  | mVnttS => exact .of_frame (execMVnttS_frame _ _ _ h)
  | mVinttS => exact .of_frame (execMVinttS_frame _ _ _ h)
  | mVbmulS => exact .of_frame (execMVbmulS_frame _ _ _ h)
  | mVxorS => exact .of_frame (execMVxorS_frame _ _ _ h)
  | mVandS => exact .of_frame (execMVandS_frame _ _ _ h)
  | mVshS => exact .of_frame (execMVshS_frame _ _ _ h)
  | mVrefS => exact .of_frame (execMVrefS_frame _ _ _ h)
  | mVa2bS => exact .of_frame (execMVa2bS_frame _ _ _ h)
  | mVb2aS => exact .of_frame (execMVb2aS_frame _ _ _ h)
  | mVcprsS => exact .of_frame (execMVcprsS_frame _ _ _ h)
  | mVmeqzS => exact .of_frame (execMVmeqzS_frame _ _ _ h)
  | mVrecomb => exact .of_frame (execMVrecomb_frame _ _ _ h)
  | mVsplit => exact .of_frame (execMVsplit_frame _ _ _ h)
  -- Lath microwords: the memory slot (R269)
  | mVle => exact .of_frame (execMVle_frame _ _ _ h)
  | mVse => exact .of_frame (execMVse_frame _ _ _ h)
  | mVlse => exact .of_frame (execMVlse_frame _ _ _ h)
  | mVsse => exact .of_frame (execMVsse_frame _ _ _ h)
  | mVlux => exact .of_frame (execMVlux_frame _ _ _ h)
  | mVsux => exact .of_frame (execMVsux_frame _ _ _ h)
  | mVlseg => exact .of_frame (execMVlseg_frame _ _ _ h)
  | mVsseg => exact .of_frame (execMVsseg_frame _ _ _ h)
  | mSld => exact .of_frame (execMSld_frame _ _ _ h)
  | mSst => exact .of_frame (execMSst_frame _ _ _ h)
  | mXld => exact .of_frame (execMXld_frame _ _ _ h)
  | mXst => exact .of_frame (execMXst_frame _ _ _ h)
  -- Lath microwords: the Sponge and port slot (R218)
  | mAcq => exact .of_frame (execMAcq_frame _ _ _ h)
  | mRel => exact .of_frame (execMRel_frame _ _ _ h)
  | mLock => exact .of_frame (execMLock_frame _ _ _ h)
  | mUnlock => exact .of_frame (execMUnlock_frame _ _ _ h)
  | mSinit => exact .of_frame (execMSinit_frame _ _ _ h)
  | mSabs => exact .of_frame (execMSabs_frame _ _ _ h)
  | mSsqz => exact .of_frame (execMSsqz_frame _ _ _ h)
  | mMget => exact .of_frame (execMMget_frame _ _ _ h)
  | mBload => exact .of_frame (execMBload_frame _ _ _ h)
  | mBstor => exact .of_frame (execMBstor_frame _ _ _ h)
  | mDin => exact .of_frame (execMDin_frame _ _ _ _ h)
  | mDout => exact .of_frame (execMDout_frame _ _ _ _ h)
  -- Lath and engine events
  | spongeOpDone => exact .of_frame (execSpongeOpDone_frame _ _ h)
  | dmaDone => exact .of_frame (execDmaDone_frame _ _ _ h)
  | arbRound => exact .of_frame (execArbRound_frame _ _ _ _ _ h)
  | lockOver => exact .of_frame (execLockOver_frame _ _ _ h)
  | safeMiss => exact .of_frame (execSafeMiss_frame _ _ h)
  | preemptRequest => exact .of_frame (execPreemptRequest_frame _ _ h)
  | jobResume => exact .of_frame (execJobResume_frame _ _ h)
  | engineWipeDone => exact .of_frame (execEngineWipeDone_frame _ _ _ h)
  -- Frames and ports
  | hostFrameRx => exact .of_frame (execHostFrameRx_frame _ _ _ _ _ _ h)
  | lineFrameRx => exact .of_frame (execLineFrameRx_frame _ _ _ _ _ _ h)
  | pauseRefresh => exact .of_frame (execPauseRefresh_frame _ _ _ h)
  | renderFrameDone => exact .of_frame (execRenderFrameDone_frame _ _ h)
  | commitEpoch => exact .of_frame (execCommitEpoch_frame _ h)
  | overlapTimer => exact .of_frame (execOverlapTimer_frame _ _ _ h)
  | drainTimer => exact .of_frame (execDrainTimer_frame _ _ _ _ h)
  | txnTimeout => exact .of_frame (execTxnTimeout_frame _ h)
  | portUp => exact .of_frame (execPortUp_frame _ _ _ h)
  | portLockLoss => exact .of_frame (execPortLockLoss_frame _ _ _ _ h)
  | remoteFault => exact .of_frame (execRemoteFault_frame _ _ _ h)
  | renderTakeover => exact .of_frame (execRenderTakeover_frame _ _ h)
  | maskFeedStall => exact .of_frame (execMaskFeedStall_frame _ _ _ h)
  -- Functions and the link
  | vfEnable => exact .of_frame (execVfEnable_frame _ h)
  | vfReady => exact .of_frame (execVfReady_frame _ _ h)
  | vfDisable => exact .of_frame (execVfDisable_frame _ h)
  | flr => exact .of_frame (execFlr_frame _ _ h)
  | flrComplete => exact .of_frame (execFlrComplete_frame _ _ h)
  | persistRestore => exact .of_frame (execPersistRestore_frame _ h)
  | busMasterEnable => exact .of_frame (execBusMasterEnable_frame _ _ h)
  | d3hotEntry => exact .of_frame (execD3hotEntry_frame _ _ h)
  | d3hotExit => exact .of_frame (execD3hotExit_frame _ _ h)
  | linkDown => exact .of_frame (execLinkDown_frame _ h)
  | linkChange => exact .of_frame (execLinkChange_frame _ _ _ _ h)
  | l1Entry => exact .of_frame (execL1Entry_frame _ h)
  | dmaReadError => exact .of_frame (execDmaReadError_frame _ _ _ h)
  -- Float, power and clocks
  | floatGrant => exact .of_frame (execFloatGrant_frame _ h)
  | revokeAck => exact .of_frame (execRevokeAck_frame _ _ h)
  | fltRevokeLate => exact .of_frame (execFltRevokeLate_frame _ _ h)
  | fltLimitAssert => exact .of_frame (execFltLimitAssert_frame _ h)
  | fltLimitDeassert => exact .of_frame (execFltLimitDeassert_frame _ h)
  | fltOverdraw => exact .of_frame (execFltOverdraw_frame _ _ h)
  | tjWarn => exact .of_frame (execTjWarn_frame _ h)
  | tjCrit => exact .of_frame (execTjCrit_frame _ h)
  | phaseFault => exact .of_frame (execPhaseFault_frame _ h)
  | railOor => exact .of_frame (execRailOor_frame _ _ h)
  | vcoreSlewDone => exact .of_frame (execVcoreSlewDone_frame _ h)
  | clockRelock => exact .of_frame (execClockRelock_frame _ _ h)
  | rootUnlock => exact .of_frame (execRootUnlock_frame _ _ h)
  | sdUnlock => exact .of_frame (execSdUnlock_frame _ _ h)
  | pcieRefclkLoss => exact .of_frame (execPcieRefclkLoss_frame _ h)
  -- Starts and power states
  | coldStart => exact .of_grows (execColdStart_frame _ _ h) (execColdStart_grows _ _ h)
  | warmReset => exact .of_grows (execWarmReset_frame _ _ _ _ h) (execWarmReset_grows _ _ _ _ h)
  | vinLoss => exact .of_frame (execVinLoss_frame _ h)
  | vinOvervoltage => exact .of_frame (execVinOvervoltage_frame _ h)
  | vinWarn => exact .of_frame (execVinWarn_frame _ h)
  | powerStepReady => exact .of_grows (execPowerStepReady_frame _ _ h) (execPowerStepReady_grows _ _ h)
  | seqStepTimeout => exact .of_frame (execSeqStepTimeout_frame _ h)
  | startTimeout => exact .of_frame (execStartTimeout_frame _ h)
  | startRetry => exact .of_grows (execStartRetry_frame _ _ h) (execStartRetry_grows _ _ h)
  | lcReset => exact .of_grows (execLcReset_frame _ _ h) (execLcReset_grows _ _ h)
  | fwRecoverReset => exact .of_grows (execFwRecoverReset_frame _ _ h) (execFwRecoverReset_grows _ _ h)
  | idleEntry => exact .of_frame (execIdleEntry_frame _ h)
  | dustJobTimeout => exact .of_frame (execDustJobTimeout_frame _ h)
  | dustSample => exact .of_frame (execDustSample_frame _ _ h)
  | dustWake => exact .of_grows (execDustWake_frame _ _ h) (execDustWake_grows _ _ h)
  | wakeN => exact .of_frame (execWakeN_frame _ h)
  | rtcAlarm => exact .of_frame (execRtcAlarm_frame _ h)
  -- Custody die
  | tamperAlarm => exact .of_frame (execTamperAlarm_frame _ _ _ h)
  | debugExpire => exact .of_frame (execDebugExpire_frame _ h)
  | sourceWindowEnd => exact .of_frame (execSourceWindowEnd_frame _ _ _ h)
  | seedDone => exact .of_frame (execSeedDone_frame _ _ _ h)
  | gritStartTimeout => exact .of_frame (execGritStartTimeout_frame _ h)
  | reseedDue => exact .of_frame (execReseedDue_frame _ _ _ h)
  | reseedComplete => exact .of_frame (execReseedComplete_frame _ _ h)
  | genOverdue => exact .of_frame (execGenOverdue_frame _ _ _ h)
  | rngWaitTimeout => exact .of_frame (execRngWaitTimeout_frame _ _ _ h)
  | refreshSweep => exact .of_frame (execRefreshSweep_frame _ h)
  | slotWipe => exact .of_frame (execSlotWipe_frame _ h)
  | journalCommitDone => exact .of_grows (execJournalCommitDone_frame _ _ h) (execJournalCommitDone_grows _ _ h)
  -- Scrim
  | causeReport => exact .of_frame (execCauseReport_frame _ _ _ _ h)
  | wire => exact .of_frame (execWire_frame _ _ _ _ h)
  | scrCheck => exact .of_frame (execScrCheck_frame _ h)
  | autoExit => exact .of_grows (execAutoExit_frame _ _ _ _ h) (execAutoExit_grows _ _ _ _ h)
  | seamRetransmit => exact .of_frame (execSeamRetransmit_frame _ _ _ h)
  -- Plumb
  | katDone => exact .of_frame (execKatDone_frame _ _ _ h)
  | unitDrained => exact .of_frame (execUnitDrained_frame _ _ h)
  | engKatTimeout => exact .of_frame (execEngKatTimeout_frame _ _ h)
  | dailyCycle => exact .of_frame (execDailyCycle_frame _ h)
  | plbMarginLow => exact .of_frame (execPlbMarginLow_frame _ _ _ _ h)
  | replanRetry => exact .of_frame (execReplanRetry_frame _ h)
  -- Further events
  | mbxDoorbell => exact .of_frame (execMbxDoorbell_frame _ _ _ _ h)
  | vbatLoss => exact .of_frame (execVbatLoss_frame _ h)
  | vbatApplied => exact .of_frame (execVbatApplied_frame _ h)
  | vinRecovery => exact .of_grows (execVinRecovery_frame _ h) (execVinRecovery_grows _ h)
  | thermalCapLift => exact .of_frame (execThermalCapLift_frame _ h)
  | pcieLinkError => exact .of_frame (execPcieLinkError_frame _ _ h)
  | pauseExpiry => exact .of_frame (execPauseExpiry_frame _ _ _ _ h)
  | sequenceRestart => exact .of_grows (execSequenceRestart_frame _ _ h) (execSequenceRestart_grows _ _ h)
  | mramScrub => exact .of_frame (execMramScrub_frame _ _ _ h)
  | drainedMeasurementDone => exact .of_frame (execDrainedMeasurementDone_frame _ _ _ _ h)
  | cycleWaitExpiry => exact .of_frame (execCycleWaitExpiry_frame _ h)

/-- The words that grow hold every bit that they held. -/
theorem holdsBits_of_grows {bits a b : List W64} (g : LcwGrows a b) (h : HoldsBits bits a) : HoldsBits bits b := by
  obtain ⟨length, grown⟩ := g
  obtain ⟨eight, held⟩ := h
  refine ⟨length.trans eight, fun i => ?_⟩
  rw [← grown i, ← BitVec.or_assoc, held i]

/-- Settles O3: the table, at its first two parts. -/
theorem commandsLeaveQueueAndTime : Obligations.CommandsLeaveQueueAndTime := by
  unfold Obligations.CommandsLeaveQueueAndTime
  intro c s t h
  exact ⟨(exec_keeps c h).pending, (exec_keeps c h).clk⟩

/-! ## A step -/

/-- A step with commands waiting (log entry 12). -/
theorem step_cons {s : State} {c : Instr} {rest : List Instr} (h : s.pending = c :: rest) :
    step s = exec c { s with pending := rest } := by
  unfold step
  rw [h]

/-- A step with none (log entry 1). -/
theorem step_nil {s : State} (h : s.pending = []) : step s = .next s.tick := by
  unfold step
  rw [h]

/-- A step of the block only programs life-cycle words. -/
theorem step_grows {s t : State} (h : step s = .next t) : LcwGrows s.otp.lcw t.otp.lcw := by
  cases p : s.pending with
  | nil =>
    rw [step_nil p, Host.Outcome.next.injEq] at h
    exact .of_eq (h ▸ s.tick_frame.2)
  | cons c rest =>
    rw [step_cons p] at h
    exact (exec_keeps c h).lcw

/-- Settles O4: a step keeps what the words hold. -/
theorem lifeCycleBitsStay : Obligations.LifeCycleBitsStay := by
  unfold Obligations.LifeCycleBitsStay
  intro bits s t held h
  exact holdsBits_of_grows (step_grows h) held

/-- Settles O5. -/
theorem lifeCycleBitsAtReset : Obligations.LifeCycleBitsAtReset := by
  unfold Obligations.LifeCycleBitsAtReset
  have blank : State.reset.otp.lcw = List.replicate 8 0 := rfl
  refine ⟨⟨by rw [blank, List.length_replicate], fun i => ?_⟩, blank⟩
  rw [List.getD_nil]
  exact BitVec.zero_or

/-- Settles O1. -/
theorem stepRunsFrontCommand : Obligations.StepRunsFrontCommand := by
  unfold Obligations.StepRunsFrontCommand
  intro s c rest
  exact step_cons

/-! ## A tick -/

/-- An engine without a job issues nothing. -/
theorem issue_of_idle {s : State} {n : Nat} (h : s.jobOn .lath n = none) : s.issue n = s := by
  unfold State.issue
  rw [h]

theorem issueAll_of_idle {s : State} (l : List Nat) (h : ∀ n ∈ l, s.jobOn .lath n = none) : issueAll l s = s := by
  induction l with
  | nil => rfl
  | cons n t ih =>
    rw [issueAll, issue_of_idle (h n List.mem_cons_self)]
    exact ih fun m hm => h m (List.mem_cons_of_mem n hm)

/-- With the die out of reset a tick is one of the 25 MHz time, whatever the engines do. -/
theorem tick_clk_of_on {s : State} (on : s.computeOn = true) : s.tick.clk = s.clk + 1 := by
  unfold State.tick
  rw [if_pos on]
  dsimp only
  split <;> simp

/-- Without the compute die only the RTC counts, from a supply. -/
theorem tick_of_off {s : State} (off : s.computeOn = false) : s.tick =
    if s.pwr.vin || s.pwr.vbat then { s with bkp := { s.bkp with rtc := s.bkp.rtc + 1 } } else s := by
  unfold State.tick
  rw [if_neg (by simp [off])]

theorem tick_of_idle {s : State} (on : s.computeOn = true) (idle : ∀ n, n < 36 → s.jobOn .lath n = none) {y : State}
    (hy : y = { s.refill with
      clk := s.clk + 1, bkp := { s.bkp with rtc := s.bkp.rtc + BitVec.ofNat 64 (rtcOf (s.clk + 1) - rtcOf s.clk) } }) :
    s.tick = if (s.clk + 1).toNat % 25000 = 0 then y.msTick else y := by
  subst hy
  unfold State.tick
  rw [if_pos on, issueAll_of_idle _ fun n hn => idle n (List.mem_range.mp hn)]
  rfl

/-- Settles O2: the step is a tick, and each clause is one of the lemmas above. -/
theorem emptyQueueTicks : Obligations.EmptyQueueTicks := by
  unfold Obligations.EmptyQueueTicks
  intro s empty
  refine ⟨s.tick, step_nil empty, s.tick_frame.1.trans empty, tick_clk_of_on, fun off => ?clk, fun off vin vbat => ?dark,
    fun off supply => ?rtc, fun on idle y hy => tick_of_idle on idle hy⟩
  case clk => rw [tick_of_off off]; split <;> rfl
  case dark => simp [tick_of_off off, vin, vbat]
  case rtc => simp [tick_of_off off, supply]

end Sys2Proof.EveryCommand

/-!
R254, R255, R256, R258. The rows of the integer and modular vector operations (`intRow_two`, `shortRow_ok`, `modRow_ok`,
`nttRow_ok` and one lemma for each row of its own), and the two obligations assembled from them with `elemOp_ok`, which says once
what an element operation stages.
-/
namespace Sys2Proof.VectorOps
open Sys2Proof.Machine Sys2Proof.Spec Sys2Proof.Laws

/-- A vector row whose encoding passes, wherever the row is a use of `vecRow`. -/
theorem vecRow_next {s x : State} {n : Nat} {j : Job} {reads : List Nat} {ok : Lath → Bool} {f : Lath → State}
    {o : Host.Outcome State Fault Refusal} (row : o = vecRow n reads ok s f) (r : Ready s n j reads)
    (k : ok (s.lath n) = true) (e : f (s.lath n) = x) : o = .next x := by
  rw [row, vecRow_ok s n j _ _ _ r k, e]

/-! ## Integer operations (R254) -/

section
variable {s : State} {n : Nat} {j : Job} {v : VSlot}

/-- A row of R254 with two operands, in its long or its binary form. -/
theorem intRow_two {o : VOp} (r : Ready s n j v.reads) (u : v.u = 0) (w : v.ew = 2 ∨ o.hasBinary = true ∧ v.ew = 3 ∧ v.msk = 0)
    (f : v.fnIn 16 = true) (ne : o ≠ .mv) : intRow o n v s =
      .next (s.elemOp n (s.lath n) v.msk.toNat v.d
        (fun i => o.eval (elt ((s.lath n).vr v.a) i) (elt ((s.lath n).opB v) i))) :=
  intRow_ok (by rwa [if_neg ne]) rfl u w f rfl rfl (.inl ne)

/-- `vmv` reads its second operand alone. -/
theorem intRow_mv (r : Ready s n j (if v.xs then [] else [v.b])) (u : v.u = 0) (w : v.ew = 2 ∨ v.ew = 3 ∧ v.msk = 0)
    (f : v.fnIn 16 = true) (vs1 : v.vs1 = 0) : intRow .mv n v s =
      .next (s.elemOp n (s.lath n) v.msk.toNat v.d (fun i => elt ((s.lath n).opB v) i)) :=
  intRow_ok (o := .mv) r rfl u (w.imp_right fun h => ⟨rfl, h⟩) f rfl rfl (.inr vs1)

/-- A row of R254 on the packed elements of S registers. -/
theorem shortRow_ok {o : VOp} (r : Ready s n j []) (u : v.u = 1) (ew : v.ew ≠ 3) (msk : v.msk = 0) (f : v.fnIn 16 = true)
    (m : o ≠ .mv ∨ v.vs1 = 0) : intRow o n v s = .next (s.shortOp n (s.lath n) v o) := by
  have short : v.short = true := by simpa [VSlot.short, u, msk] using ew
  have noFirst : (o != .mv || v.vs1 == 0) = true := by simpa using m
  unfold intRow
  rw [if_neg (by simp [u]), vecRow_ok s n j _ _ _ r (by rw [f, noFirst, short, Bool.or_true]; rfl), if_pos u]

theorem execMVclmul_ok (r : Ready s n j v.reads) (f : v.fnIn 17 = true) (long : v.long true = true) :
    execMVclmul n v s = .next (s.elemOp n (s.lath n) v.msk.toNat v.d (fun i =>
      (clmul (elt ((s.lath n).vr v.a) i) (elt ((s.lath n).opB v) i)).extractLsb' (if v.fn.getLsbD 0 then 32 else 0) 32)) :=
  vecRow_next rfl r (by rw [f, long]; rfl) rfl

theorem execMVgfmul_ok (r : Ready s n j v.reads) (f : v.fnIn 17 = true) (long : v.long true = true) :
    execMVgfmul n v s = .next (s.elemOp n (s.lath n) v.msk.toNat v.d (fun i =>
      if v.fn.getLsbD 0 then gfMul 13 0x201B (elt ((s.lath n).vr v.a) i) (elt ((s.lath n).opB v) i)
      else gfMul 12 0x1009 (elt ((s.lath n).vr v.a) i) (elt ((s.lath n).opB v) i))) :=
  vecRow_next rfl r (by rw [f, long]; rfl) rfl

end

/-- Settles O34: each row is its operation on every element (`elemOp_ok`), or on every packed element (`shortRow_ok`). -/
theorem vectorIntegerOperations : Obligations.VectorIntegerOperations := by
  unfold Obligations.VectorIntegerOperations
  refine ⟨?vectors, ?packed⟩
  case vectors =>
    rintro s n j v _ _ _ rfl u rfl rfl _ rfl _ rfl
    refine ⟨fun r ew f => ?arithmetic, fun r ew f => ?logic, fun r ew f vs1 => elemOp_ok (intRow_mv r u ew f vs1),
      fun r ew f => ?products⟩
    case arithmetic =>
      have row {o : VOp} (ne : o ≠ .mv) := elemOp_ok (intRow_two r u (.inl ew) f ne)
      exact ⟨row (o := .add) nofun, row (o := .sub) nofun, row (o := .sll) nofun, row (o := .srl) nofun,
        row (o := .sra) nofun, row (o := .mul) nofun, row (o := .mulhu) nofun, row (o := .minu) nofun, row (o := .maxu) nofun⟩
    case logic =>
      have row {o : VOp} (b : o.hasBinary = true) (ne : o ≠ .mv) :=
        elemOp_ok (intRow_two r u (ew.imp_right fun h => ⟨b, h⟩) f ne)
      exact ⟨row (o := .and) rfl nofun, row (o := .or) rfl nofun, row (o := .xor) rfl nofun⟩
    case products =>
      have long := long_ok v true u ew (.inl rfl)
      exact ⟨elemOp_ok (execMVclmul_ok r f long), elemOp_ok (execMVgfmul_ok r f long)⟩
  case packed =>
    rintro s n j v _ _ _ _ r rfl u ew msk f rfl rfl rfl _ rfl
    have row {o : VOp} := shortRow_ok (o := o) r u ew msk f
    have two {o : VOp} (ne : o ≠ .mv) := row (o := o) (.inl ne)
    exact ⟨two (o := .add) nofun, two (o := .sub) nofun, two (o := .and) nofun, two (o := .or) nofun, two (o := .xor) nofun,
      two (o := .sll) nofun, two (o := .srl) nofun, two (o := .sra) nofun, two (o := .mul) nofun, two (o := .mulhu) nofun,
      two (o := .minu) nofun, two (o := .maxu) nofun, fun vs1 => row (o := .mv) (.inr vs1)⟩

/-! ## Modular operations (R255, R256, R258) -/

section
variable {s : State} {n : Nat} {j : Job} {v : VSlot}

/-- The modulus that FN[3] selects (R255). -/
theorem q_eq : v.q = if v.fn.getLsbD 3 then 8380417 else 3329 := by
  rw [VSlot.q, qDsa, qKem]

/-- A modular operation with two operands. -/
theorem modRow_ok (f : Nat → Nat → Nat → Nat) (r : Ready s n j v.reads) (fn : v.fnIn 24 = true) (long : v.long true = true) :
    modRow f n v s = .next (s.elemOp n (s.lath n) v.msk.toNat v.d (fun i =>
      w32 (f v.q ((elt ((s.lath n).vr v.a) i).toNat % v.q) ((elt ((s.lath n).opB v) i).toNat % v.q)))) :=
  vecRow_next rfl r (by rw [fn, long]; rfl) rfl

theorem execMVredq_ok (r : Ready s n j [v.a]) (fn : v.fnIn 11 = true) (long : v.long true = true) (vs2 : v.vs2 = 0)
    {mode : Nat} (m : v.f % 4 = mode) (known : mode ≠ 3) : execMVredq n v s =
      .next (s.elemOp n (s.lath n) v.msk.toNat v.d (fun i => redq v.q mode (elt ((s.lath n).vr v.a) i))) := by
  subst m
  exact vecRow_next rfl r (by simp [fn, long, vs2, known]) rfl

theorem dOk_of_bounds (low : 1 ≤ v.f % 16) (high : v.f % 16 ≤ 11) : v.dOk = true := decide_eq_true ⟨low, high⟩

theorem execMVcprs_ok (r : Ready s n j [v.a]) (fn : v.fnIn 15 = true) (long : v.long true = true) (d : v.dOk = true) :
    execMVcprs n v s = .next (s.elemOp n (s.lath n) v.msk.toNat v.d
      (fun i => w32 (compress (v.f % 16) (elt ((s.lath n).vr v.a) i).toNat))) :=
  vecRow_next rfl r (by rw [fn, d, long]; rfl) rfl

theorem execMVdcprs_ok (r : Ready s n j [v.a]) (fn : v.fnIn 15 = true) (long : v.long true = true) (d : v.dOk = true) :
    execMVdcprs n v s = .next (s.elemOp n (s.lath n) v.msk.toNat v.d
      (fun i => w32 (decompress (v.f % 16) (elt ((s.lath n).vr v.a) i).toNat))) :=
  vecRow_next rfl r (by rw [fn, d, long]; rfl) rfl

/-- VL 256 and VSTART 0 are what the whole-register operations ask for (R256). -/
theorem fullVec_ok {e : Lath} (vl : e.r.vl = 256) (vstart : e.r.vstart = 0) : e.fullVec = true := by
  rw [Lath.fullVec, vl, vstart]
  rfl

/-- A layer of the transform, forward or inverse. -/
theorem nttRow_ok (inv : Bool) (r : Ready s n j [v.a, v.b]) (fn : v.fnIn 15 = true) (layer_ : v.layerOk = true)
    (long : v.long false = true) (full : (s.lath n).fullVec = true) : nttRow inv n v s =
      .next ((s.stage n (fun t => { t with vsElem := true })).stageV n v.d
        (layer inv v.q (v.f % 8) ((s.lath n).vr v.a) ((s.lath n).vr v.b))) :=
  vecRow_next rfl r (by rw [fn, layer_, long, full]; rfl) rfl

theorem execMVtwid_ok (r : Ready s n j []) (layer_ : v.layerOk = true) (vs1 : v.vs1 = 0) (vs2 : v.vs2 = 0)
    (long : v.long false = true) (full : (s.lath n).fullVec = true) : execMVtwid n v s =
      .next ((s.stage n (fun t => { t with vsElem := true })).stageV n v.d
        ((List.range 256).map (fun t => if t < 128 then twiddle v.q (v.f % 8) v.xs t else 0))) :=
  vecRow_next rfl r (by rw [layer_, vs1, vs2, long, full]; rfl) rfl

end

/-- Settles O35: the element operations with `elemOp_ok`, the layers and the twiddle factors by their rows. -/
theorem vectorModularOperations : Obligations.VectorModularOperations := by
  unfold Obligations.VectorModularOperations
  refine ⟨?elements, ?layers⟩
  case elements =>
    rintro s n j v _ _ _ q rfl u ew rfl rfl hq _ rfl _ rfl
    obtain rfl : q = v.q := hq.trans q_eq.symm
    have long := long_ok v true u ew (.inl rfl)
    refine ⟨fun r fn => ?two, fun r fn vs2 => ?reductions, fun r fn low high => ?compression⟩
    case two =>
      have row (f : Nat → Nat → Nat → Nat) := elemOp_ok (modRow_ok f r fn long)
      exact ⟨row fun q a b => (a + b) % q, row fun q a b => (a + q - b) % q, row fun q a b => a * b % q⟩
    case reductions =>
      have row {mode : Nat} (m : v.f % 4 = mode) (known : mode ≠ 3) := elemOp_ok (execMVredq_ok r fn long vs2 m known)
      exact ⟨fun m => row m (by decide), fun m => row m (by decide), fun m => row m (by decide)⟩
    case compression =>
      rintro _ rfl
      have d := dOk_of_bounds low high
      exact ⟨elemOp_ok (execMVcprs_ok r fn long d), elemOp_ok (execMVdcprs_ok r fn long d)⟩
  case layers =>
    rintro s _ n j v _ q _ rfl u ew msk vl vstart hq rfl rfl
    obtain rfl : q = v.q := hq.trans q_eq.symm
    have long := long_ok v false u ew (.inr msk)
    have full := fullVec_ok vl vstart
    exact ⟨fun r fn ok => ⟨nttRow_ok false r fn ok long full, nttRow_ok true r fn ok long full⟩,
      fun r ok vs1 vs2 => execMVtwid_ok r ok vs1 vs2 long full⟩

end Sys2Proof.VectorOps

/-!
R261 and R264. A fresh sharing is its random words and a first share that completes the value (`freshShare_two`,
`freshShare_three`): the Boolean case cancels words, the arithmetic case is one fact about residues (`completes_mod`).
-/
namespace Sys2Proof.FreshSharings
open Sys2Proof.Machine Sys2Proof.Spec Sys2Proof.Laws Sys2Proof.LathVectors

/-- A residue of a modulus that fits an element. -/
theorem w32_mod_toNat {q : Nat} (pos : 0 < q) (fits : q ≤ 2 ^ 32) (x : Nat) : (w32 (x % q)).toNat = x % q :=
  (BitVec.toNat_ofNat _ _).trans (Nat.mod_eq_of_lt (Nat.lt_of_lt_of_le (Nat.mod_lt x pos) fits))

/-- What the first share is completes the sum `r` of the others, where `r` is at most the `m` that was added. -/
theorem completes_mod {q m r : Nat} (x : Nat) (le : r ≤ m * q) : ((x % q + m * q - r) % q + r) % q = x % q := by
  rw [Nat.mod_add_mod, Nat.sub_add_cancel (by omega), Nat.add_mul_mod_self_right, Nat.mod_mod]

/-- Two words that are each entered twice cancel. -/
theorem xor_twice (a b c : W32) : a ^^^ b ^^^ c ^^^ b ^^^ c = a := by
  rw [BitVec.xor_assoc (a ^^^ b ^^^ c), BitVec.xor_assoc a, BitVec.xor_assoc a, BitVec.xor_self, BitVec.xor_zero]

/-- The words of a sharing at element `i`, reduced to residues where the sharing is arithmetic. -/
def freshWord (q m : Nat) (ws : List W32) (k i : Nat) : W32 :=
  if q = 0 then elt ws (m * i + k) else w32 ((elt ws (m * i + k)).toNat % q)

theorem freshWord_toNat_lt {q : Nat} (pos : 0 < q) (fits : q ≤ 2 ^ 32) (m : Nat) (ws : List W32) (k i : Nat) :
    (freshWord q m ws k i).toNat < q := by
  rw [freshWord, if_neg (Nat.ne_of_gt pos), w32_mod_toNat pos fits]
  exact Nat.mod_lt _ pos

section
variable (q : Nat) (f g h : Nat → W32) {i : Nat} (hi : i < 256)
include hi

/-- The value of two shares. -/
theorem valueAt_two : valueAt q ([f, g].map (fun f => (List.range 256).map f)) i =
    if q = 0 then (f i ^^^ g i).toNat else ((f i).toNat + (g i).toNat) % q := by
  simp [valueAt, elt_map_range _ hi]

/-- The value of three shares. -/
theorem valueAt_three : valueAt q ([f, g, h].map (fun f => (List.range 256).map f)) i =
    if q = 0 then (f i ^^^ g i ^^^ h i).toNat else ((f i).toNat + (g i).toNat + (h i).toNat) % q := by
  simp [valueAt, elt_map_range _ hi]

end

section
variable {q : Nat} (fits : q ≤ 2 ^ 32) (ws : List W32) (x : Nat → Nat) {i : Nat} (hi : i < 256)
include fits hi

theorem valueAt_freshShare_two : valueAt q ((freshShare q 2 ws x).map (fun f => (List.range 256).map f)) i =
    if q = 0 then x i % 2 ^ 32 else x i % q := by
  rw [freshShare_two q ws x (freshWord q 1 ws) rfl, valueAt_two _ _ _ hi]
  split
  case isTrue => rw [BitVec.xor_assoc, BitVec.xor_self, BitVec.xor_zero]; exact BitVec.toNat_ofNat _ _
  case isFalse arithmetic =>
    have pos := Nat.pos_of_ne_zero arithmetic
    have lt := freshWord_toNat_lt pos fits 1 ws 0 i
    rw [w32_mod_toNat pos fits]
    simpa using completes_mod (m := 1) (x i) (by omega : (freshWord q 1 ws 0 i).toNat ≤ 1 * q)

theorem valueAt_freshShare_three : valueAt q ((freshShare q 3 ws x).map (fun f => (List.range 256).map f)) i =
    if q = 0 then x i % 2 ^ 32 else x i % q := by
  rw [freshShare_three q ws x (freshWord q 2 ws) rfl, valueAt_three _ _ _ _ hi]
  split
  case isTrue =>
    rw [xor_twice]
    exact BitVec.toNat_ofNat _ _
  case isFalse arithmetic =>
    have pos := Nat.pos_of_ne_zero arithmetic
    have lt0 := freshWord_toNat_lt pos fits 2 ws 0 i
    have lt1 := freshWord_toNat_lt pos fits 2 ws 1 i
    rw [w32_mod_toNat pos fits, Nat.add_assoc]
    exact completes_mod (x i) (by omega)

end

/-- Settles O37: a sharing of two and one of three shares, for every modulus that fits an element. -/
theorem freshSharingsHoldTheirValue : Obligations.FreshSharingsHoldTheirValue := by
  unfold Obligations.FreshSharingsHoldTheirValue
  intro q g ws x i hq hg hi
  have fits : q ≤ 2 ^ 32 := by omega
  have length : (freshShare q g ws x).length = g := by
    rcases hg with rfl | rfl <;> simp [freshShare]
  refine ⟨length, ?_⟩
  rcases hg with rfl | rfl
  · exact valueAt_freshShare_two fits ws x hi
  · exact valueAt_freshShare_three fits ws x hi

end Sys2Proof.FreshSharings

/-!
R261-R266. Every share-mode row that passes its checks draws its words and stages a group (`shareRow_next`); the rows that work share
by share do so with one operation for each share (`shareWise_next`, `each_next`). The obligation is a list of rows.
-/
namespace Sys2Proof.ShareMode
open Sys2Proof.Machine Sys2Proof.Spec Sys2Proof.Laws

section
variable {s x : State} {n : Nat} {j : Job} {v : VSlot} {fb w : Nat} {dst : Option Nat} {srcs plain : List Nat}
  {extra : Lath → Bool} {ws : List W32}

/-- A share-mode row that passes its checks and draws goes on with its words, in the state after the draw. -/
theorem shareRow_next {f : Lath → List W32 → State → State} {t : State} {o : Host.Outcome State Fault Refusal}
    (row : o = shareRow n v fb dst srcs plain extra w s f) (r : ShareReady s n j v fb dst srcs plain)
    (d : ShareDraws s n (s.lath n) w ws x) (ex : extra (s.lath n) = true)
    (e : f (s.lath n) ws (x.stage n (fun t => { t with vsElem := true })) = t) : o = .next t := by
  rw [row, shareRow_ok s n j v fb dst srcs plain extra w f ws x r ex (shareDraw_ok s n _ j w ws x d), e]

/-- A row that works share by share: `g k` is what it makes of share `k` and the second operand. -/
theorem shareWise_next {p0 np : Bool} {f : Nat → W32 → W32 → W32} {keep : W32 → W32} (g : Nat → W32 → W32 → W32)
    {o : Host.Outcome State Fault Refusal} (row : o = shareWise fb p0 np f keep n v s)
    (r : ShareReady s n j v fb (some v.d) v.srcGroups v.srcPlain) (d : ShareDraws s n (s.lath n) 0 ws x)
    (pubOk : v.pubOk = true) (needs : np = true → v.pub = true)
    (same : ∀ k a b, g k a b = if v.pub = true ∧ p0 = true ∧ k ≠ 0 then keep a else f k a b) :
    o = .next ((x.stage n (fun t => { t with vsElem := true })).stageG n (s.lath n) v.d
      ((List.range v.g).map (fun k => fun i => g k (elt ((s.lath n).vr (v.a + k)) i)
        (if v.pub then elt ((s.lath n).pubOp v) i else elt ((s.lath n).vr (v.b + k)) i)))) := by
  rw [row, shareWise_ok s n j v fb p0 np f keep ws x r pubOk needs (shareDraw_ok s n _ j 0 ws x d)]
  congr 3
  funext k i
  rw [same]
  cases v.pub <;> simp

/-- A row that does the same to each share. -/
theorem each_next {f : Lath → List W32 → Nat → W32} {o : Host.Outcome State Fault Refusal} (r : ShareReady s n j v fb dst srcs plain)
    (d : ShareDraws s n (s.lath n) 0 ws x) (ex : extra (s.lath n) = true)
    (row : o = shareRow n v fb dst srcs plain extra 0 s (fun e _ y => y.stageG n e v.d ((e.shares v.g v.a).map (f e)))) :
    o = .next ((x.stage n (fun t => { t with vsElem := true })).stageG n (s.lath n) v.d
      ((List.range v.g).map (fun k => f (s.lath n) ((s.lath n).vr (v.a + k))))) :=
  shareRow_next row r d ex (each_ok _ n v (s.lath n) (f (s.lath n)))

end

/-- Settles O38: the rows of R263 share by share, and the rows of R264 with a fresh sharing of their value. -/
theorem shareModeOperations : Obligations.ShareModeOperations := by
  unfold Obligations.ShareModeOperations
  refine ⟨?shareByShare, ?fresh⟩
  case shareByShare =>
    rintro s x n j v _ _ ws rfl rfl d _ rfl _ rfl
    refine ⟨fun r ok => ⟨?addq, ?subq, fun pub => ?mulq⟩, fun r ok => ⟨?xor, fun pub => ?and⟩, ?each, fun r => ?recomb⟩
    case addq =>
      exact shareWise_next (fun k a b => if v.pub ∧ k ≠ 0 then w32 (a.toNat % v.q) else w32 ((a.toNat + b.toNat) % v.q))
        (show execMVaddqS n v s = _ from rfl) r d ok nofun (by simp)
    case subq =>
      exact shareWise_next (fun k a b => if v.pub ∧ k ≠ 0 then w32 (a.toNat % v.q)
        else w32 ((a.toNat % v.q + v.q - b.toNat % v.q) % v.q)) (show execMVsubqS n v s = _ from rfl) r d ok nofun (by simp)
    case mulq =>
      exact shareWise_next (fun _ a b => w32 (a.toNat % v.q * (b.toNat % v.q) % v.q))
        (show execMVmulqS n v s = _ from rfl) r d ok (fun _ => pub) (by simp)
    case xor =>
      exact shareWise_next (fun k a b => if v.pub ∧ k ≠ 0 then a else a ^^^ b)
        (show execMVxorS n v s = _ from rfl) r d ok nofun (by simp)
    case and =>
      change execMVandS n v s = _
      unfold execMVandS
      rw [if_pos pub]
      exact shareWise_next (fun _ a b => a &&& b) rfl r d ok (fun _ => pub) (by simp)
    case each =>
      rintro _ rfl
      refine ⟨fun r layer_ vl vstart => ?layers, fun r vl vstart => ?products, fun r k hk => ?shifts⟩
      case layers =>
        have full := VectorOps.fullVec_ok vl vstart
        exact ⟨each_next r d (by rw [layer_, full]; rfl) (show nttShare false n v s = _ from rfl),
          each_next r d (by rw [layer_, full]; rfl) (show nttShare true n v s = _ from rfl)⟩
      case products => exact each_next r d (VectorOps.fullVec_ok vl vstart) (show execMVbmulS n v s = _ from rfl)
      case shifts =>
        subst hk
        exact each_next r d rfl (show execMVshS n v s = _ from rfl)
    case recomb => exact shareRow_next (show execMVrecomb n v s = _ from rfl) r d rfl rfl
  case fresh =>
    rintro s x _ n j v _ ws _ _ rfl rfl rfl rfl _ rfl _ rfl
    simp only [decide_eq_true_eq]
    refine ⟨fun r pub pubX d => ?and, fun r vs2 d => ?refresh, fun r => ⟨fun d => ?a2b, fun d => ?b2a⟩,
      fun r low high d => ?compressed, fun r d => ?isZero, fun r d => ?split⟩
    case and =>
      change execMVandS n v s = _
      unfold execMVandS
      rw [if_neg (by simp [pub])]
      exact shareRow_next rfl r d (by simp [VSlot.pubOk, pubX]) rfl
    case refresh => exact shareRow_next (show execMVrefS n v s = _ from rfl) r d (by simp [vs2]) rfl
    case a2b => exact shareRow_next (show execMVa2bS n v s = _ from rfl) r d rfl rfl
    case b2a => exact shareRow_next (show execMVb2aS n v s = _ from rfl) r d rfl rfl
    case compressed =>
      exact shareRow_next (show execMVcprsS n v s = _ from rfl) r d (VectorOps.dOk_of_bounds low high) rfl
    case isZero => exact shareRow_next (show execMVmeqzS n v s = _ from rfl) r d rfl rfl
    case split => exact shareRow_next (show execMVsplit n v s = _ from rfl) r d rfl rfl

end Sys2Proof.ShareMode

/-!
R248, R252-R254, R259, R260. Each row is the vector row of its encoding check (`vecRow_next`), and the obligation a list of rows; an
element operation stages its register or only claims it (`elemOp_claims`).
-/
namespace Sys2Proof.VectorMoves
open Sys2Proof.Machine Sys2Proof.Spec Sys2Proof.Laws Sys2Proof.VectorOps

/-- Settles O36: the long-vector rows, and the rows of binary mode. -/
theorem vectorMovesAndMasks : Obligations.VectorMovesAndMasks := by
  unfold Obligations.VectorMovesAndMasks
  refine ⟨?vectors, ?binary⟩
  case vectors =>
    rintro s n j v _ _ _ _ _ rfl rfl rfl rfl rfl _ rfl _ rfl _ rfl
    refine ⟨fun r long fn cond d => ?cmp, fun r long msk fn d a b => ?mop, fun r long msk fn a vs2 => ?popc,
      fun r long msk fn vs2 k hk => ?setvl, fun r long msk fn => ?fromVector, fun r long msk fn => ?intoVector,
      fun r u ew msk fn => ?wholeS, fun r long fn ne k hk => ?slides, fun r long fn ne ne' => ?perm,
      fun r long vstart vs2 => ⟨fun fn f => ?red, fun ne msk fn l hl => ?compress, fun ne msk w hw fits => ⟨?unpk, fun x hx => ?pack⟩⟩⟩
    case cmp =>
      have ok := long_ok v true long.1 long.2 (.inl rfl)
      exact vecRow_next (show execMVcmp n v s = _ from rfl) r (by simp [fn, cond, d, ok]) rfl
    case mop =>
      have ok := long_ok v false long.1 long.2 (.inr msk)
      exact vecRow_next (show execMVmop n v s = _ from rfl) r (by simp [fn, d, a, b, ok]) rfl
    case popc =>
      have ok := long_ok v false long.1 long.2 (.inr msk)
      exact vecRow_next (show execMVpopc n v s = _ from rfl) r (by simp [fn, a, vs2, ok]) rfl
    case setvl =>
      subst hk
      have ok := long_ok v false long.1 long.2 (.inr msk)
      change execMSetvl n v s = _
      unfold execMSetvl
      rw [slotRow_ok s n j _ r, if_pos (by simp [fn, vs2, ok])]
    case fromVector =>
      have ok := long_ok v false long.1 long.2 (.inr msk)
      exact vecRow_next (show execMVmvxv n v s = _ from rfl) r (by simp [fn, ok]) rfl
    case intoVector =>
      have ok := long_ok v false long.1 long.2 (.inr msk)
      exact vecRow_next (show execMVmvvx n v s = _ from rfl) r (by simp [fn, ok]) rfl
    case wholeS =>
      have ok : v.wholeS = true := by simp [VSlot.wholeS, u, ew, msk, fn]
      exact ⟨vecRow_next (show execMSmvxs n v s = _ from rfl) r ok rfl,
        vecRow_next (show execMSmvsx n v s = _ from rfl) r ok rfl⟩
    case slides =>
      subst hk
      have ok := long_ok v true long.1 long.2 (.inl rfl)
      exact ⟨vecRow_next (show execMVslidedn n v s = _ from rfl) r (by simp [fn, ne, ok]) (elemOp_claims ..),
        vecRow_next (show execMVslideup n v s = _ from rfl) r (by simp [fn, ne, ok]) (elemOp_claims ..)⟩
    case perm =>
      have ok := long_ok v true long.1 long.2 (.inl rfl)
      exact vecRow_next (show execMVperm n v s = _ from rfl) r (by simp [fn, ne, ne', ok]) (elemOp_claims ..)
    case red =>
      have ok := long_ok v true long.1 long.2 (.inl rfl)
      exact vecRow_next (show execMVred n v s = _ from rfl) r (by simp [fn, f, vstart, vs2, ok]) rfl
    case compress =>
      subst hl
      have ok := long_ok v true long.1 long.2 (.inl rfl)
      exact vecRow_next (show execMVcompress n v s = _ from rfl) r (by simpa [fn, vstart, ne, vs2, ok] using msk) rfl
    case unpk =>
      subst hw
      have ok := long_ok v false long.1 long.2 (.inr msk)
      exact vecRow_next (show execMVunpk n v s = _ from rfl) r (by simp [fits, vstart, ne, vs2, ok]) rfl
    case pack =>
      subst hw hx
      have ok := long_ok v false long.1 long.2 (.inr msk)
      exact vecRow_next (show execMVpack n v s = _ from rfl) r (by simp [fits, vstart, ne, vs2, ok]) rfl
  case binary =>
    rintro s n j v _ _ _ _ _ _ rfl rfl rfl rfl rfl rfl
    refine ⟨fun r u ew msk fn does hdoes => ?shifts, fun r u ew msk fn vs2 => ⟨?popc, fun ne vl => ?transpose⟩⟩
    case shifts =>
      subst hdoes
      have ok : v.binary = true := by simp [VSlot.binary, u, ew, msk]
      have row (f : Nat → Nat → Nat → Nat) := vecRow_next (show binRow f n v s = _ from rfl) r (by simp [fn, ok]) rfl
      exact ⟨row fun bits x k => if bits ≤ k then 0 else x * 2 ^ k % 2 ^ bits, row fun bits x k => if bits ≤ k then 0 else x / 2 ^ k,
        row fun bits x k => (x * 2 ^ (k % bits) + x / 2 ^ (bits - k % bits)) % 2 ^ bits⟩
    case popc =>
      have ok : v.binary = true := by simp [VSlot.binary, u, ew, msk]
      exact vecRow_next (show execMVbpopc n v s = _ from rfl) r (by simp [fn, vs2, ok]) rfl
    case transpose =>
      have ok : v.binary = true := by simp [VSlot.binary, u, ew, msk]
      exact vecRow_next (show execMVbtrn n v s = _ from rfl) r (by simp [fn, vs2, ne, vl, ok]) rfl

end Sys2Proof.VectorMoves

/-!
R206, R269-R276. The V forms differ in their addresses only (`vecLoad_ok`, `vecStore_ok`); the
64-bit forms are `xRow_ok`. What a 64-bit access leaves alone follows from the laws of the local memory (Laws/LathMemory).
-/
namespace Sys2Proof.LathMemoryRows
open Sys2Proof.Machine Sys2Proof.Spec Sys2Proof.Laws

section
variable {s : State} {n : Nat} {j : Job}

/-- A memory row whose encoding passes. -/
theorem memRow_next {reads : List Nat} {ok : Bool} {f : Lath → Job → State} {o : Host.Outcome State Fault Refusal}
    (row : o = memRow n reads ok s f) (r : Ready s n j reads) (k : ok = true) : o = .next (f (s.lath n) j) := by
  rw [row]
  exact vecRowJ_ok s n j _ _ _ r k

end

/-- Settles O39: the eight V rows, and the four 64-bit rows with and without a fault. -/
theorem lathMemoryAccesses : Obligations.LathMemoryAccesses := by
  unfold Obligations.LathMemoryAccesses
  refine ⟨?vectors, ?words⟩
  case vectors =>
    rintro s n j m _ _ _ rfl rfl rfl _ _ rfl rfl
    have loads_ok {o : Host.Outcome State Fault Refusal} {f : Nat} {ad : Addrs} (row : o = .next (s.vecLoad n (s.lath n) j m f ad)) :=
      fun w bs hb => nx3 (vecLoad_ok s n (s.lath n) j m f ad _ rfl w bs hb) row
    have stores_ok {o : Host.Outcome State Fault Refusal} {f : Nat} {ad : Addrs} (row : o = .next (s.vecStore n (s.lath n) j m f ad)) :=
      fun w bs hb => nx2 (vecStore_ok s n (s.lath n) j m f ad _ rfl w bs hb) row
    refine ⟨fun r nf => ⟨fun xb => ?vle, ?vlse⟩, fun r nf => ⟨fun xb => ?vse, ?vsse⟩, fun r nf ne => ?vlux, fun r nf => ?vsux,
      fun f hf nf xb fits => ⟨fun r => ?vlseg, fun r => ?vsseg⟩⟩
    case vle => exact loads_ok (memRow_next (show execMVle n m s = _ from rfl) r (by simp [nf, xb]))
    case vlse => exact loads_ok (memRow_next (show execMVlse n m s = _ from rfl) r (by simp [nf]))
    case vse => exact stores_ok (memRow_next (show execMVse n m s = _ from rfl) r (by simp [nf, xb]))
    case vsse => exact stores_ok (memRow_next (show execMVsse n m s = _ from rfl) r (by simp [nf]))
    case vlux => exact loads_ok (memRow_next (show execMVlux n m s = _ from rfl) r (by simp [nf, ne]))
    case vsux => exact stores_ok (memRow_next (show execMVsux n m s = _ from rfl) r (by simp [nf]))
    case vlseg =>
      subst hf
      have ok : m.segOk = true := by simpa [MemV.segOk, xb, fits] using nf
      exact loads_ok (memRow_next (show execMVlseg n m s = _ from rfl) r ok)
    case vsseg =>
      subst hf
      have ok : m.segOk = true := by simpa [MemV.segOk, xb, fits] using nf
      exact stores_ok (memRow_next (show execMVsseg n m s = _ from rfl) r ok)
  case words =>
    rintro s _ n j m _ a ecc rfl ha hecc rfl r vstart
    have start : ((s.lath n).r.vstart == 0) = true := by rw [vstart]; rfl
    have row (store : Bool) (claim : State → State) (f : Lath → State → State) :=
      xRow_ok s n j m store claim f r start a ha ecc hecc
    refine ⟨?passes, fun c b bad => ⟨?xld, ?sld⟩, fun c b bad => ⟨?xst, ?sst⟩⟩
    case passes =>
      rintro _ rfl
      refine ⟨fun v hv good => ?loads, fun good => ?stores⟩
      case loads =>
        subst hv ha
        exact ⟨show execMSld n m s = _ from (row false (claimS n m.rg) _).1 good,
          show execMXld n m s = _ from (row false (claimX n m.rg) _).1 good⟩
      case stores =>
        subst ha
        exact ⟨show execMSst n m s = _ from (row true id _).1 good, show execMXst n m s = _ from (row true id _).1 good⟩
    case xld => exact show execMXld n m s = _ from (row false (claimX n m.rg) _).2 c b bad
    case sld => exact show execMSld n m s = _ from (row false (claimS n m.rg) _).2 c b bad
    case xst => exact show execMXst n m s = _ from (row true id _).2 c b bad
    case sst => exact show execMSst n m s = _ from (row true id _).2 c b bad

/-! ## What a 64-bit access leaves alone -/

section
variable {s t : State} {n : Nat} {j : Job} {m : MemX} (r : Ready s n j []) (vstart : (s.lath n).r.vstart = 0) (ecc : m.ecc = false)
  (free : s.lockedOut (n / 4) (n % 4) ((beatsOf [m.addr (s.lath n)]).map (fun b => 8 + b / 8192)) = false)
include r vstart ecc free

/-- A 64-bit access that passes its checks and finds its bank free takes its tenures and its effect. -/
theorem xRow_free (store : Bool) (claim : State → State) (f : Lath → State → State)
    (good : (s.lath n).firstBad store none 8 [m.addr (s.lath n)] = none) : xRow n m store claim s f =
      .next (f (s.lath n) (s.beatTenures (n / 4) (n % 4) (beatsOf [m.addr (s.lath n)]))) := by
  rw [(xRow_ok s n j m store claim f r (by rw [vstart]; rfl) _ rfl none (by rw [ecc]; rfl)).1 good, free]
  rfl

/-- A 64-bit store writes the eight bytes of its register, in the state after its tenures. -/
theorem store_writes (good : (s.lath n).firstBad true none 8 [m.addr (s.lath n)] = none) {v : W64}
    (h : (exec (.mXst n m) s = .next t ∧ v = (s.lath n).xr m.rg.toNat) ∨ (exec (.mSst n m) s = .next t ∧ v = (s.lath n).sr m.rg.toNat)) :
    t = localWrite n (m.addr (s.lath n)) (leBytes 8 v.toNat) (s.beatTenures (n / 4) (n % 4) (beatsOf [m.addr (s.lath n)])) := by
  have row := xRow_free r vstart ecc free true id (good := good)
  rcases h with ⟨h, rfl⟩ | ⟨h, rfl⟩
  · exact (Host.Outcome.next.inj ((show execMXst n m s = _ from row _).symm.trans h)).symm
  · exact (Host.Outcome.next.inj ((show execMSst n m s = _ from row _).symm.trans h)).symm

/-- A 64-bit load only stages, after its tenures. -/
theorem load_localByte (good : (s.lath n).firstBad false none 8 [m.addr (s.lath n)] = none)
    (h : exec (.mXld n m) s = .next t ∨ exec (.mSld n m) s = .next t) (b : Nat) : t.localByte n b = s.localByte n b := by
  have row := xRow_free r vstart ecc free false (good := good)
  rcases h with h | h
  · rw [← Host.Outcome.next.inj ((show execMXld n m s = _ from row _ _).symm.trans h), State.stageX]
    split
    · exact State.beatTenures_localByte ..
    · rw [State.stage_localByte, State.beatTenures_localByte]
  · rw [← Host.Outcome.next.inj ((show execMSld n m s = _ from row _ _).symm.trans h), State.stage_localByte,
      State.beatTenures_localByte]

end

theorem leBytes_length (k x : Nat) : (leBytes k x).length = k := by
  induction k generalizing x with
  | zero => rfl
  | succ k ih => rw [leBytes, List.length_cons, ih]

/-- Settles O40: a store is a write of eight bytes, a load stages. -/
theorem storesChangeOnlyTheirBytes : Obligations.StoresChangeOnlyTheirBytes := by
  unfold Obligations.StoresChangeOnlyTheirBytes
  rintro s t n j m _ a rfl ha r vstart free
  obtain rfl : a = m.addr (s.lath n) := ha
  refine ⟨fun ecc good v h => ?store, fun ecc good h b => load_localByte r vstart ecc free good h b⟩
  case store =>
    rw [store_writes r vstart ecc free good h]
    refine ⟨fun b outside => ?_, fun scratch i hi => ?_⟩
    · rw [localWrite_ne _ _ _ _ (by rwa [leBytes_length]), State.beatTenures_localByte]
    · rw [localWrite_scratch _ _ _ _ (by rwa [leBytes_length]) i (by rwa [leBytes_length]), leBytes_getD _ _ _ hi]

end Sys2Proof.LathMemoryRows

/-!
R210-R217, R231, R282. The sequencer: a microword that ends (`seqRow_next`), one with a write conflict, one that waits. The scalar
slot: a row of two registers, of a register and an immediate, or of its own operands stages its result and its flags.
-/
namespace Sys2Proof.Sequencer
open Sys2Proof.Machine Sys2Proof.Spec Sys2Proof.Laws

section
variable {s : State} {n : Nat} {j : Job} {safe : Bool} {f : Lath → Job → State → State} {o : Host.Outcome State Fault Refusal}
  (row : o = seqRow n safe s f)
include row

/-- A microword that ends without a conflict, within 4 096 of its last safe point. -/
theorem seqRow_next (r : Issues s n j) (c : (s.lath n).stage.conflict = false) (g : ((committed s n safe).lath n).gap < 4096)
    {t : State} (e : f ((committed s n safe).lath n) j (committed s n safe) = t) : o = .next t := by
  rw [row, seqRow_ok s n j safe f r c g, e]

/-- A microword whose slots write a register twice (R282). -/
theorem seqRow_conflict (r : Issues s n j) (c : (s.lath n).stage.conflict = true) :
    o = .next ((s.updLath n (fun x => x.issue safe)).engCause n bWriteConflict) := by
  obtain ⟨engine, job, running, go⟩ := r
  rw [row, seqRow, wordRow, if_neg (by omega), job]
  simp only [running, go, c]
  rfl

/-- A microword of which a slot waits has not issued (R210). -/
theorem seqRow_stalled (engine : n < 36) (job : s.jobOn .lath n = some j) (running : j.st = .running)
    (waits : (s.lath n).stage.stall = true) : o = .next (s.updLath n (fun t => { t with stage := {} })) := by
  rw [row, seqRow, wordRow, if_neg (by omega), job]
  simp only [running, waits]
  rfl

end

/-- Settles O32: the rows of R213 at the end of their microword, and the two ways in which it does not end. -/
theorem sequencerGoesOn : Obligations.SequencerGoesOn := by
  unfold Obligations.SequencerGoesOn
  rintro s _ _ n j _ next r rfl rfl rfl
  refine ⟨fun c g => ⟨?seq, fun room => ?call, fun full => ?overflow, fun a l stack => ?ret, fun stack => ?underflow,
    fun reg => ?dispatch, ?pjump, ?rjump⟩, fun c g => ⟨fun st det abort => ?abort, fun abort w hw => ?safe, ?halt⟩,
    fun c => ?conflict, fun x engine job running waits => ?stalled⟩
  case seq => exact seqRow_next (show execMSeq n next s = _ from rfl) r c g rfl
  case call => exact seqRow_next (show execMCall n next s = _ from rfl) r c g (if_neg (by omega))
  case overflow => exact seqRow_next (show execMCall n next s = _ from rfl) r c g (if_pos full)
  case ret => exact seqRow_next (show execMReturn n s = _ from rfl) r c g (by dsimp only; rw [stack])
  case underflow => exact seqRow_next (show execMReturn n s = _ from rfl) r c g (by dsimp only; rw [stack])
  case dispatch => exact seqRow_next (show execMDispatch n reg next s = _ from rfl) r c g rfl
  case pjump => exact seqRow_next (show execMPjump n next s = _ from rfl) r c g rfl
  case rjump => exact seqRow_next (show execMRjump n next s = _ from rfl) r c g rfl
  case abort => exact seqRow_next (show execMSafe n next s = _ from rfl) r c g (by dsimp only; rw [abort])
  case safe =>
    subst hw
    exact seqRow_next (show execMSafe n next s = _ from rfl) r c g (by dsimp only; rw [abort])
  case halt => exact seqRow_next (show execMHalt n s = _ from rfl) r c g rfl
  case conflict => exact seqRow_conflict (show execMSeq n next s = _ from rfl) r c
  case stalled => exact seqRow_stalled (show execMSeq n next x = _ from rfl) engine job running waits

/-- A slot of an engine that issues. -/
theorem slotRow_next {s t : State} {n : Nat} {j : Job} {f : Lath → Job → State} {o : Host.Outcome State Fault Refusal}
    (row : o = slotRow n s f) (r : Issues s n j) (e : f (s.lath n) j = t) : o = .next t := by
  rw [row, slotRow_ok s n j f r, e]

/-! ## The scalar slot (R205, R211, R212) -/

section
variable {s : State} {n : Nat} {j : Job} {rd r1 r2 : BitVec 5} {o : Host.Outcome State Fault Refusal} (r : Issues s n j)
include r

/-- A scalar row stages its result, which X0 ignores, and its flags. -/
theorem scalarRow_next {f : Lath → W64 × FlagSet} (row : o = scalarRow n rd s f) {v : W64} {fl : FlagSet}
    (e : f (s.lath n) = (v, fl)) : o =
    .next ((if rd = 0 then s else s.stage n (fun t => { t with x := t.x ++ [(rd.toNat, v)] })).stageF n fl) := by
  rw [row, scalarRow_ok s n j rd f r, stageX_eq, e]

/-- The same for an operation on two values, the first that of a register. -/
theorem regRow_next {f : W64 → W64 → W64 × FlagSet} (row : o = regRow n rd r1 r2 s f) {v : W64} {fl : FlagSet}
    (e : f ((s.lath n).xr r1.toNat) ((s.lath n).xr r2.toNat) = (v, fl)) : o =
    .next ((if rd = 0 then s else s.stage n (fun t => { t with x := t.x ++ [(rd.toNat, v)] })).stageF n fl) :=
  scalarRow_next r (row.trans rfl) e

theorem immRow_next {imm : W64} {f : W64 → W64 → W64 × FlagSet} (row : o = immRow n rd r1 imm s f) {v : W64} {fl : FlagSet}
    (e : f ((s.lath n).xr r1.toNat) imm = (v, fl)) : o =
    .next ((if rd = 0 then s else s.stage n (fun t => { t with x := t.x ++ [(rd.toNat, v)] })).stageF n fl) :=
  scalarRow_next r (row.trans rfl) e

/-- A shift by an immediate, of a kind that is not reserved. -/
theorem execMShi_ok {mode : BitVec 2} (known : mode ≠ 3) (k : BitVec 6) : execMShi n rd r1 mode k s =
    .next ((if rd = 0 then s else s.stage n (fun t => { t with x := t.x ++
      [(rd.toNat, shiftX mode.toNat ((s.lath n).xr r1.toNat) k.toNat)] })).stageF n
        (flagsZN (shiftX mode.toNat ((s.lath n).xr r1.toNat) k.toNat))) := by
  unfold execMShi
  rw [if_neg known]
  exact scalarRow_next r rfl rfl

end

/-- Settles O33: each row with its own operation. -/
theorem scalarOperationsStageResults : Obligations.ScalarOperationsStageResults := by
  unfold Obligations.ScalarOperationsStageResults
  rintro s n j rd r1 r2 imm _ _ _ _ _ r rfl rfl rfl rfl rfl
  refine ⟨?add, ?sub, ?and, ?or, ?xor, ?sll, ?srl, ?sra, ?mul, ?mulhu, ?addi, ?andi, ?ori, ?xori, fun k => ⟨?slli, ?srli, ?srai, ?reserved⟩,
    ?lui, ?sel, ?cmp, ?cmpi, fun num v special => ?mfs, ?setVl, ?setVstart⟩
  case add => exact regRow_next r (show execMAdd n rd r1 r2 s = _ from rfl) rfl
  case sub => exact regRow_next r (show execMSub n rd r1 r2 s = _ from rfl) rfl
  case and => exact regRow_next r (show execMAnd n rd r1 r2 s = _ from rfl) rfl
  case or => exact regRow_next r (show execMOr n rd r1 r2 s = _ from rfl) rfl
  case xor => exact regRow_next r (show execMXor n rd r1 r2 s = _ from rfl) rfl
  case sll => exact regRow_next r (show execMSll n rd r1 r2 s = _ from rfl) rfl
  case srl => exact regRow_next r (show execMSrl n rd r1 r2 s = _ from rfl) rfl
  case sra => exact regRow_next r (show execMSra n rd r1 r2 s = _ from rfl) rfl
  case mul => exact regRow_next r (show execMMul n rd r1 r2 s = _ from rfl) rfl
  case mulhu =>
    rintro _ rfl
    exact regRow_next r (show execMMulhu n rd r1 r2 s = _ from rfl) rfl
  case addi => exact immRow_next r (show execMAddi n rd r1 imm s = _ from rfl) rfl
  case andi => exact immRow_next r (show execMAndi n rd r1 imm s = _ from rfl) rfl
  case ori => exact immRow_next r (show execMOri n rd r1 imm s = _ from rfl) rfl
  case xori => exact immRow_next r (show execMXori n rd r1 imm s = _ from rfl) rfl
  case slli => exact execMShi_ok r (mode := 0) (by decide) k
  case srli => exact execMShi_ok r (mode := 1) (by decide) k
  case srai => exact execMShi_ok r (mode := 2) (by decide) k
  case reserved => exact slotRow_next ((show execMShi n rd r1 3 k s = _ from if_pos rfl)) r rfl
  case lui => exact scalarRow_next r (show execMLui n rd imm s = _ from rfl) rfl
  case sel => exact scalarRow_next r (show execMSel n rd r1 r2 s = _ from rfl) rfl
  case cmp => exact scalarRow_next r (show execMCmp n r1 r2 s = _ from rfl) rfl
  case cmpi => exact scalarRow_next r (show execMCmpi n r1 imm s = _ from rfl) rfl
  case mfs => exact slotRow_next (show execMMfs n rd num s = _ from rfl) r (by rw [special])
  case setVl => exact slotRow_next (show execMMts n r1 0 s = _ from rfl) r (if_pos rfl)
  case setVstart => exact slotRow_next (show execMMts n r1 1 s = _ from rfl) r rfl

end Sys2Proof.Sequencer

/-!
R218-R223, R237, R240, R243. The port slot: each operation is the slot of an engine that issues (`slotRow_next`) with its own checks
passed. The events of the Sponge port and of DMA. Engine numbers beyond the device.
-/
namespace Sys2Proof.PortRows
open Sys2Proof.Machine Sys2Proof.Spec Sys2Proof.Laws Sys2Proof.Sequencer

/-! ## Engine numbers beyond the device (R19) -/

section
variable {s : State} {n : Nat} (h : 36 ≤ n)
include h

theorem slotRow_beyond (f : Lath → Job → State) : slotRow n s f = .fault .noSuchEngine := if_pos h

theorem seqRow_beyond (safe : Bool) (f : Lath → Job → State → State) : seqRow n safe s f = .fault .noSuchEngine := if_pos h

theorem vecRowJ_beyond (reads : List Nat) (ok : Lath → Bool) (f : Lath → Job → State) :
    vecRowJ n reads ok s f = .fault .noSuchEngine := if_pos h

end

/-- Settles O6: the check of the engine number comes first in every slot. -/
theorem microwordBeyondEnginesStops : Obligations.MicrowordBeyondEnginesStops := by
  unfold Obligations.MicrowordBeyondEnginesStops
  intro n s h
  refine ⟨fun next => ?seq, fun rd a b => ?add, fun v => ?vadd, fun v => ?vaddqS, fun m => ?vle, fun m => ?xst, fun p => ?acq,
    fun a b => ?din⟩
  case seq => exact show execMSeq n next s = _ from seqRow_beyond h _ _
  case add =>
    change execMAdd n rd a b s = _
    unfold execMAdd regRow scalarRow
    exact slotRow_beyond h _
  case vadd =>
    change intRow .add n v s = _
    unfold intRow vecRow
    dsimp only
    split <;> exact vecRowJ_beyond h _ _ _
  case vaddqS =>
    change execMVaddqS n v s = _
    unfold execMVaddqS shareWise shareRow
    exact slotRow_beyond h _
  case vle =>
    change execMVle n m s = _
    unfold execMVle memRow
    exact vecRowJ_beyond h _ _ _
  case xst =>
    change execMXst n m s = _
    unfold execMXst xRow
    exact vecRowJ_beyond h _ _ _
  case acq => exact show execMAcq n p s = _ from slotRow_beyond h _
  case din => exact show dmaRow n true a b s = _ from slotRow_beyond h _

/-! ## Claims (R237, R243) -/

/-- A request that asks anew is refused by a claim at its rank or above. -/
theorem rankBad_anew (e : Lath) (k : Nat) : e.rankBad k false = true ↔ ∃ c ∈ e.claims, k ≤ c := by
  simp [Lath.rankBad]

theorem claimable_ok {k : Nat} (low : 1 ≤ k) (high : k ≤ 15) (ne : k ≠ 7) : claimable k = true := decide_eq_true ⟨low, high, ne⟩

/-- The checks that ACQ and REL share. -/
theorem claim_checks {p : PSlot} (arg : p.arg = 0) (vreg : p.vreg = 0) (k : claimable p.res.toNat = true) :
    ¬ (p.arg ≠ 0 ∨ p.vreg ≠ 0 ∨ claimable p.res.toNat = false) := by simp [arg, vreg, k]

/-- The checks of DIN and DOUT before the windows. -/
theorem transfer_checks {xb : BitVec 5} {a off len lim : Nat} (pair : xb ≠ 31) (within : off + len ≤ lim)
    (mapped : rangeMapped a len = true) : ¬ (xb = 31 ∨ lim < off + len ∨ rangeMapped a len = false) := by
  simpa [mapped, within] using pair

/-- Settles O41: each clause is its slot with its checks passed. -/
theorem portOperations : Obligations.PortOperations := by
  unfold Obligations.PortOperations
  rintro s n j _ p _ r rfl rfl
  refine ⟨fun arg vreg low high ne => ?claims, fun free => ?lock, ?unlock, fun res arg may l x draws => ?mget,
    fun g hg res arg fits => ⟨fun key w sh ws x hkey hw draws hsh => ?bload, fun idle => ?bstor⟩,
    fun xa xb a off len ha hoff hlen nxb mapped => ⟨fun within opened => ?din, fun within opened => ?dout, fun outside => ?dinBad⟩⟩
  case claims =>
    have checks := claim_checks arg vreg (claimable_ok low high ne)
    refine ⟨fun below => ?acq, fun above => ?refused, ?rel⟩
    case acq =>
      have free : ¬ (s.lath n).rankBad p.res.toNat false = true := by
        rw [rankBad_anew]
        rintro ⟨c, hc, le⟩
        exact absurd (below c hc) (Nat.not_lt.mpr le)
      exact slotRow_next (show execMAcq n p s = _ from rfl) r ((if_neg checks).trans (if_neg free))
    case refused =>
      exact slotRow_next (show execMAcq n p s = _ from rfl) r ((if_neg checks).trans (if_pos ((rankBad_anew _ _).mpr above)))
    case rel => exact slotRow_next (show execMRel n p s = _ from rfl) r (if_neg checks)
  case lock => exact slotRow_next (show execMLock n {} s = _ from rfl) r (by simp [free])
  case unlock => exact slotRow_next (show execMUnlock n {} s = _ from rfl) r (if_neg (by simp))
  case mget =>
    refine slotRow_next (show execMMget n p s = _ from rfl) r ((if_neg (by simp [res, arg])).trans ?_)
    rw [maskDraw_ok _ _ _ _ _ _ may, draws]
  case bload =>
    subst hg hw hsh
    refine slotRow_next (show execMBload n p s = _ from rfl) r ?_
    rw [if_pos arg, hkey]
    dsimp only
    rw [if_neg (by simpa [res] using fits), draws]
  case bstor =>
    subst hg
    refine slotRow_next (show execMBstor n p s = _ from rfl) r ?_
    dsimp only
    rw [idle, if_neg (by simp), if_neg (by simp only [res, ne_eq, not_true_eq_false, false_or]; omega)]
  case din =>
    subst ha hoff hlen
    refine slotRow_next (show dmaRow n true xa xb s = _ from rfl) r ?_
    exact (if_neg (transfer_checks nxb within mapped)).trans (if_neg (by simp [opened]))
  case dout =>
    subst ha hoff hlen
    refine slotRow_next (show dmaRow n false xa xb s = _ from rfl) r ?_
    exact (if_neg (transfer_checks nxb within mapped)).trans (if_neg (by simp [opened]))
  case dinBad =>
    subst hoff hlen
    exact slotRow_next (show dmaRow n true xa xb s = _ from rfl) r (if_pos (.inr (.inl outside)))

end Sys2Proof.PortRows

/-!
R218-R221, R232-R244. The Sponge port of an engine and the end of its operations and transfers; the events of the engines and
of the Quad arbiter.
-/
namespace Sys2Proof.EngineEvents
open Sys2Proof.Machine Sys2Proof.Spec Sys2Proof.Laws Sys2Proof.Sequencer

section
variable {s : State} {n : Nat} {o : LSpg} {j : Job} (engine : n < 36) (op : (s.lath n).spg = some o) (job : s.jobOn .lath n = some j)
include engine op job

/-- A Sponge operation ends where its core is free and, above level 0, its generator delivers (R219). -/
theorem spongeOp_ends {w : Nat} (hw : w = o.masks (s.lath n))
    (words : w ≠ 0 → s.rngWaits (maskGenOf n) = false ∧ s.rngErr (maskGenOf n) = none)
    (free : s.lockedOut (n / 4) (n % 4) (if w = 0 then [o.core] else [o.core, 7]) = false) :
    exec (.spongeOpDone n) s = .next (((((s.drawMany (maskGenOf n) w).updGen (maskGenOf n) (fun g => g.unbuffer w)).tenures (n / 4)
      (n % 4) 7 w).tenures (n / 4) (n % 4) o.core (o.tenures (s.lath n))).spongeEnd n o) := by
  subst hw
  change execSpongeOpDone n s = _
  unfold execSpongeOpDone
  rw [if_neg (by omega)]
  dsimp only
  rw [op, job]
  dsimp only
  rw [if_neg (fun k => by simp [(words k.1).1] at k), if_neg (by simp [free])]
  by_cases k : o.masks (s.lath n) = 0
  · rw [if_pos k]
  · rw [if_neg k, (words k).2]

end

/-- Settles O42: the port's rows with their checks passed, and the two ends of a Sponge operation. -/
theorem spongePortOperations : Obligations.SpongePortOperations := by
  unfold Obligations.SpongePortOperations
  rintro s n j _ p _ _ issues rfl rfl rfl
  obtain ⟨engine, job, running, go⟩ := id issues
  refine ⟨fun idle core => ⟨fun vreg mode => ?sinit, fun arg bs w hbs hw => ?sabs, fun arg fits => ?ssqz⟩,
    fun busy => ⟨?sinitWaits, ?sabsWaits, ?ssqzWaits⟩,
    fun o c z y w op hw words free hz hc hy put hput => ⟨fun absorb => ?absorbed, fun squeeze out hout l hl => ?squeezed⟩,
    fun transfers bme y hy => ⟨fun b => ?moved, fun er => ?failed⟩⟩
  case sinit =>
    exact slotRow_next (show execMSinit n p s = _ from rfl) issues ((if_neg (by simp [idle])).trans
      (if_neg (by simp only [vreg, core]; simpa using mode)))
  case sabs =>
    subst hbs hw
    exact slotRow_next (show execMSabs n p s = _ from rfl) issues ((if_neg (by simp [idle])).trans (if_neg (by simpa [core] using arg)))
  case ssqz =>
    exact slotRow_next (show execMSsqz n p s = _ from rfl) issues ((if_neg (by simp [idle])).trans
      (if_neg (by simpa [core, arg] using fits)))
  case sinitWaits => exact slotRow_next (show execMSinit n p s = _ from rfl) issues (if_pos busy)
  case sabsWaits => exact slotRow_next (show execMSabs n p s = _ from rfl) issues (if_pos busy)
  case ssqzWaits => exact slotRow_next (show execMSsqz n p s = _ from rfl) issues (if_pos busy)
  case absorbed =>
    subst hz hc hy hput
    rw [spongeOp_ends engine op job hw words free]
    subst hw
    unfold State.spongeEnd
    dsimp only
    rw [absorb]
    rfl
  case squeezed =>
    subst hz hc hy hput hl hout
    rw [spongeOp_ends engine op job hw words free]
    subst hw
    unfold State.spongeEnd
    dsimp only
    rw [squeeze]
    rfl
  case moved =>
    subst hy
    change execDmaDone n (.got b) s = _
    unfold execDmaDone
    rw [if_neg (by omega), job]
    dsimp only
    rw [if_neg (by simp [transfers, bme])]
  case failed =>
    subst hy
    change execDmaDone n (.fail er) s = _
    unfold execDmaDone
    rw [if_neg (by omega), job]
    dsimp only
    rw [if_neg (by simp [transfers, bme])]

/-- Settles O43: each event with its guard passed. -/
theorem engineEventsTakeEffect : Obligations.EngineEventsTakeEffect := by
  unfold Obligations.EngineEventsTakeEffect
  refine ⟨fun s n => ⟨fun hn wiping y hy => ?hawkWiped, fun hn wiping y hy => ?lathWiped, fun hn drains job room => ?preempt,
    fun j r sv hn next save st hid go y hy => ?resume, fun hn job => ?safeMiss, fun q r hq free hfree =>
      ⟨fun hr lock job => ?engineOver, fun low high => ?requesterOver⟩⟩, ?round⟩
  case hawkWiped =>
    subst hy
    change execEngineWipeDone true n s = _
    unfold execEngineWipeDone
    rw [if_pos rfl, if_neg (by simp [wiping]; omega)]
  case lathWiped =>
    subst hy
    change execEngineWipeDone false n s = _
    unfold execEngineWipeDone
    rw [if_neg (by decide), if_neg (by simp [wiping]; omega)]
  case preempt => exact if_pos ⟨hn, drains, job, by rw [room]; rfl⟩
  case resume =>
    subst hy
    change execJobResume n s = _
    unfold execJobResume
    rw [if_neg (by omega), next, save]
    exact if_pos ⟨st, hid, go⟩
  case safeMiss => exact if_pos ⟨hn, job⟩
  case engineOver =>
    subst hfree
    exact (if_neg (by omega)).trans ((if_pos hr).trans (if_pos ⟨lock, job⟩))
  case requesterOver =>
    subst hfree
    exact (if_neg (by omega)).trans ((if_neg (by omega)).trans (if_pos high))
  case round =>
    rintro s q k cyc ready _ _ _ _ hq hk hk' rfl rfl rfl w _ hw rfl rfl _ rfl
    have round : exec (.arbRound q k ready cyc) s = _ := if_neg (show ¬ (9 ≤ q ∨ k = 0 ∨ 16 ≤ k) by omega)
    refine ⟨fun r won => ?_, fun lost => ?_⟩
    · subst won
      rw [round, ← hw]
      rfl
    · subst lost
      rw [round, ← hw]

end Sys2Proof.EngineEvents

/-!
R485-R488, R551, R552, R646. PMBus: a command with data is a read-only row (`State.pmRead`) or a limit (`State.pmLimit`), and each
form has one lemma for each thing that it can answer. JTAG: every instruction sets the instruction register and nothing of the device.
-/
namespace Sys2Proof.PmbusJtag
open Sys2Proof.Machine Sys2Proof.Spec Sys2Proof.Laws

/-! ## Read-only commands -/

/-- A read on a page that the command has. -/
theorem reads {s : State} {b : Bool} {pages : List Nat} {l m : List Byte} {o : Host.Outcome State Fault Refusal}
    (row : o = .next (s.pmRead .read b pages l)) (on : s.pmOn b = true) (page : pages.contains s.pwr.page.toNat = true)
    (e : l = m) : o = .next (s.emit (.smbus m)) := by
  rw [row, pmRead_ok s b pages l on page, e]

/-- The commands that only read. -/
def readOnly : List (PmOp → Instr) :=
  [.operation, .capability, .voutMode, .pmbusRevision, .mfrId, .mfrModel, .statusByte, .statusWord, .statusVout, .statusIout,
    .statusInput, .statusTemperature, .statusMfrSpecific, .readVin, .readIin, .readVout, .readIout, .readTemperature1, .readPout,
    .readPin]

/-- Each of them is a read-only row. -/
theorem readOnly_row (s : State) : ∀ c ∈ readOnly, ∃ b pages l, ∀ op, exec (c op) s = .next (s.pmRead op b pages l) := by
  unfold readOnly
  simp only [List.forall_mem_cons]
  exact ⟨⟨_, _, _, fun op => show execOperation op s = _ from rfl⟩, ⟨_, _, _, fun op => show execCapability op s = _ from rfl⟩,
    ⟨_, _, _, fun op => show execVoutMode op s = _ from rfl⟩, ⟨_, _, _, fun op => show execPmbusRevision op s = _ from rfl⟩,
    ⟨_, _, _, fun op => show execMfrId op s = _ from rfl⟩, ⟨_, _, _, fun op => show execMfrModel op s = _ from rfl⟩,
    ⟨_, _, _, fun op => show execStatusByte op s = _ from rfl⟩, ⟨_, _, _, fun op => show execStatusWord op s = _ from rfl⟩,
    ⟨_, _, _, fun op => show execStatusVout op s = _ from rfl⟩, ⟨_, _, _, fun op => show execStatusIout op s = _ from rfl⟩,
    ⟨_, _, _, fun op => show execStatusInput op s = _ from rfl⟩, ⟨_, _, _, fun op => show execStatusTemperature op s = _ from rfl⟩,
    ⟨_, _, _, fun op => show execStatusMfrSpecific op s = _ from rfl⟩, ⟨_, _, _, fun op => show execReadVin op s = _ from rfl⟩,
    ⟨_, _, _, fun op => show execReadIin op s = _ from rfl⟩, ⟨_, _, _, fun op => show execReadVout op s = _ from rfl⟩,
    ⟨_, _, _, fun op => show execReadIout op s = _ from rfl⟩, ⟨_, _, _, fun op => show execReadTemperature1 op s = _ from rfl⟩,
    ⟨_, _, _, fun op => show execReadPout op s = _ from rfl⟩, ⟨_, _, _, fun op => show execReadPin op s = _ from rfl⟩,
    fun _ h => absurd h List.not_mem_nil⟩

/-! ## Limits -/

section
variable {s : State} {pages : List Nat} {cur lo hi : Int} {raw : Option W16} {put : W16 → State} {o : Host.Outcome State Fault Refusal}

/-- The word of a limit that was written. -/
theorem limit_read {w : W16} (row : o = .next (s.pmLimit .read pages cur raw lo hi put)) (on : s.pmOn false = true)
    (page : pages.contains s.pwr.page.toNat = true) (e : raw = some w) : o = .next (s.emit (.smbus (leBytes 2 w.toNat))) := by
  rw [row]
  unfold State.pmLimit
  rw [if_pos on, if_pos page, e]
  rfl

theorem limit_write {w : W16} (row : o = .next (s.pmLimit (.write w) pages cur raw lo hi put)) (on : s.pmOn false = true)
    (page : pages.contains s.pwr.page.toNat = true) (low : lo ≤ lin11 w) (high : lin11 w ≤ hi) :
    o = .next ((put w).checkLimits s.pwr.page.toNat) := by
  rw [row]
  unfold State.pmLimit
  rw [if_pos on, if_pos page]
  exact congrArg _ (if_pos ⟨low, high⟩)

theorem limit_refused {w : W16} (row : o = .next (s.pmLimit (.write w) pages cur raw lo hi put)) (on : s.pmOn false = true)
    (page : pages.contains s.pwr.page.toNat = true) (out : lin11 w < lo ∨ hi < lin11 w) : o = .next s.pmBad := by
  rw [row]
  unfold State.pmLimit
  rw [if_pos on, if_pos page]
  exact congrArg _ (if_neg (by omega))

theorem limit_off {op : PmOp} (row : o = .next (s.pmLimit op pages cur raw lo hi put)) (off : s.pmOn false = false) :
    o = .next (s.emit .smbusNack) := by
  rw [row]
  unfold State.pmLimit
  rw [if_neg (by simp [off])]

end

/-- Settles O44: each read is a read-only row on a page that it has, or the word of a limit. -/
theorem pmbusReadsAnswer : Obligations.PmbusReadsAnswer := by
  unfold Obligations.PmbusReadsAnswer
  rintro s _ _ vin rfl rfl
  obtain ⟨le7, le6, any⟩ := pages_ok s
  refine ⟨fun awake => ?run, fun p7 => ?dust⟩
  case run =>
    have on := pm_on s vin awake false
    refine ⟨?page, fun p => ?constants, fun p => ?status, fun p => ?rail, fun p => ?input⟩
    case page => exact if_pos on
    case constants =>
      exact ⟨reads (show execOperation .read s = _ from rfl) on (any p) rfl, reads (show execCapability .read s = _ from rfl) on (any p) rfl,
        reads (show execVoutMode .read s = _ from rfl) on (any p) rfl, reads (show execPmbusRevision .read s = _ from rfl) on (any p) rfl,
        reads (show execMfrId .read s = _ from rfl) on (any p) rfl, reads (show execMfrModel .read s = _ from rfl) on (any p) rfl⟩
    case status =>
      exact ⟨reads (show execStatusByte .read s = _ from rfl) on (le7 p) rfl, reads (show execStatusVout .read s = _ from rfl) on (le7 p) rfl,
        reads (show execStatusIout .read s = _ from rfl) on (le7 p) rfl, reads (show execStatusTemperature .read s = _ from rfl) on (le7 p) rfl,
        reads (show execStatusInput .read s = _ from rfl) on (le7 p) rfl,
        reads (show execStatusMfrSpecific .read s = _ from rfl) on (le7 p) rfl, reads (show execReadIin .read s = _ from rfl) on (le7 p) rfl⟩
    case rail =>
      exact ⟨reads (show execReadVout .read s = _ from rfl) on (le6 p) rfl, reads (show execReadIout .read s = _ from rfl) on (le6 p) rfl,
        reads (show execReadPout .read s = _ from rfl) on (le6 p) rfl,
        fun w e => limit_read (show execIoutOcWarnLimit .read s = _ from rfl) on (le6 p) e,
        fun w e => limit_read (show execOtWarnLimit .read s = _ from rfl) on (le6 p) e⟩
    case input =>
      have p7 : [7].contains s.pwr.page.toNat = true := by rw [p]; rfl
      exact ⟨reads (show execReadPin .read s = _ from rfl) on p7 rfl,
        fun w e => limit_read (show execVinOvWarnLimit .read s = _ from rfl) on p7 e,
        fun w e => limit_read (show execVinUvWarnLimit .read s = _ from rfl) on p7 e⟩
  case dust =>
    have on : s.pmOn true = true := by unfold State.pmOn; rw [vin]; rfl
    exact ⟨reads (show execStatusWord .read s = _ from rfl) on (le7 p7) rfl, reads (show execReadVin .read s = _ from rfl) on (le7 p7) rfl,
      reads (show execReadTemperature1 .read s = _ from rfl) on (le7 p7) rfl⟩

/-- Settles O45: PAGE, the four limits, CLEAR_FAULTS; what is refused; telemetry and the Alert Response. -/
theorem pmbusWritesTakeEffect : Obligations.PmbusWritesTakeEffect := by
  unfold Obligations.PmbusWritesTakeEffect
  rintro s _ rfl
  obtain ⟨_, le6, _⟩ := pages_ok s
  refine ⟨fun vin awake => ?run, fun vin => ?off, fun vin n mv ma dc y hn hy => ?sample, fun vin alert => if_pos ⟨vin, alert⟩⟩
  case run =>
    have on := pm_on s vin awake
    refine ⟨fun d known => ?page, fun d low high => ?badPage, fun w p => ?rail, fun w p => ?input, fun w p => ?clearOne, fun w p => ?clearAll,
      if_pos (on false), fun c hc => ?readOnly⟩
    case page => exact (if_pos (on false)).trans (if_pos known)
    case badPage => exact (if_pos (on false)).trans (if_neg (by simp only [high, or_false]; omega))
    case rail =>
      have page := le6 p
      exact ⟨limit_write (show execIoutOcWarnLimit (.write w) s = _ from rfl) (on false) page,
        fun out => limit_refused (show execIoutOcWarnLimit (.write w) s = _ from rfl) (on false) page (.inr out),
        limit_write (show execOtWarnLimit (.write w) s = _ from rfl) (on false) page,
        limit_refused (show execOtWarnLimit (.write w) s = _ from rfl) (on false) page⟩
    case input =>
      have page : [7].contains s.pwr.page.toNat = true := by rw [p]; rfl
      exact ⟨limit_write (show execVinOvWarnLimit (.write w) s = _ from rfl) (on false) page,
        limit_refused (show execVinOvWarnLimit (.write w) s = _ from rfl) (on false) page,
        limit_write (show execVinUvWarnLimit (.write w) s = _ from rfl) (on false) page,
        limit_refused (show execVinUvWarnLimit (.write w) s = _ from rfl) (on false) page⟩
    case clearOne =>
      refine (if_pos (on false)).trans (nx (if_neg (fun k => ?_)))
      rw [k] at p
      exact absurd p (by decide)
    case clearAll => exact (if_pos (on false)).trans (nx (if_pos (BitVec.eq_of_toNat_eq p)))
    case readOnly =>
      obtain ⟨b, pages, l, row⟩ := readOnly_row s c hc
      exact refuses_ok (on b) row
  case off =>
    have silent (b : Bool) : s.pmOn b = false := by simp [State.pmOn, vin]
    have row : ∀ c ∈ readOnly, ∀ op, exec (c op) s = .next (s.emit .smbusNack) := fun c hc op =>
      have ⟨b, _, _, row⟩ := readOnly_row s c hc
      off_ok (silent b) row op
    simp only [readOnly, List.forall_mem_cons] at row ⊢
    obtain ⟨operation, capability, voutMode, pmbusRevision, mfrId, mfrModel, statusByte, statusWord, statusVout, statusIout, statusInput,
      statusTemperature, statusMfrSpecific, readVin, readIin, readVout, readIout, readTemperature1, readPout, readPin, _⟩ := row
    exact ⟨fun op => if_neg (by simp [silent]), operation, fun op => if_neg (by simp [silent]), capability, voutMode,
      fun op => limit_off (show execIoutOcWarnLimit op s = _ from rfl) (silent false),
      fun op => limit_off (show execOtWarnLimit op s = _ from rfl) (silent false),
      fun op => limit_off (show execVinOvWarnLimit op s = _ from rfl) (silent false),
      fun op => limit_off (show execVinUvWarnLimit op s = _ from rfl) (silent false), statusByte, statusWord, statusVout, statusIout,
      statusInput, statusTemperature, statusMfrSpecific, readVin, readIin, readVout, readIout, readTemperature1, readPout, readPin,
      pmbusRevision, mfrId, mfrModel, fun _ h => absurd h List.not_mem_nil⟩
  case sample =>
    subst hy
    exact if_neg (by simp [vin]; omega)

/-! ## JTAG -/

theorem jtagSel_on {s : State} (on : s.tapOn = true) (ir : Byte) (drive : Nat) (tdo : W32) (dbg : Option Nat) :
    s.jtagSel ir drive tdo dbg = { s with jtag := { s.jtag with ir := ir, drive := drive, tdo := tdo, dbg := dbg } } := if_pos on

/-- Settles O46: an instruction of a port that is alive is one selection. -/
theorem jtagInstructionsSelect : Obligations.JtagInstructionsSelect := by
  unfold Obligations.JtagInstructionsSelect
  rintro s on _ rfl
  have sel := jtagSel_on on
  refine ⟨nx (sel ..), fun v => ?preload, fun held => ?held, fun free => ?free, nx (sel ..), ?debug⟩
  case preload =>
    refine nx ((if_pos on).trans ?_)
    rw [sel]
  case held =>
    have drive (ir : Byte) : s.jtagSel ir (jtagDrive ir s.boot.resetHeld) 0 none = s.jtagSel ir (jtagDrive ir true) 0 none := by rw [held]
    exact ⟨nx ((drive 0x00).trans (sel ..)), nx ((drive 0x04).trans (sel ..)), nx ((drive 0x05).trans (sel ..))⟩
  case free =>
    have drive (ir : Byte) : s.jtagSel ir (jtagDrive ir s.boot.resetHeld) 0 none = s.jtagSel ir 0 0 none := by rw [free]; rfl
    exact ⟨nx ((drive 0x00).trans (sel ..)), nx ((drive 0x04).trans (sel ..)), nx ((drive 0x05).trans (sel ..))⟩
  case debug =>
    rintro _ rfl
    exact ⟨nx (sel ..), nx (sel ..), nx (sel ..), nx (sel ..), nx (sel ..), nx (sel ..), nx (sel ..)⟩

end Sys2Proof.PmbusJtag

/-!
R137-R153. Horrov's commands: a command that runs is its row's body in the state in which it is RUNNING, and is answered with what the
body gives (`run_answers`), stays RUNNING (`run_waits`) or fails (`run_fails`). The status and list commands.
-/
namespace Sys2Proof.HorrovCommands
open Sys2Proof.Machine Sys2Proof.Spec Sys2Proof.Laws

section
variable {s : State} {h : Hdr} {ci : CmdInfo} {f : State → Ans} {o : Host.Outcome State Fault Refusal}
  (row : o = .next (s.run h ci f)) (runs : Runs s h ci)
include row runs

/-- A command whose body has the effect `y` and the results `res`. -/
theorem run_answers {y : State} {res : List Byte} (body : f (running s h) = .ok y res) : o = answered h (running s h) y res := by
  rw [row, run_ok s h ci f runs, body]
  rfl

/-- A command that stays RUNNING. -/
theorem run_waits {y : State} (body : f (running s h) = .wait y) : o = waiting y := by
  rw [row, run_ok s h ci f runs, body]
  rfl

/-- A command whose body fails with a status that is not that of a failed read. -/
theorem run_fails {e : Err} (body : f (running s h) = .err e) (status : e.1 ≠ stDmaError) :
    o = .next (serveBad 300 ((running s h).answer h.iss ((running s h).respOf h e))) := by
  rw [row, run_ok s h ci f runs, body]
  exact fin_ok (fail_ok _ h e status)

end

/-- Settles O7: a status command gives its results and the state as it is. -/
theorem statusCommandsAnswer : Obligations.StatusCommandsAnswer := by
  unfold Obligations.StatusCommandsAnswer
  refine ⟨?device, ?object⟩
  case device =>
    rintro s _ h rfl
    refine ⟨fun r => ?devInfo, fun r => ?devStatus, fun r => ?fltStatus, fun r => ⟨fun rail le => ?rail, ?rails⟩, fun r => ?grtStatus,
      fun r => ?tmpStatus, fun r => ?lcyStatus, fun r => ?fwInfo, fun r kind idx u unit => ?engStatus⟩
    case devInfo => exact run_answers (show execDevInfo h s = _ from rfl) r rfl
    case devStatus => exact run_answers (show execDevStatus h s = _ from rfl) r rfl
    case fltStatus => exact run_answers (show execFltStatus h s = _ from rfl) r rfl
    case rail =>
      exact run_answers (show execPwrTelemetry h rail s = _ from rfl) r ((if_neg (by omega)).trans (if_pos le))
    case rails => exact run_answers (show execPwrTelemetry h 0xFF s = _ from rfl) r (if_pos rfl)
    case grtStatus => exact run_answers (show execGrtStatus h s = _ from rfl) r rfl
    case tmpStatus => exact run_answers (show execTmpStatusCmd h s = _ from rfl) r rfl
    case lcyStatus => exact run_answers (show execLcyStatusCmd h s = _ from rfl) r rfl
    case fwInfo => exact run_answers (show execFwInfo h s = _ from rfl) r rfl
    case engStatus => exact run_answers (show execEngStatus h kind idx s = _ from rfl) r (by dsimp only; rw [unit])
  case object =>
    rintro s _ h rfl
    refine ⟨fun r arg v hv => ?fnInfo, fun r arg q hq => ?queInfo, fun r t txn => ?txn, fun r txn => ?noTxn, fun r port le => ?port,
      fun r dir a hdir ha present => ?sa, fun r key k slot => ?key⟩
    case fnInfo =>
      subst hv
      refine run_answers (show execFnInfo h arg s = _ from rfl) r ?_
      change (if target h arg ≠ 0 ∧ ((running s h).fn (target h arg)).st = .absent then Ans.ok _ _ else if target h arg = 0 then _ else _) = _
      by_cases zero : target h arg = 0
      · rw [if_neg (fun k => k.1 zero), if_pos zero, if_pos zero]
        change Ans.ok _ (pack [.u 1 ((running s h).fn (target h arg)).gen.toNat, .u 1 1, .u 2 0, .u 2 (running s h).pfJobs,
          .u 1 ((running s h).queuesOf (target h arg)).length, .u 4 0]) = _
        rw [zero]
      · by_cases absent : ((running s h).fn (target h arg)).st = .absent
        · rw [if_pos ⟨zero, absent⟩, if_neg zero, if_pos absent]
        · rw [if_neg (fun k => absent k.2), if_neg zero, if_neg zero, if_neg absent] <;> rfl
    case queInfo =>
      refine run_answers (show execQueInfo h arg s = _ from rfl) r ?_
      change (match targetQueue (running s h) h arg with
        | none => Ans.err (stBadArg, 16)
        | some k => _) = _
      rw [hq]
      exact (apply_ite (fun l => Ans.ok (running s h) (pack l)) _ _ _).symm
    case txn => exact run_answers (show execTxnStatus h s = _ from rfl) r (by rw [txn])
    case noTxn => exact run_answers (show execTxnStatus h s = _ from rfl) r (by rw [txn])
    case port => exact run_answers (show execPortStatus h port s = _ from rfl) r (if_neg (by omega))
    case sa =>
      refine run_answers (show execSaStatus h dir a s = _ from rfl) r ((if_neg (by omega)).trans (if_neg ?_))
      simp [present]
      omega
    case key => exact run_answers (show execKeyInfo h key s = _ from rfl) r (by dsimp only; rw [slot])

/-- Settles O8: the records that fit, written at once or answered over SMBus; the attestation in its three cases. -/
theorem listAndAttestationCommandsAnswer : Obligations.ListAndAttestationCommandsAnswer := by
  unfold Obligations.ListAndAttestationCommandsAnswer
  refine ⟨?lists, ?attest⟩
  case lists =>
    rintro s _ h out rfl
    refine ⟨?log, fun r mbz valid => ⟨fun first inside room l k hl hk => ?keys, fun room => ?trust⟩⟩
    case log =>
      rintro first _ rfl
      refine ⟨fun r smb k hk => ?smbus, fun r host mbz valid k hk => ?host⟩
      case smbus =>
        have isSmb : (h.iss == .smb) = true := by rw [smb]; rfl
        subst hk
        change execDevLog h first out s = _
        unfold execDevLog
        simp only [isSmb, if_true]
        exact run_answers rfl r rfl
      case host =>
        have notSmb : (h.iss == .smb) = false := by simpa using host
        subst hk
        change execDevLog h first out s = _
        unfold execDevLog
        simp only [notSmb, Bool.false_eq_true, if_false]
        exact run_answers rfl r ((if_neg (by simpa using mbz)).trans (answerBuf_ok _ _ _ _ valid))
    case keys =>
      subst hl hk
      exact run_answers (show execKeyList h first out s = _ from rfl) r ((if_neg (by simpa using mbz)).trans ((if_neg (by omega)).trans
        ((if_neg (by omega)).trans (answerBuf_ok _ _ _ _ valid))))
    case trust =>
      exact run_answers (show execKeyList h 0xFFFF0000 out s = _ from rfl) r ((if_neg (by simpa using mbz)).trans ((if_pos rfl).trans
        ((if_neg (by omega)).trans (answerBuf_ok _ _ _ _ valid))))
  case attest =>
    rintro s _ h challenge rfl r
    refine ⟨fun secret has ready healthy => ?signed, fun hasNone => ?none⟩
    case signed =>
      refine run_answers (show execKeyAttest h challenge s = _ from rfl) r ?_
      dsimp only
      rw [has]
      dsimp only
      rw [if_neg (by simp [ready]), healthy]
    case none =>
      refine run_fails (show execKeyAttest h challenge s = _ from rfl) r (e := (stHandleInvalid, 0)) ?_ (by decide)
      dsimp only
      rw [hasNone]

end Sys2Proof.HorrovCommands

/-!
R66-R69, R78, R96-R101, R131-R136, R149-R152, R170-R181, R559. The stageable commands: outside a transaction each takes effect at once,
the port, SA and budget commands at a commit epoch of their own. Each part has the lemma of its command's effect where the checks
pass (`eff…_ok`); then a transaction, that collects them.
-/
namespace Sys2Proof.StageableCommands
open Sys2Proof.Machine Sys2Proof.Spec Sys2Proof.Laws Sys2Proof.HorrovCommands

/-- The answer of a `port.enable` waits for the standing grant; every other stageable command is answered at once. -/
def IsPortEnable : TCmd → Prop
  | .portEnable _ => True
  | _ => False

section
variable {s : State} {h : Hdr} {ci : CmdInfo} {e : Except Err TCmd} {c : TCmd} {y : State} {res : List Byte}
  {o : Host.Outcome State Fault Refusal} (row : o = .next (s.runT h ci e)) (runs : Runs s h ci) (direct : h.stage = false)
  (txn : (running s h).mbx.txn = none) (cmd : e = .ok c) (body : applyT c (running s h) = .ok (y, res))
include row runs direct txn cmd body

/-- A stageable command that is neither inline nor of the budget. -/
theorem runs_at_once (kind : c.inline = false) : o = answered h (running s h) y res := by
  rw [row, cmd, runT_ok s h ci c runs direct]
  exact fin_ok (direct_plain _ _ h c res txn body kind)

/-- An inline or budget command. -/
theorem runs_at_epoch (kind : c.inline = true) (other : ¬ IsPortEnable c) : o = answered h (running s h) (atEpoch y) res := by
  rw [row, cmd, runT_ok s h ci c runs direct]
  exact fin_ok (direct_inline _ _ h c res txn body kind (fun n k => by subst k; exact other trivial))

end

/-- The bytes of a buffer that was read. -/
theorem read_ok {b : Buf} (mbz : b.mbz = 0) (valid : b.err = none) (off : Nat) : b.read off = .ok b.data := by
  unfold Buf.read
  rw [if_neg (by simp [mbz]), valid]

theorem basic_level {h : Hdr} (level : h.level = 0) : ¬ h.level = 1 := by simp [level]

/-! ## Quotas, permissions, queues and classes -/

/-- The changes of a VF wait while it is in FLR, or until it is created again (R56, R66). -/
theorem defers_iff (f : Fn) : f.defers = true ↔ f.st = .flr ∨ f.reenable = true := by simp [Fn.defers]

theorem effFnQuotaEven_ok {x : State} (counted : x.countedVfs ≠ []) : ∀ y,
    y = setQuotas (fun _ => 0) x.drainVfs (setQuotas (fun _ => min 4096 (61440 / x.countedVfs.length)) x.countedVfs x) →
    effFnQuotaProfile 0 x = .ok (y, leBytes 4 y.quotaSum) := by
  rintro _ rfl
  unfold effFnQuotaProfile
  dsimp only
  rw [if_neg (by simpa using counted)]
  rfl

theorem effFnQuotaVf_ok {x : State} {v q : Nat} (vf : v ≠ 0) (there : (x.fn v).st ≠ .absent) (le : q ≤ 4096)
    (room : x.quotaSum - (x.fn v).quotaSet + q ≤ 61440) : effFnQuotaVf v q x = .ok (x.updFn v (fun f =>
      if f.st = .flr ∨ f.reenable = true then { f with pendQuota := some q } else { f with quota := q, pendQuota := none }),
      leBytes 4 (x.quotaSum - (x.fn v).quotaSet + q)) := by
  unfold effFnQuotaVf State.setQuota
  rw [if_neg (by simp [vf, there]), if_neg (by omega)]
  dsimp only
  rw [if_neg (by omega)]
  simp only [defers_iff]

theorem effFnPerm_ok {x : State} {v : Nat} (p : W32) (vf : v ≠ 0) (there : (x.fn v).st ≠ .absent) : effFnPerm v p x =
    .ok (x.updFn v (fun f => if f.st = .flr ∨ f.reenable = true then { f with pendPerm := some p } else { f with perm := p }), []) := by
  unfold effFnPerm
  rw [if_neg (by simp [vf, there])]
  simp only [defers_iff]

/-- A queue that can be named is in the pool. -/
theorem pool_not_full {x : State} {q : Nat} (le : q ≤ 4095) (unassigned : (x.queue q).assigned = false) (free : x.awaits q = none) :
    x.poolFull = false := by
  have mem : q ∈ List.range 4096 := List.mem_range.mpr (by omega)
  unfold State.poolFull
  rw [List.all_eq_false]
  exact ⟨q, mem, by simp [unassigned, free]⟩

theorem effQueAssign_ok {x : State} {q f slot c : Nat} (le : q ≤ 4095) (unassigned : (x.queue q).assigned = false)
    (free : x.awaits q = none) (there : f = 0 ∨ (x.fn f).st ≠ .absent) (hslot : slot ≤ (if f = 0 then 63 else 15)) (hc : c ≤ 15)
    (slotFree : x.slotTaken f slot = false) : effQueAssign q f slot c x = .ok (
      if f ≠ 0 ∧ (x.fn f).flr = true then x.updFn f (fun y => { y with pendQueues := y.pendQueues ++ [.queAssign q f slot c] })
      else x.updQueue q (fun _ => { assigned := true, fn := f, slot := slot, cls := c }), []) := by
  unfold effQueAssign
  rw [if_neg (by omega), if_neg (by simp [pool_not_full le unassigned free]), if_neg (by simp [unassigned, free]),
    if_neg (fun k => there.elim k.1 (fun present => present k.2)), if_neg (by omega), if_neg (by omega), if_neg (by simp [slotFree])]
  exact (apply_ite (fun z => (Except.ok (z, []) : Eff)) _ _ _).symm

theorem effQueRelease_ok {x : State} {q : Nat} (le : q ≤ 4095) (assigned : (x.queue q).assigned = true)
    (idle : (x.queue q).st = .disabled) (empty : x.inFlight q = false) (free : x.awaits q = none)
    (stays : (x.queue q).leaving = false) : effQueRelease q x = .ok ((x.updQueue q (fun _ => {})).updFn (x.queue q).fn (fun y =>
      { y with vecs := Tbl.upd {} y.vecs (x.queue q).slot (fun w => { w with pend := false }) }), []) := by
  unfold effQueRelease
  rw [if_neg (by omega), free]
  dsimp only
  rw [if_neg (by simp [assigned]), if_neg (by simp [idle, empty]), if_neg (by simp [stays])]

theorem effQueMove_ok {x : State} {q c : Nat} (le : q ≤ 4095) (assigned : (x.queue q).assigned = true) (hc : c ≤ 15)
    (free : x.awaits q = none) (stays : (x.queue q).leaving = false) :
    effQueMove q c x = .ok (x.updQueue q (fun u => { u with cls := c }), []) := by
  unfold effQueMove
  rw [if_neg (by simp [assigned, le]), if_neg (by omega), free]
  dsimp only
  rw [if_neg (by simp [stays])]

theorem effQueClassProfile_eq {x : State} {c : Nat} (hc : c ≤ 15) :
    effQueClassProfile c 0 x = .ok (x.setCls c { weight := 1 }, []) ∧
    effQueClassProfile c 1 x = .ok (x.setCls c { weight := 1, bulk := true }, []) ∧
    effQueClassProfile c 2 x = .ok (x.setCls c { weight := 8 }, []) :=
  ⟨if_neg (by omega), if_neg (by omega), if_neg (by omega)⟩

theorem effQueClassMasks_ok {x : State} {c w : Nat} (ms : List W64) (hc : c ≤ 15) (low : 1 ≤ w) (high : w ≤ 255) :
    effQueClassMasks c w ms x = .ok (x.setCls c { weight := w, masks := some ms }, []) :=
  (if_neg (by omega)).trans (if_neg (by omega))

/-! ## Ports and the budget -/

theorem effPortModeProfile_ok {x : State} {n p : Nat} (hn : n ≤ 7) (disabled : (x.pair n).enabled = false) (hp : p ≤ 5) : ∀ m, m = p % 3 →
    effPortModeProfile n p x = .ok (x.updPair n (fun r =>
      { r with modeSet := true, mode := m, proto := if 3 ≤ p then BitVec.ofNat 8 (2 ^ subCount m - 1) else 0, fc := 2,
               pfcMask := 0xFF, steer := 0, unctrl := if 3 ≤ p then 2 else 1, maxFrame := 9216, beadEtype := 0x88B5,
               xoff := 512 / subCount m / 2, xon := 512 / subCount m * 3 / 8, txPol := 0, rxPol := 0 }), []) := by
  rintro _ rfl
  unfold effPortModeProfile
  rw [if_neg (by omega), if_neg (by omega), if_neg (by simp [disabled])]
  simp only [decide_eq_true_eq]

theorem effPortModeParams_ok {x : State} {n : Nat} {b : List Byte} (hn : n ≤ 7) (disabled : (x.pair n).enabled = false)
    (size : b.length = 32) (params : portParamErr b = none) : effPortModeParams n b x = .ok (x.updPair n (fun r =>
      { r with modeSet := true, mode := fieldLe b 0 1, proto := b.getD 1 0, fc := fieldLe b 2 1, pfcMask := b.getD 3 0,
               steer := fieldLe b 4 1, unctrl := b.getD 5 0, maxFrame := fieldLe b 6 2, beadEtype := BitVec.ofNat 16 (fieldLe b 8 2),
               xoff := fieldLe b 10 2, xon := fieldLe b 12 2, txPol := b.getD 14 0, rxPol := b.getD 15 0 }), []) := by
  unfold effPortModeParams
  rw [if_neg (by omega), if_neg (by omega), params]
  dsimp only
  rw [if_neg (by simp [disabled])]

/-- A pair that is disabled is enabled once the engines and the budget suffice (R149, R152). -/
theorem effPortEnable_ok {x : State} {n : Nat} (hn : n ≤ 7) (disabled : (x.pair n).enabled = false) (mode : (x.pair n).modeSet = true)
    (free : x.held = false) (unprepared : x.lcy.prepared = false) (awake : x.pwr.st ≠ .dustEntry) (seeded : x.grt.st ≠ .unseeded)
    {y : State} (hy : y = x.enablePair n) (engines : y.enabledDirs.length ≤ y.rndPool.length)
    (budget : y.standingSum + wipeReserve ≤ x.flt.target) : effPortEnable n x = .ok (y, []) := by
  unfold effPortEnable
  rw [← hy, if_neg (by omega), if_neg (by simp [disabled]), if_neg (by simp [mode, free, unprepared, awake]), if_neg seeded]
  dsimp only
  rw [if_neg (by omega), if_neg (by omega)]

theorem effPortEnable_again {x : State} {n : Nat} (hn : n ≤ 7) (enabled : (x.pair n).enabled = true) : effPortEnable n x = .ok (x, []) :=
  (if_neg (by omega)).trans (if_pos enabled)

theorem portEnable_runs {s : State} {h : Hdr} {n : Nat} (runs : Runs s h { t := true, len := 1, lenX := 1 }) (direct : h.stage = false) :
    exec (.portEnable h n) s = .next (serveBad 300 ((running s h).directT h (.portEnable n))) := by
  change execPortEnable h n s = _
  unfold execPortEnable
  rw [runT_ok s h _ _ runs direct]

theorem setBudget_ok {x : State} {profile tokens : Nat} {caps : Nat → Nat} (room : x.standingSum + wipeReserve ≤ tokens) :
    x.setBudget profile tokens caps = .ok ({ x with flt := ({ x.flt with profile := profile, configured := tokens,
                                                                         capRender := caps 0, capLath := caps 1, capHawk := caps 2,
                                                                         capSponge := caps 3 }).settle }, []) := if_neg (by omega)

theorem effFltBudgetProfile_eq (x : State) {p : Nat} (hp : p ≤ 3) :
    effFltBudgetProfile p x = x.setBudget p ([1280, 1600, 960, 640].getD p 0) (fun _ => 0xFFFF) := by
  match p, hp with
  | 0, _ => rfl
  | 1, _ => rfl
  | 2, _ => rfl
  | 3, _ => rfl

theorem capOk_iff (c : Nat) : capOk c = true ↔ c = 0xFFFF ∨ (16 ≤ c ∧ c ≤ 1600) := by simp [capOk]

theorem effFltBudgetTokens_ok {x : State} {t c0 c1 c2 c3 : Nat} (low : 640 ≤ t) (high : t ≤ 1600)
    (caps : ∀ c ∈ [c0, c1, c2, c3], c = 0xFFFF ∨ (16 ≤ c ∧ c ≤ 1600)) :
    effFltBudgetTokens t [c0, c1, c2, c3] x = x.setBudget 4 t (fun i => [c0, c1, c2, c3].getD i 0xFFFF) := by
  have ok (c : Nat) (hc : c ∈ [c0, c1, c2, c3]) : capOk c = true := (capOk_iff c).mpr (caps c hc)
  have all : (List.range 4).find? (fun i => !capOk ([c0, c1, c2, c3].getD i 0)) = none := by
    simp [List.range_succ, ok c0, ok c1, ok c2, ok c3]
  unfold effFltBudgetTokens
  rw [if_neg (by omega), all]

/-- Settles O9: each command is its effect with its checks passed, at once or at an epoch of its own. -/
theorem stageableCommandsTakeEffectAtOnce : Obligations.StageableCommandsTakeEffectAtOnce := by
  unfold Obligations.StageableCommandsTakeEffectAtOnce
  refine ⟨?plain, ?inline⟩
  case plain =>
    rintro s _ h rfl direct txn
    refine ⟨fun r => ⟨fun level counted v q y hy => ?even, fun level v q y hy => ?zero,
        fun level p v q sum vf there le hsum room => ?quota⟩, fun r v p vf there => ?perm,
      fun r q f slot c le unassigned free there hslot hc taken => ?assign, fun r q le assigned idle empty free stays => ?release,
      fun r c hc w m0 m1 m2 m3 m4 => ⟨fun level ms => ?profiles, fun level low high p => ?masks⟩,
      fun r q c le assigned hc free stays => ?move⟩
    case even =>
      exact runs_at_once (show execFnQuota h 0 v q s = _ from rfl) r direct txn (congrArg _ (if_neg (basic_level level)))
        (effFnQuotaEven_ok counted y hy) rfl
    case zero =>
      subst hy
      exact runs_at_once (show execFnQuota h 1 v q s = _ from rfl) r direct txn (congrArg _ (if_neg (basic_level level))) rfl rfl
    case quota =>
      subst hsum
      exact runs_at_once (show execFnQuota h p v q s = _ from rfl) r direct txn (congrArg _ (if_pos level))
        (effFnQuotaVf_ok vf there le room) rfl
    case perm => exact runs_at_once (show execFnPerm h v p s = _ from rfl) r direct txn rfl (effFnPerm_ok p vf there) rfl
    case assign =>
      exact runs_at_once (show execQueAssign h q f slot c s = _ from rfl) r direct txn rfl
        (effQueAssign_ok le unassigned free there hslot hc taken) rfl
    case release =>
      exact runs_at_once (show execQueRelease h q s = _ from rfl) r direct txn rfl (effQueRelease_ok le assigned idle empty free stays) rfl
    case profiles =>
      obtain ⟨normal, bulk, fast⟩ := effQueClassProfile_eq (x := running s h) hc
      exact ⟨runs_at_once (show execQueClass h c 0 w ms s = _ from rfl) r direct txn (congrArg _ (if_neg (basic_level level))) normal rfl,
        runs_at_once (show execQueClass h c 1 w ms s = _ from rfl) r direct txn (congrArg _ (if_neg (basic_level level))) bulk rfl,
        runs_at_once (show execQueClass h c 2 w ms s = _ from rfl) r direct txn (congrArg _ (if_neg (basic_level level))) fast rfl⟩
    case masks =>
      exact runs_at_once (show execQueClass h c p w [m0, m1, m2, m3, m4] s = _ from rfl) r direct txn (congrArg _ (if_pos level))
        (effQueClassMasks_ok [m0, m1, m2, m3, m4] hc low high) rfl
    case move =>
      exact runs_at_once (show execQueMove h q c s = _ from rfl) r direct txn rfl (effQueMove_ok le assigned hc free stays) rfl
  case inline =>
    rintro s _ h rfl direct txn
    refine ⟨fun r n hn disabled => ⟨fun level p m b hp hm => ?mode, fun level p b mbz valid size params => ?params⟩,
      fun r n hn k hk => ⟨fun disabled mode free unprepared awake seeded y z hy hz engines budget => ?enable,
        fun enabled held => ?again, ?disable⟩,
      fun r => ⟨fun level p tokens l t caps hp ht room hl => ?profile, fun level p tokens c0 c1 c2 c3 low high room caps => ?tokens⟩⟩
    case mode =>
      exact runs_at_epoch (show execPortMode h n p b s = _ from rfl) r direct txn (if_neg (basic_level level))
        (effPortModeProfile_ok hn disabled hp m hm) rfl id
    case params =>
      exact runs_at_epoch (c := .portModeParams n b.data) (show execPortMode h n p b s = _ from rfl) r direct txn
        ((if_pos level).trans (by rw [read_ok mbz valid]; rfl)) (effPortModeParams_ok hn disabled size params) rfl id
    case enable =>
      have row := portEnable_runs (n := n) r direct
      rw [direct_enable _ _ h n k _ txn (effPortEnable_ok hn disabled mode free unprepared awake seeded hy engines budget) hk, ← hz] at row
      refine ⟨fun granted => ?_, fun waits => ?_⟩
      · rw [row, if_pos granted]
      · rw [row, if_neg (by simp [waits])]
    case again =>
      have row := portEnable_runs (n := n) r direct
      rw [row, direct_enable _ _ h n k _ txn (effPortEnable_again hn enabled) hk, if_pos held]
    case disable =>
      exact runs_at_epoch (show execPortDisable h n s = _ from rfl) r direct txn rfl (c := .portDisable n) (if_neg (by omega)) rfl id
    case profile =>
      subst ht hl
      exact runs_at_epoch (show execFltBudget h p tokens caps s = _ from rfl) r direct txn (congrArg _ (if_neg (basic_level level)))
        ((effFltBudgetProfile_eq _ hp).trans (setBudget_ok room)) rfl id
    case tokens =>
      exact runs_at_epoch (show execFltBudget h p tokens [c0, c1, c2, c3] s = _ from rfl) r direct txn (congrArg _ (if_pos level))
        ((effFltBudgetTokens_ok low high caps).trans (setBudget_ok room)) rfl id

end Sys2Proof.StageableCommands

/-!
R131-R136, R170-R181. The commands on SAs, each with the lemma of its effect; and the transactions that collect stageable commands.
-/
namespace Sys2Proof.SaTransactions
open Sys2Proof.Machine Sys2Proof.Spec Sys2Proof.Laws Sys2Proof.HorrovCommands Sys2Proof.StageableCommands

/-! ## SAs -/

theorem saPlace_ok {x : State} {dir a : Nat} (hdir : dir ≤ 1) (ha : a ≤ 16383) (absent : (x.sa dir a).present = false) :
    x.saPlace dir a = none := (if_neg (by omega)).trans (if_neg (by simp [absent]; omega))

theorem effSaCreateProfile_ok {x : State} {dir a pb suite : Nat} (hdir : dir ≤ 1) (ha : a ≤ 16383) (absent : (x.sa dir a).present = false)
    (sub : x.subMissing pb = false) (le : suite ≤ 5) (fits : x.protoFits pb suite = true)
    (clash : suite < 4 → dir = 1 → x.rxClash (pb % 8) (pb / 8) Sa.wild = false) : effSaCreateProfile dir a pb suite x = .ok (x.addSa dir a
      { suite := suite, pair := pb % 8, sub := pb / 8, flags := if 4 ≤ suite then 0x01 else if dir = 0 then 0x0A else 0x48,
        window := if 4 ≤ suite ∧ dir = 1 then 128 else 0,
        pnWarn := if suite ≤ 1 then 0xC0000000 else 0xC000000000000000 }, []) := by
  unfold effSaCreateProfile
  rw [saPlace_ok hdir ha absent]
  dsimp only
  rw [if_neg (by simp [sub]), if_neg (by simp [fits, le]), if_neg (by simp only [Bool.and_eq_true]; simpa using fun lt one => clash lt one)]
  simp only [decide_eq_true_eq]
  rfl

/-- The epoch that `sa.stage` makes (R175). -/
def newEpoch (x : State) (z : Sa) (dir : Nat) (key : W64) (bytes : List Byte) (an : BitVec 2) (pn : W64) (ssci : W32) (salt : BitVec 96) : Epoch :=
  { st := .staged, serial := x.rdr.epochCount + 1, an := an, spi := if z.isEsp then ssci else 0
    ssci := if isXpn z.suite then ssci else 0
    salt := if z.isEsp then BitVec.ofNat 96 (ofLe (slice bytes (suiteKey z.suite) 4)) else salt
    nextPn := if z.isEsp ∧ dir = 1 then pn - 1 else pn
    key0 := BitVec.ofNat 256 (ofLe (bytes.take (suiteKey z.suite))) ^^^ x.draw.1.setWidth 256, key1 := x.draw.1.setWidth 256
    h0 := Config.ghashKey (bytes.take (suiteKey z.suite)) ^^^ (x.draw.1 >>> 256).setWidth 128, h1 := (x.draw.1 >>> 256).setWidth 128
    slot := key }

/-- The state in which epoch `e` is staged in its free slot. -/
def withEpoch (x : State) (dir a : Nat) (key : W64) (e : Epoch) : State :=
  (({ x.draw.2 with rdr := { x.draw.2.rdr with epochCount := x.draw.2.rdr.epochCount + 1 } } : State).updSa dir a (fun v =>
    v.updEp (if (x.sa dir a).ep0.st = .empty then 0 else 1) (fun _ => e))).epochRef key

section
variable {x : State} {dir a k : Nat} {key : W64} {z : Sa} (hz : z = x.sa dir a) (hdir : dir ≤ 1) (ha : a ≤ 16383) (present : z.present = true)
  (unstaged : z.staged = none) (settled : z.draining = none)
  (handle : x.checkHandle 0 key (if dir = 0 then .enc else .dec) (fun v => v == suiteAlg z.suite) = .ok k)
include hz hdir ha present unstaged settled handle

theorem effSaStage_basic (le : z.suite ≤ 1) {an : BitVec 2} (hn : an = (z.current.map (fun c => (z.ep c).an + 1)).getD 0) :
    effSaStage dir a key none x = .ok (withEpoch x dir a key (newEpoch x z dir key (x.keyBytes k) an 1 0 0),
      [if z.isEsp then 0xFF else an.setWidth 8]) := by
  subst hz hn
  have macsec : (x.sa dir a).isEsp = false := by simp [Sa.isEsp]; omega
  unfold effSaStage
  dsimp only
  rw [if_neg (by omega), if_neg (by simp [present]; omega), if_neg (by simp [unstaged, settled]), if_neg (by omega), if_neg (by simp),
    if_neg (by simp [pnLimit, le]), if_neg (by simp [macsec]), if_neg (by simp), handle]
  unfold withEpoch newEpoch
  rw [macsec]
  cases (x.sa dir a).current <;> rfl

theorem effSaStage_expert {n : Byte} {an : BitVec 2} {pn : W64} {ssci : W32} {salt : BitVec 96} (hn : an = if z.isEsp then 0 else BitVec.ofNat 2 n.toNat)
    (number : z.isEsp = true ∨ n.toNat ≤ 3 ∧ z.current.map (fun i => (z.ep i).an) ≠ some (BitVec.ofNat 2 n.toNat))
    (nonzero : pn ≠ 0) (limit : pn.toNat < pnLimit z.suite z.flags)
    (spi : z.isEsp = true → ssci ≠ 0 ∧ x.spiUsed z.pair z.sub ssci = false) (unsalted : isXpn z.suite = false → salt = 0) :
    effSaStage dir a key (some (n, pn, ssci, salt)) x = .ok (withEpoch x dir a key (newEpoch x z dir key (x.keyBytes k) an pn ssci salt),
      [if z.isEsp then 0xFF else an.setWidth 8]) := by
  subst hz hn
  unfold effSaStage
  dsimp only
  rw [if_neg (by omega), if_neg (by simp [present]; omega), if_neg (by simp [unstaged, settled]), if_neg (by simp)]
  have fresh : ¬ ((!(x.sa dir a).isEsp && (decide (3 < n.toNat) || (x.sa dir a).current.map (fun i => ((x.sa dir a).ep i).an) ==
      some (if (x.sa dir a).isEsp then 0 else BitVec.ofNat 2 n.toNat))) = true) := by
    rcases number with esp | ⟨le, ne⟩
    · simp [esp]
    · cases esp : (x.sa dir a).isEsp
      · simpa [esp, le] using ne
      · simp
  rw [if_neg fresh, if_neg (by simp only [not_or]; exact ⟨nonzero, by omega⟩), if_neg, if_neg, handle]
  · rfl
  · rintro ⟨no, salted⟩
    exact salted (unsalted no)
  · rintro ⟨esp, bad⟩
    obtain ⟨ne, free⟩ := spi esp
    simp only [free, Bool.false_eq_true, or_false] at bad
    exact ne bad

end

theorem effSaCommit_ok {x : State} {dir a i : Nat} (hdir : dir ≤ 1) (ha : a ≤ 16383) (present : (x.sa dir a).present = true)
    (staged : (x.sa dir a).staged = some i) : ∀ y, y = (match (x.sa dir a).current with
      | some c => x.updSa dir a (fun z => z.updEp c (fun e =>
          { e with st := if dir = 0 then .draining else .drainAccept, tCommit := x.clk, overlap := x.rdr.overlap, drain := x.rdr.drain }))
      | none => x) →
    effSaCommit dir a x = .ok (y.updSa dir a (fun z => z.updEp i (fun e => { e with st := .current })), [(x.sa dir a).resAn (some i)]) := by
  rintro _ rfl
  unfold effSaCommit
  dsimp only
  rw [if_neg (by omega), if_neg (by simp [present]; omega), staged] <;> (cases (x.sa dir a).current <;> rfl)

theorem effSaDelete_ok {x : State} {dir a : Nat} (hdir : dir ≤ 1) (ha : a ≤ 16383) (present : (x.sa dir a).present = true) :
    effSaDelete dir a x = .ok (x.deleteSa dir a, []) := (if_neg (by omega)).trans (if_neg (by simp [present]; omega))

theorem effSaTimersMs_ok {x : State} {o d : Nat} (lo : 10 ≤ o) (ho : o ≤ 60000) (le : o ≤ d) (hd : d ≤ 600000) :
    effSaTimersMs o d x = .ok ({ x with rdr := { x.rdr with overlap := o, drain := d } }, []) :=
  (if_neg (by omega)).trans ((if_neg (by omega)).trans (if_neg (by omega)))

/-- Settles O10: each command on SAs is its effect with its checks passed, at an epoch of its own. -/
theorem saCommandsTakeEffect : Obligations.SaCommandsTakeEffect := by
  unfold Obligations.SaCommandsTakeEffect
  rintro s _ h rfl direct txn
  refine ⟨fun r dir a hdir ha absent => ⟨fun level pb suite b sub le fits clash => ?create, fun level pb su b y mbz valid eff => ?params⟩,
    fun r dir a key an pn ssci salt z hdir ha hz present unstaged settled staged hstaged =>
      ⟨fun level le => ?basic, fun level nonzero limit => ⟨fun esp spi free unsalted => ?esp, fun macsec number other unsalted => ?macsec⟩⟩,
    fun r dir a hdir ha present => ⟨fun i staged y hy => ?commit, ?delete⟩,
    fun r => ⟨fun level o d => ⟨?normal, ?fast⟩, fun level p o d lo ho le hd => ?timers⟩⟩
  case create =>
    exact runs_at_epoch (show execSaCreate h dir a pb suite b s = _ from rfl) r direct txn (if_neg (basic_level level))
      (effSaCreateProfile_ok hdir ha absent sub le fits clash) rfl id
  case params =>
    exact runs_at_epoch (c := .saCreateParams dir a b.data) (show execSaCreate h dir a pb su b s = _ from rfl) r direct txn
      ((if_pos level).trans (by rw [read_ok mbz valid]; rfl)) eff rfl id
  case basic =>
    rw [hstaged]
    rintro k _ _ _ _ _ _ handle rfl rfl rfl rfl rfl rfl
    have eff := effSaStage_basic hz hdir ha present unstaged settled handle le rfl
    subst hz
    exact runs_at_epoch (show execSaStage h dir a key an pn ssci salt s = _ from rfl) r direct txn (congrArg _ (if_neg (basic_level level)))
      eff rfl id
  case esp =>
    rw [hstaged]
    rintro k _ _ _ _ _ _ handle rfl rfl rfl rfl rfl rfl
    have eff := effSaStage_expert hz hdir ha present unstaged settled handle (n := an) (ssci := ssci) (if_pos esp).symm (.inl esp) nonzero limit
      (fun _ => ⟨spi, free⟩) (fun _ => unsalted)
    subst hz
    exact runs_at_epoch (show execSaStage h dir a key an pn ssci salt s = _ from rfl) r direct txn (congrArg _ (if_pos level)) eff rfl id
  case macsec =>
    rw [hstaged]
    rintro k _ _ _ _ _ _ handle rfl rfl rfl rfl rfl rfl
    have eff := effSaStage_expert hz hdir ha present unstaged settled handle (n := an) (ssci := ssci) (if_neg (by simp [macsec])).symm
      (.inr ⟨number, other⟩) nonzero limit (fun esp => absurd esp (by simp [macsec])) unsalted
    subst hz
    exact runs_at_epoch (show execSaStage h dir a key an pn ssci salt s = _ from rfl) r direct txn (congrArg _ (if_pos level)) eff rfl id
  case commit =>
    exact runs_at_epoch (show execSaCommit h dir a s = _ from rfl) r direct txn rfl (effSaCommit_ok hdir ha present staged y hy) rfl id
  case delete =>
    exact runs_at_epoch (show execSaDelete h dir a s = _ from rfl) r direct txn rfl (effSaDelete_ok hdir ha present) rfl id
  case normal =>
    exact runs_at_epoch (show execSaTimers h 0 o d s = _ from rfl) r direct txn (congrArg _ (if_neg (basic_level level))) rfl rfl id
  case fast =>
    exact runs_at_epoch (show execSaTimers h 1 o d s = _ from rfl) r direct txn (congrArg _ (if_neg (basic_level level))) rfl rfl id
  case timers =>
    exact runs_at_epoch (show execSaTimers h p o d s = _ from rfl) r direct txn (congrArg _ (if_pos level)) (effSaTimersMs_ok lo ho le hd)
      rfl id

/-! ## Transactions -/

/-- The TXN_ID of the open transaction. -/
theorem txnErr_own {x : State} {t : Txn} {id : W32} (txn : x.mbx.txn = some t) (own : t.id = id) : x.txnErr id = none := by
  unfold State.txnErr
  rw [txn]
  exact if_pos own

/-- A stageable command that is checked after the staged ones is added to the transaction (R132). -/
theorem runT_staged {s z : State} {h : Hdr} {t : Txn} {ci : CmdInfo} {c : TCmd} {y : State} {res : List Byte}
    (txn : (running s h).mbx.txn = some t) (own : t.id = h.txn) (room : t.staged.length < 32768) (staged : h.stage = true)
    (host : h.iss ≠ .smb) (turn : s.canStartCmd h.iss = true) (mode : (running s h).modeErr h.iss ci = none)
    (frame : (running s h).frameErr h ci = none) (before : applyAll 0 t.staged (running s h) = .ok y) (eff : applyT c y = .ok (z, res)) :
    s.runT h ci (.ok c) = serveBad 300 (({ markTxn true [c] (running s h) with
      mbx := { (markTxn true [c] (running s h)).mbx with txn := some { t with staged := t.staged ++ [c] } } } : State).answer h.iss
      { (running s h).okOf h res with staged := true, detail := BitVec.ofNat 32 t.staged.length }) := by
  have now : s.notNow h = none := (if_neg host).trans (if_pos turn)
  unfold State.runT
  rw [now]
  dsimp only
  rw [if_neg (fun k => host k.1), mode]
  dsimp only
  rw [frame]
  dsimp only
  rw [if_pos staged]
  unfold State.stageT
  rw [txnErr_own txn own]
  dsimp only
  rw [txn]
  dsimp only
  rw [if_neg (by omega), before]
  dsimp only
  rw [eff]

/-- Settles O11: the commands of a transaction and its events; a staged command by `runT_staged`. -/
theorem transactionsCollectAndCommit : Obligations.TransactionsCollectAndCommit := by
  unfold Obligations.TransactionsCollectAndCommit
  refine ⟨?events, ?staging⟩
  case events =>
    rintro s _ h rfl
    refine ⟨fun r txn ms le id hid => ?begin, fun r t txn own => ⟨fun n y hn all => ?commit, ?rollback⟩, fun t txn pend y hy => ?timeout,
      fun pend => ?epoch, fun p y z pend undone all hz => ?applied⟩
    case begin =>
      subst hid
      refine run_answers (show execTxnBegin h ms s = _ from rfl) r ((if_neg (by omega)).trans ?_)
      rw [txn]
    case commit =>
      refine run_waits (show execTxnCommit h s = _ from rfl) r ?_
      rw [txnErr_own txn own, txn, hn]
      dsimp only
      rw [all]
    case rollback =>
      refine run_answers (show execTxnRollback h s = _ from rfl) r ?_
      rw [txnErr_own txn own, txn]
    case timeout =>
      subst hy
      change execTxnTimeout s = _
      unfold execTxnTimeout
      rw [txn, pend]
    case epoch =>
      change execCommitEpoch s = _
      unfold execCommitEpoch
      rw [pend]
    case applied =>
      have row : exec .commitEpoch s = if z.commitReady p.cmds then .next (serveBad 300 (z.answerTxn p (y.mbx.epoch + 1)))
          else .next { z with mbx := { z.mbx with pend := some { p with done := some (y.mbx.epoch + 1) } } } := by
        rw [hz]
        change execCommitEpoch s = _
        unfold execCommitEpoch
        rw [pend]
        dsimp only
        rw [if_neg (by simp [undone]), all]
      exact ⟨fun ready => row.trans (if_pos ready), fun waits => row.trans (if_neg (by simp [waits]))⟩
  case staging =>
    rintro s _ h t rfl txn own room staged host turn ci c y z res mode frame before eff _ rfl
    refine ⟨runT_staged txn own room staged host turn mode frame before eff, fun v p hci hc => ?perm, fun d a hci hc => ?delete,
      fun n hci hc => ?disable⟩
    all_goals
      subst hci hc
      rfl

end Sys2Proof.SaTransactions

/-!
R128, R138, R227, R364-R367, R423, R440-R463, R475-R486, R507-R511, R530, R541, R570-R574, R595-R597, R603-R620. The commands that
are not stageable, with input that passes their checks: each is its row's body with the checks resolved.
-/
namespace Sys2Proof.DirectCommands
open Sys2Proof.Machine Sys2Proof.Spec Sys2Proof.Laws Sys2Proof.HorrovCommands Sys2Proof.StageableCommands

/-- An answer that depends on a condition in its state alone. -/
theorem ok_ite {p : Prop} [Decidable p] (a b : State) (res : List Byte) :
    (if p then Ans.ok a res else Ans.ok b res) = Ans.ok (if p then a else b) res := (apply_ite (fun z => Ans.ok z res) p a b).symm

/-- A command that fails after effects. -/
theorem run_bad {s y : State} {h : Hdr} {ci : CmdInfo} {f : State → Ans} {e : Err} {o : Host.Outcome State Fault Refusal}
    (row : o = .next (s.run h ci f)) (runs : Runs s h ci) (body : f (running s h) = .bad y e) : o = .next (serveBad 300 (y.fail h e)) := by
  rw [row, run_ok s h ci f runs, body]
  rfl

/-! ## Keys and contexts -/

theorem freeKey_ok {x : State} {k : Nat} (unused : (x.slot k).epochRefs = 0) (unstaged : (x.slot k).txn = false)
    (owner : (x.slot k).origin ≠ .owner) (root : (x.slot k).origin ≠ .root) :
    x.freeKey k = .ok (x.releaseRun k, (x.slot k).persist) := by
  unfold State.freeKey
  dsimp only
  rw [if_neg (by omega), if_neg (by simp [unstaged]), if_neg (by simp [owner, root])]

/-- Settles O12: each command with the checks of its row passed. -/
theorem keyCommandsTakeEffect : Obligations.KeyCommandsTakeEffect := by
  unfold Obligations.KeyCommandsTakeEffect
  rintro s _ h rfl
  refine ⟨fun r key k slot unused unstaged owner root => ?free,
    fun r usage alg wrap blob k n key y a slot mbz valid form kind hn opens good words alloc => ?importKey,
    fun r rec c n mbz valid pf check erased => ?update, fun r n out may mbz valid room idle unkeyed record => ?exportCtx,
    fun r n idle => ?ctxFree⟩
  case free =>
    refine run_answers (show execKeyFree h key s = _ from rfl) r ?_
    rw [slot]
    dsimp only
    rw [freeKey_ok unused unstaged owner root]
    exact ok_ite _ _ _
  case importKey =>
    subst hn
    refine run_answers (show execKeyImport h usage alg wrap blob s = _ from rfl) r ?_
    dsimp only
    rw [slot]
    dsimp only
    rw [read_ok mbz valid]
    dsimp only
    rw [if_neg (by simp [form]), if_neg (by simp [kind]), opens]
    dsimp only
    rw [if_neg (by simp [good])]
    exact addKey_ok _ _ _ _ words alloc
  case update =>
    refine run_waits (show execKeyUpdate h rec s = _ from rfl) r ?_
    rw [read_ok mbz valid]
    dsimp only
    rw [check]
    dsimp only
    rw [erased, pf]
  case exportCtx =>
    refine run_answers (show execHashExport h n out s = _ from rfl) r ?_
    dsimp only
    rw [if_neg (by rintro ⟨vf, no⟩; exact may.elim vf (by simpa using no)), if_neg (by simp [mbz]), if_neg (by simp [idle]; omega),
      if_neg (by simp [unkeyed])]
    unfold State.writeBuf
    rw [valid]
    dsimp only
    rw [if_neg (by simpa using record)]
  case ctxFree => exact run_answers (show execCtxFree h n s = _ from rfl) r (if_pos idle)

/-! ## Firmware, life cycle and tamper -/

/-- Settles O13. -/
theorem firmwareCommandsTakeEffect : Obligations.FirmwareCommandsTakeEffect := by
  unfold Obligations.FirmwareCommandsTakeEffect
  rintro s _ h rfl
  refine ⟨fun r k b le other mbz valid image => ?stage, fun r k le passed up => ?activate, fun r b n pf mbz valid set up => ?putty,
    fun r b i y mbz valid st image hi hy => ?recover⟩
  case stage =>
    refine run_answers (show execFwStage h k b true s = _ from rfl) r ((if_neg (by omega)).trans ?_)
    rw [read_ok mbz valid]
    dsimp only
    rw [image]
    rfl
  case activate =>
    exact run_answers (show execFwActivate h k s = _ from rfl) r ((if_neg (by simp [passed]; omega)).trans (if_neg (by simp [up])))
  case putty =>
    refine run_waits (show execFwPutty h b s = _ from rfl) r ?_
    dsimp only
    rw [read_ok mbz valid, pf]
    dsimp only
    rw [set]
    exact if_neg (by simp [up])
  case recover =>
    subst hi
    refine run_answers (show execFwRecover h b true s = _ from rfl) r ((if_neg st).trans ?_)
    rw [read_ok mbz valid]
    dsimp only
    rw [image, hy]
    simp only [if_true, beq_iff_eq]

/-- Settles O14. -/
theorem lifeCycleCommandsTakeEffect : Obligations.LifeCycleCommandsTakeEffect := by
  unfold Obligations.LifeCycleCommandsTakeEffect
  rintro s _ h b rfl r
  refine ⟨fun n w c pf mbz valid request => ?advance, fun early => ?all, fun late mbz valid token up scope hi y z hscope hhi hy hz => ?debug⟩
  case advance =>
    refine run_waits (show execLcyAdvance h b w c s = _ from rfl) r ?_
    dsimp only
    rw [read_ok mbz valid, pf]
    dsimp only
    rw [request]
  case all => exact run_answers (show execLcyDebug h b s = _ from rfl) r (if_pos early)
  case debug =>
    refine run_answers (show execLcyDebug h b s = _ from rfl) r ((if_neg (by omega)).trans ?_)
    rw [read_ok mbz valid]
    dsimp only
    rw [token]
    dsimp only
    rw [if_neg (by simp [up]), hz, hy, hscope, hhi]

/-- Settles O15. -/
theorem tamperCommandsTakeEffect : Obligations.TamperCommandsTakeEffect := by
  unfold Obligations.TamperCommandsTakeEffect
  rintro s _ h rfl up
  refine ⟨fun r b mbz valid record => ⟨?verified, ?failed⟩, fun r source le detected y hy up' => ⟨?plain, ?remains⟩⟩
  case verified =>
    refine run_answers (show execTmpClear h b true s = _ from rfl) r ?_
    rw [read_ok mbz valid]
    dsimp only
    rw [record]
    exact if_pos (by simp [up])
  case failed =>
    refine run_bad (show execTmpClear h b false s = _ from rfl) r ?_
    rw [read_ok mbz valid]
    dsimp only
    rw [record]
    rfl
  case plain =>
    refine run_answers (show execTmpTest h source detected false s = _ from rfl) r ((if_neg (by omega)).trans ?_)
    simp [up, hy]
  case remains =>
    refine run_answers (show execTmpTest h source detected true s = _ from rfl) r ((if_neg (by omega)).trans ?_)
    simp only [up, Bool.not_false, Bool.and_true, ← hy, up', true_and]

/-! ## The device, Scrim and power -/

/-- Settles O16. -/
theorem deviceAndScrimCommandsTakeEffect : Obligations.DeviceAndScrimCommandsTakeEffect := by
  unfold Obligations.DeviceAndScrimCommandsTakeEffect
  refine ⟨?device, ?clear⟩
  case device =>
    rintro s _ h rfl
    refine ⟨fun r => ⟨?expertOff, ?expertOn⟩, fun r => ⟨fun level p c k q le => ?profile, fun level p c k q rank quiet y hy => ?rank,
      fun txn pending pairs p t ms basic expert le => ?state⟩, fun r alarm y hy => ?wake⟩
    case expertOff => exact run_answers (show execDevExpert h 0 s = _ from rfl) r rfl
    case expertOn => exact run_answers (show execDevExpert h 1 s = _ from rfl) r rfl
    case profile =>
      exact run_answers (show execScrConfig h p c k q s = _ from rfl) r ((if_neg (basic_level level)).trans (if_neg (by omega)))
    case rank =>
      refine run_answers (show execScrConfig h p c k q s = _ from rfl) r ((if_pos level).trans ?_)
      have rankOk : (if c = 0xFFFF ∧ k = 0xFF then none else scrRankErr c k) = none := by
        split
        · rfl
        · exact rank.resolve_left ‹_›
      rw [rankOk, hy]
      exact if_neg (fun no => no quiet)
    case state =>
      refine run_answers (show execPwrState h p t ms s = _ from rfl) r ?_
      have argOk : (if h.level = 1 then
          (if t ≠ 2 then some (stBadArg, 16) else if ms < 100 ∨ 3600000 < ms then some (stBadArg, 20) else none)
          else if p = 0 then none else some (stBadArg, 16)) = (none : Option Err) := by
        by_cases level : h.level = 1
        · obtain ⟨target, low, high⟩ := expert level
          rw [if_pos level, if_neg (by simp [target]), if_neg (by omega)]
        · have zero : h.level = 0 := by bv_omega
          rw [if_neg level, if_pos (basic zero)]
      have disabled : ¬ ((List.range 8).any (fun n => ((running s h).pair n).enabled) = true) := by simpa using pairs
      dsimp only
      rw [argOk]
      dsimp only
      rw [if_neg disabled, if_neg (by simp [txn]), if_neg (by simp [pending])]
    case wake =>
      subst hy
      refine run_answers (show execPwrWake h alarm s = _ from rfl) r ?_
      simp only [Bool.and_eq_true, decide_eq_true_eq, bne_iff_ne]
  case clear =>
    rintro s _ h rfl r cause known l y z hl hy hz
    subst hl
    refine run_answers (show execScrClear h cause s = _ from rfl) r ((if_neg (by omega)).trans ?_)
    rw [hz, hy]

/-! ## Grit and the engines -/

/-- Settles O17. -/
theorem gritAndEngineCommandsTakeEffect : Obligations.GritAndEngineCommandsTakeEffect := by
  unfold Obligations.GritAndEngineCommandsTakeEffect
  refine ⟨?grit, ?engines⟩
  case grit =>
    rintro s _ h rfl r target le
    refine ⟨?pass, fun y z n hy hn hz => ?fail⟩
    case pass => exact run_answers (show execGrtKat h target true s = _ from rfl) r (if_neg (by omega))
    case fail =>
      rw [← fail_ok z h (stRngFail, z.healthy) (show stRngFail ≠ stDmaError by decide)]
      refine run_bad (show execGrtKat h target false s = _ from rfl) r ((if_neg (by omega)).trans ?_)
      rw [hz, hy, hn]
      by_cases zero : target = 0
      · simp only [zero, if_true, Bool.false_eq_true, if_false]
      · simp only [zero, if_false, Bool.false_eq_true]
  case engines =>
    rintro s _ h rfl
    refine ⟨fun r kind idx u y unit there hy => ?retire, fun n pf => ⟨fun r kind idx u unit there => ⟨fun new room => ?kat, fun waits => ?join⟩,
      fun r y hy => ?margin, fun r port lane sub y hp hl enabled free hsub hy => ?recal⟩⟩
    case retire =>
      refine run_answers (show execEngRetire h kind idx s = _ from rfl) r ?_
      dsimp only
      rw [unit]
      dsimp only
      rw [if_neg there, hy]
    case kat =>
      refine run_waits (show execEngKat h kind idx s = _ from rfl) r ?_
      dsimp only
      rw [unit, pf]
      dsimp only
      rw [if_neg there, if_neg (by simpa using new), if_neg (by omega)]
    case join =>
      refine run_waits (show execEngKat h kind idx s = _ from rfl) r ?_
      dsimp only
      rw [unit, pf]
      dsimp only
      rw [if_neg there, if_pos (by simpa using waits)]
    case margin =>
      subst hy
      refine run_waits (show execEngMargin h s = _ from rfl) r ?_
      dsimp only
      rw [pf]
    case recal =>
      refine run_waits (show execPortRecal h port lane 1 s = _ from rfl) r ?_
      dsimp only
      rw [if_neg (by omega), if_neg (by omega), if_neg (by omega), if_neg (by simp [enabled]), if_neg (by simp [free]), pf, hy, hsub]

/-- Settles O18. -/
theorem opFamilyCommandsBecomeJobs : Obligations.OpFamilyCommandsBecomeJobs := by
  unfold Obligations.OpFamilyCommandsBecomeJobs
  rintro s _ h n d li lo gi so y rfl r pf awake bme hy checks
  have may : ¬ ((s.fn 0).d3hot = true ∨ ((d.flags.getLsbD 1 = true ∨ d.flags.getLsbD 2 = true) ∧ (s.fn 0).bme = false)) := by
    rintro (k | ⟨k, no⟩)
    · exact absurd k (by simp [awake])
    · rcases bme with bme | ⟨one, two⟩
      · exact absurd no (by simp [bme])
      · rw [one, two] at k
        exact absurd k (by decide)
  have row (f : State → Ans) (hf : exec (.opFamily h d.opcode d li lo) s =
      if (s.fn 0).d3hot ∨ ((d.flags.getLsbD 1 ∨ d.flags.getLsbD 2) ∧ (s.fn 0).bme = false) then .next s
      else .next (s.run h { len := 64, lenX := 64 } f)) : exec (.opFamily h d.opcode d li lo) s =
        .next (s.run h { len := 64, lenX := 64 } f) := hf.trans (if_neg may)
  refine ⟨fun nop => ?nop, fun op z job => ?job⟩
  case nop =>
    refine run_waits (row _ (show execOpFamily h d.opcode d li lo s = _ from rfl)) r ?_
    dsimp only
    rw [if_neg (by simp), ← hy, checks]
    dsimp only
    rw [if_pos nop, pf]
  case job =>
    refine run_waits (row _ (show execOpFamily h d.opcode d li lo s = _ from rfl)) r ?_
    dsimp only
    rw [if_neg (by simp), ← hy, checks]
    dsimp only
    rw [if_neg (by simp [op]), pf]
    dsimp only
    rw [job]

end Sys2Proof.DirectCommands

/-!
R9-R15, R36, R48-R57, R74, R142, R144, R204, R537. Host accesses. A read of a BAR or of configuration space has one lemma for each
thing that the device can answer; then an offset's register is looked up, and so is what a read of it clears.
-/
namespace Sys2Proof.HostAccess
open Sys2Proof.Machine Sys2Proof.Spec Sys2Proof.Laws

/-! ## Reads of BAR0 -/

section
variable {s : State} {f o size : Nat} (up : s.pcie.linkUp = true) (isOpen : s.barOpen f = true)
include up isOpen

theorem readBar_misaligned (bad : (size ≠ 4 ∧ size ≠ 8) ∨ o % size ≠ 0) : s.readBar f o size = (s.readReply f 0).report 32 f := by
  unfold State.readBar
  rw [if_neg (by simp [up]), if_neg (by simp [isOpen]), if_pos bad]

theorem readBar2_misaligned (bad : (size ≠ 4 ∧ size ≠ 8) ∨ o % size ≠ 0) : s.readBar2 f o size = (s.readReply f 0).report 32 f := by
  unfold State.readBar2
  rw [if_neg (by simp [up]), if_neg (by simp [isOpen]), if_pos bad]

section
variable (aligned : (size = 4 ∨ size = 8) ∧ o % size = 0) (may : f ≠ 0 ∨ inWindow o = false ∨ s.mbx.expert = true)
include aligned may

omit up isOpen in
/-- An aligned read outside the windows, or with the expert level enabled, reaches the registers (R36). -/
theorem readBar_may : ¬ ((size ≠ 4 ∧ size ≠ 8) ∨ o % size ≠ 0) ∧
    ¬ (f = 0 ∧ s.mbx.undercoat = false ∧ inWindow o = true ∧ s.mbx.expert = false) := by
  refine ⟨by omega, ?_⟩
  rintro ⟨pf, _, window, basic⟩
  rcases may with may | may | may
  · exact may pf
  · exact absurd window (by simp [may])
  · exact absurd basic (by simp [may])

theorem readBar_some {v : Nat} {t : State} (reg : s.readReg f o size = (some v, t)) : s.readBar f o size = t.readReply f v := by
  obtain ⟨place, level⟩ := readBar_may (s := s) aligned may
  unfold State.readBar
  rw [if_neg (by simp [up]), if_neg (by simp [isOpen]), if_neg place, if_neg level, reg]

theorem readBar_none {t : State} (reg : s.readReg f o size = (none, t)) : s.readBar f o size = (t.readReply f 0).report 33 f := by
  obtain ⟨place, level⟩ := readBar_may (s := s) aligned may
  unfold State.readBar
  rw [if_neg (by simp [up]), if_neg (by simp [isOpen]), if_neg place, if_neg level, reg]

end

omit up isOpen in
theorem readReg_four : s.readReg f o 4 = s.read32 f o := by
  unfold State.readReg
  split
  · contradiction
  · contradiction
  · rfl

theorem readBar_word {v : Nat} (aligned : o % 4 = 0) (may : f ≠ 0 ∨ inWindow o = false ∨ s.mbx.expert = true) (reg : s.reg f o = .w32 v) :
    s.readBar f o 4 = (s.readEffect f o).readReply f v := by
  refine readBar_some up isOpen ⟨.inl rfl, aligned⟩ may (readReg_four.trans ?_)
  unfold State.read32
  rw [reg]

theorem readBar_long {v : Nat} (aligned : o % 8 = 0) (may : f ≠ 0 ∨ inWindow o = false ∨ s.mbx.expert = true) (reg : s.reg f o = .w64 v) :
    s.readBar f o 8 = (s.readEffect f o).readReply f v := by
  refine readBar_some up isOpen ⟨.inr rfl, aligned⟩ may ?_
  unfold State.readReg
  rw [reg]
  rfl

/-- A 32-bit read of a lower half latches the upper one (R14). -/
theorem readBar_lower {v : Nat} (aligned : o % 4 = 0) (may : f ≠ 0 ∨ inWindow o = false ∨ s.mbx.expert = true) (reg : s.reg f o = .w64 v) :
    s.readBar f o 4 = ((s.readEffect f o).updFn f (fun x =>
      { x with upper := Tbl.set none x.upper o (some (BitVec.ofNat 32 (v / 2 ^ 32))) })).readReply f (v % 2 ^ 32) := by
  refine readBar_some up isOpen ⟨.inl rfl, aligned⟩ may (readReg_four.trans ?_)
  unfold State.read32
  rw [reg]

theorem readBar_hole (aligned : o % 8 = 0) (may : f ≠ 0 ∨ inWindow o = false ∨ s.mbx.expert = true) (reg : s.reg f o = .hole) :
    s.readBar f o 4 = (s.readReply f 0).report 33 f := by
  refine readBar_none up isOpen ⟨.inl rfl, by omega⟩ may (readReg_four.trans ?_)
  unfold State.read32
  rw [reg]
  exact if_neg (by omega)

end

theorem readBar_closed {s : State} {f o size : Nat} (up : s.pcie.linkUp = true) (closed : s.barOpen f = false) :
    s.readBar f o size = s.emit (.readUr f) ∧ s.readBar2 f o size = s.emit (.readUr f) :=
  ⟨(if_neg (by simp [up])).trans (if_pos closed), (if_neg (by simp [up])).trans (if_pos closed)⟩

/-- A register of the status pages, at a literal offset, with what a read of it clears. -/
theorem device_word {s : State} {o v : Nat} {t : State} (up : s.pcie.linkUp = true) (isOpen : s.barOpen 0 = true) (aligned : o % 4 = 0)
    (place : inWindow o = false) (reg : s.reg 0 o = .w32 v) (effect : s.readEffect 0 o = t) : s.readBar 0 o 4 = t.readReply 0 v := by
  rw [readBar_word up isOpen aligned (.inr (.inl place)) reg, effect]

theorem device_long {s : State} {o v : Nat} {t : State} (up : s.pcie.linkUp = true) (isOpen : s.barOpen 0 = true) (aligned : o % 8 = 0)
    (place : inWindow o = false) (reg : s.reg 0 o = .w64 v) (effect : s.readEffect 0 o = t) : s.readBar 0 o 8 = t.readReply 0 v := by
  rw [readBar_long up isOpen aligned (.inr (.inl place)) reg, effect]

theorem window_high {o : Nat} (h : inWindow o = true) : 0x02000000 ≤ o := by
  simp only [inWindow, List.any_cons, List.any_nil, Bool.or_false, Bool.or_eq_true, decide_eq_true_eq] at h
  omega

/-- A read of a window clears nothing. -/
theorem readEffect_window {s : State} {o : Nat} (h : inWindow o = true) : s.readEffect 0 o = s := by
  have high := window_high h
  unfold State.readEffect
  rw [if_pos rfl]
  split <;> first | omega | exact if_neg (by omega)

/-! ## Queue pages -/

/-- The register of a queue page that stands at offset `k` of it. -/
theorem reg_page {s : State} {f p q k : Nat} (page : Page s f p q) (small : k < 0xC00) : s.reg f (0x1000 * p + k) = s.queueReg q k := by
  obtain ⟨_, _, at_, pf, vf⟩ := page
  have div : (0x1000 * p + k) / 0x1000 = p := by omega
  have mod : (0x1000 * p + k) % 0x1000 = k := by omega
  unfold State.reg
  by_cases hf : f = 0
  · subst hf
    obtain ⟨le, runs⟩ := pf rfl
    rw [if_pos rfl, if_neg (by omega), if_neg (by omega), if_neg (by simp [runs]), if_pos (by omega), div, mod, at_]
  · have le := vf hf
    rw [if_neg hf, if_neg (by omega), if_pos (by omega), div, mod, at_]

theorem pageAt_page {s : State} {f p q k : Nat} (page : Page s f p q) (small : k < 0xC00) : s.pageAt f (0x1000 * p + k) = some (q, p) := by
  obtain ⟨_, _, at_, pf, vf⟩ := page
  have div : (0x1000 * p + k) / 0x1000 = p := by omega
  unfold State.pageAt
  by_cases hf : f = 0
  · subst hf
    obtain ⟨le, runs⟩ := pf rfl
    rw [if_pos (by simp [runs]; omega), div, at_]
    rfl
  · have le := vf hf
    rw [if_pos (by simp [hf]; omega), div, at_]
    rfl

theorem page_outside_windows {f p q k : Nat} {s : State} (page : Page s f p q) (small : k < 0xC00) :
    f ≠ 0 ∨ inWindow (0x1000 * p + k) = false ∨ s.mbx.expert = true := by
  obtain ⟨_, _, _, pf, _⟩ := page
  by_cases hf : f = 0
  · refine .inr (.inl ?_)
    have le := (pf hf).1
    cases h : inWindow (0x1000 * p + k) with
    | false => rfl
    | true =>
      have := window_high h
      omega
  · exact .inl hf

theorem readEffect_jobs {s : State} {f p q : Nat} (page : Page s f p q) :
    s.readEffect f (0x1000 * p + 0x48) = s.updQueue q (fun x => { x with jobsCnt := 0 }) := by
  obtain ⟨_, _, at_, pf, vf⟩ := page
  have div : (0x1000 * p + 0x48) / 0x1000 = p := by omega
  unfold State.readEffect
  by_cases hf : f = 0
  · subst hf
    have le := (pf rfl).1
    rw [if_pos rfl]
    split <;> first | omega | rw [if_pos (by omega), div, at_]
  · have le := vf hf
    rw [if_neg hf, if_pos (by omega), div, at_]

/-- Settles O19: the counters, the event FIFOs, the latch, the windows, and what has no register. -/
theorem registerReadsAnswerTheHost : Obligations.RegisterReadsAnswerTheHost := by
  unfold Obligations.RegisterReadsAnswerTheHost
  refine ⟨fun s => ⟨fun up isOpen => ?counters, fun f p q page => ?jobs⟩, fun s up isOpen =>
    ⟨fun e t saev => ?saev, fun empty => ?saevEmpty, fun e best => ?evq, fun empty => ?evqEmpty, ?evqHi⟩, fun s up =>
    ⟨fun f o v isOpen aligned may reg => ?lower, fun o size isOpen window runs hsize aligned =>
        ⟨fun basic => ?closed, fun v expert reg four => ?window32, fun v expert reg eight => ?window64⟩,
      fun f o isOpen aligned may reg => ?hole, fun f o size isOpen not4 not8 b hb => ?size, fun f o size b closed hb => ?unsupported⟩⟩
  case counters =>
    exact ⟨nx (device_word up isOpen rfl rfl rfl rfl), nx (device_word up isOpen rfl rfl rfl rfl), nx (device_word up isOpen rfl rfl rfl rfl),
      nx (device_word up isOpen rfl rfl rfl rfl), nx (device_word up isOpen rfl rfl rfl rfl), nx (device_word up isOpen rfl rfl rfl rfl),
      nx (device_word up isOpen rfl rfl rfl rfl), nx (device_word up isOpen rfl rfl rfl rfl), nx (device_word up isOpen rfl rfl rfl rfl),
      nx (device_word up isOpen rfl rfl rfl rfl), nx (device_word up isOpen rfl rfl rfl rfl), nx (device_word up isOpen rfl rfl rfl rfl)⟩
  case jobs =>
    refine nx ?_
    rw [readBar_word page.1 page.2.1 (by omega) (page_outside_windows page (by omega)) ((reg_page page (by omega)).trans rfl),
      readEffect_jobs page]
  case saev =>
    refine nx (device_long up isOpen rfl rfl ((show s.reg 0 0x01204000 = s.saevReg 0 from rfl).trans ?_) ?_)
    · unfold State.saevReg
      rw [saev]
      rfl
    · show s.popSaev = _
      unfold State.popSaev
      rw [saev]
  case saevEmpty =>
    refine nx (device_long up isOpen rfl rfl ((show s.reg 0 0x01204000 = s.saevReg 0 from rfl).trans ?_) ?_)
    · unfold State.saevReg
      rw [empty]
      rfl
    · show s.popSaev = _
      unfold State.popSaev
      rw [empty]
  case evq =>
    refine nx (device_long up isOpen rfl rfl ((show s.reg 0 0x01203010 = s.evqReg 0x10 from rfl).trans ?_) ?_)
    · unfold State.evqReg
      rw [best]
      rfl
    · show s.popEvq = _
      unfold State.popEvq
      rw [best]
  case evqEmpty =>
    refine nx (device_long up isOpen rfl rfl ((show s.reg 0 0x01203010 = s.evqReg 0x10 from rfl).trans ?_) ?_)
    · unfold State.evqReg
      rw [empty]
      rfl
    · show s.popEvq = _
      unfold State.popEvq
      rw [empty]
      rfl
  case evqHi => exact nx (device_long up isOpen rfl rfl rfl rfl)
  case lower => exact nx (readBar_lower up isOpen aligned may reg)
  case closed =>
    refine nx ((if_neg (by simp [up])).trans ((if_neg (by simp [isOpen])).trans ((if_neg (by omega)).trans (if_pos ?_))))
    exact ⟨rfl, runs, window, basic⟩
  case window32 =>
    subst four
    refine nx ?_
    rw [readBar_word up isOpen aligned (.inr (.inr expert)) reg, readEffect_window window]
  case window64 =>
    subst eight
    refine nx ?_
    rw [readBar_long up isOpen aligned (.inr (.inr expert)) reg, readEffect_window window]
  case hole => exact nx (readBar_hole up isOpen aligned may reg)
  case size =>
    rcases hb with rfl | rfl
    · exact nx (readBar_misaligned up isOpen (.inl ⟨not4, not8⟩))
    · exact nx (readBar2_misaligned up isOpen (.inl ⟨not4, not8⟩))
  case unsupported =>
    obtain ⟨bar0, bar2⟩ := readBar_closed (o := o) (size := size) up closed
    rcases hb with rfl | rfl
    · exact nx bar0
    · exact nx bar2

end Sys2Proof.HostAccess

/-!
R43-R57, R64, R82, R117-R123, R142, R144, R547, R634. Configuration space and ARONG_RSP as the host reads them; writes to registers
without a row of their own; the events of the mailboxes.
-/
namespace Sys2Proof.HostWrites
open Sys2Proof.Machine Sys2Proof.Spec Sys2Proof.Laws Sys2Proof.HostAccess

/-! ## Configuration space and ARONG_RSP -/

section
variable {s : State} {f o : Nat} (up : s.pcie.linkUp = true)
include up

theorem readCfg_absent {size : Nat} (hf : f ≠ 0) (absent : (s.fn f).st = .absent) : s.readCfg f o size = s.emit (.readUr f) :=
  (if_neg (by simp [up])).trans (if_pos ⟨hf, absent⟩)

/-- A function in FLR, or not ready, answers Request Retry Status (R54, R64). -/
theorem readCfg_retry {size : Nat} (there : f = 0 ∨ (s.fn f).st ≠ .absent) (busy : s.cfgOpen f = false) :
    s.readCfg f o size = s.emit (.cfgRetry f) :=
  (if_neg (by simp [up])).trans ((if_neg (fun k => there.elim k.1 (fun present => present k.2))).trans (if_pos busy))

/-- A dword of configuration space. -/
theorem readCfg_dword {v : W32} (isOpen : s.cfgOpen f = true) (aligned : o % 4 = 0) (dword : s.cfgDword f o = v) :
    s.readCfg f o 4 = s.emit (.readData f (BitVec.ofNat 64 v.toNat)) := by
  have there : ¬ (f ≠ 0 ∧ (s.fn f).st = .absent) := by
    rintro ⟨hf, absent⟩
    simp [State.cfgOpen, hf, absent] at isOpen
  have place : o / 4 * 4 = o := by omega
  have small : v.toNat % 2 ^ (8 * 4) = v.toNat := Nat.mod_eq_of_lt v.isLt
  unfold State.readCfg
  rw [if_neg (by simp [up]), if_neg there, if_neg (by simp [isOpen]), place, dword, aligned, Nat.mul_zero, Nat.pow_zero, Nat.div_one, small]

end

theorem cfg_busy {s : State} {f : Nat} (h : (s.fn f).flr = true ∨ (s.fn f).rrs = true) : s.cfgOpen f = false := by
  rcases h with h | h <;> simp [State.cfgOpen, h]

/-- Settles O20: the dwords with a value of the spec or the state; ARONG_RSP in its three forms. -/
theorem configurationAndResponseReads : Obligations.ConfigurationAndResponseReads := by
  unfold Obligations.ConfigurationAndResponseReads
  intro s
  refine ⟨fun up => ⟨fun isOpen o v field => ?pf, fun f hf isOpen o v field => ?vf, fun f o size there busy => ?retry,
    fun f o size hf absent => ?absent⟩, fun audible f o size => ⟨fun dead => ?dead, fun alive done => ?done, fun alive busy => ?busy⟩,
    fun mute f o size => ?mute⟩
  case pf =>
    have dword : o % 4 = 0 ∧ s.cfgDword 0 o = v := by
      simp only [List.mem_cons, List.not_mem_nil, or_false] at field
      rcases field with ⟨rfl, rfl⟩ | ⟨rfl, rfl⟩ | ⟨rfl, rfl⟩ | ⟨rfl, rfl⟩ | ⟨rfl, rfl⟩ | ⟨rfl, rfl⟩ | ⟨rfl | rfl | rfl, rfl⟩ |
        ⟨rfl, rfl⟩ | ⟨rfl, rfl⟩ | ⟨rfl, rfl⟩ | ⟨rfl, rfl⟩ | ⟨rfl, rfl⟩ | ⟨rfl, rfl⟩ <;> exact ⟨rfl, rfl⟩
    exact nx (readCfg_dword up isOpen dword.1 dword.2)
  case vf =>
    have vf : (f != 0) = true := by simpa using hf
    have dword : o % 4 = 0 ∧ s.cfgDword f o = v := by
      simp only [List.mem_cons, List.not_mem_nil, or_false] at field
      unfold State.cfgDword State.cfgHeader
      rw [vf]
      rcases field with ⟨rfl, rfl⟩ | ⟨rfl, rfl⟩ | ⟨rfl | rfl | rfl | rfl | rfl | rfl | rfl, rfl⟩ <;> exact ⟨rfl, rfl⟩
    exact nx (readCfg_dword up isOpen dword.1 dword.2)
  case retry => exact nx (readCfg_retry up there (cfg_busy busy))
  case absent => exact nx (readCfg_absent up hf absent)
  case dead =>
    refine nx ((if_neg (by simp [audible])).trans ?_)
    rw [State.arongRsp, if_pos dead]
  case done =>
    refine nx ((if_neg (by simp [audible])).trans ?_)
    rw [State.arongRsp, if_neg (by simp [alive]), if_pos done]
  case busy =>
    refine nx ((if_neg (by simp [audible])).trans ?_)
    rw [State.arongRsp, if_neg (by simp [alive]), if_neg busy]
  case mute => exact nx (if_pos mute)

/-! ## Writes -/

/-- A write of an aligned register outside the push windows. -/
theorem writeBar_reg {s t : State} {f o size : Nat} {v : W64} (isOpen : s.barOpen f = true) (outside : s.inPush f o = false)
    (aligned : (size = 4 ∨ size = 8) ∧ o % size = 0) (reg : s.writeReg f o size v = (t, true)) : s.writeBar f o size v = t := by
  unfold State.writeBar
  rw [if_neg (by simp [isOpen]), if_neg (by simp [outside]), if_neg (by omega), reg]
  rfl

/-- A 32-bit write to a status page of the PF. -/
theorem writeBar_device {s t : State} {o : Nat} {v : W64} (isOpen : s.barOpen 0 = true) (high : 0x01000000 ≤ o) (aligned : o % 4 = 0)
    (place : inWindow o = false) (here : s.regHere 0 o = true) (effect : s.writeDev o (v.setWidth 32) = t) : s.writeBar 0 o 4 v = t := by
  have noPage : s.pageAt 0 o = none := if_neg (by rw [if_pos rfl]; omega)
  refine writeBar_reg isOpen (by rw [State.inPush, noPage]; rfl) ⟨.inl rfl, aligned⟩ ?_
  unfold State.writeReg State.write32
  rw [if_neg (by decide), noPage]
  dsimp only
  rw [if_neg (by simp [place]), if_pos here, if_pos rfl, effect]

section
variable {s : State} {f p q k : Nat} {v : W64} (page : Page s f p q)
include page

omit page in
theorem page_outside_push (low : k < 0x800) : s.inPush f (0x1000 * p + k) = false := by
  unfold State.inPush
  rw [Bool.and_eq_false_iff, decide_eq_false_iff_not]
  exact .inr (by omega)

/-- A 32-bit write to a register of a queue page. -/
theorem writeBar_page32 {t : State} (low : k < 0x800) (aligned : k % 4 = 0) (effect : s.writeQueue f p q k (v.setWidth 32) = (t, true)) :
    s.writeBar f (0x1000 * p + k) 4 v = t := by
  have mod : (0x1000 * p + k) % 0x1000 = k := by omega
  refine writeBar_reg page.2.1 (page_outside_push low) ⟨.inl rfl, by omega⟩ ?_
  unfold State.writeReg State.write32
  rw [if_neg (by decide), pageAt_page page (by omega), mod]
  exact effect

/-- A 64-bit write to a register of a queue page, as a single operation (R14). -/
theorem writeBar_page64 {t : State} (low : k < 0x800) (aligned : k % 8 = 0) (effect : s.writeQueue64 f q k v = some t) :
    s.writeBar f (0x1000 * p + k) 8 v = t := by
  have mod : (0x1000 * p + k) % 0x1000 = k := by omega
  refine writeBar_reg page.2.1 (page_outside_push low) ⟨.inr rfl, by omega⟩ ?_
  unfold State.writeReg
  rw [if_pos rfl, pageAt_page page (by omega)]
  dsimp only [Option.bind]
  rw [mod, effect]

end

/-- The ring configuration of a DISABLED queue (R82). -/
theorem ringCfg_disabled {s : State} {f q : Nat} (idle : (s.queue q).st = .disabled) (g : Queue → Queue) : s.ringCfg f q g = s.updQueue q g :=
  if_pos idle

/-- The message data of a vector (R57). -/
theorem writeBar2_data {s : State} {f k : Nat} {v : W64} (isOpen : s.barOpen f = true) (inside : k < (if f = 0 then 128 else 17)) :
    s.writeBar2 f (16 * k + 8) 4 v = s.updFn f (fun x => { x with vecs := Tbl.upd {} x.vecs k (fun e => { e with data := v.setWidth 32 }) }) := by
  have div : (16 * k + 8) / 16 = k := by omega
  have word : (16 * k + 8) % 16 / 4 = 2 := by omega
  have reg : s.reg2 f (16 * k + 8) = .w32 (s.vec f k).data.toNat := by
    unfold State.reg2
    dsimp only
    rw [if_pos (by omega), div, word]
    rfl
  have here : (s.word2 f (16 * k + 8)).isNone = false := by
    unfold State.word2
    rw [reg]
    rfl
  unfold State.writeBar2
  rw [if_neg (by simp [isOpen]), if_neg (by omega), if_neg (by simp [here])]
  dsimp only
  rw [if_neg (by decide)]
  unfold State.writeMsix
  rw [if_neg (by omega), div, word]
  rfl

/-- A field of configuration space of a function that takes the write. -/
theorem writeCfg_open {s t : State} {f v : Nat} {fld : CfgField} (isOpen : s.cfgOpen f = true)
    (effect : ¬ (f ≠ 0 ∧ (s.fn f).st = .absent) → ¬ s.cfgOpen f = false → s.writeCfg f fld v = t) : s.writeCfg f fld v = t := by
  refine effect ?_ (by simp [isOpen])
  rintro ⟨hf, absent⟩
  simp [State.cfgOpen, hf, absent] at isOpen

/-- Settles O21. -/
theorem registerWritesTakeEffect : Obligations.RegisterWritesTakeEffect := by
  unfold Obligations.RegisterWritesTakeEffect
  intro s up
  refine ⟨fun isOpen v => ?device, fun f p q v page idle => ⟨?size, ?base, ?ciwb⟩, fun f k v isOpen inside => ?msix,
    fun f v isOpen => ?cfg, fun f fld v there busy => ?retry⟩
  case device =>
    exact ⟨nx ((if_pos up).trans (writeBar_device isOpen (by decide) rfl rfl rfl rfl)),
      nx ((if_pos up).trans (writeBar_device isOpen (by decide) rfl rfl rfl rfl)),
      nx ((if_pos up).trans (writeBar_device isOpen (by decide) rfl rfl rfl rfl)),
      nx ((if_pos up).trans (writeBar_device isOpen (by decide) rfl rfl rfl rfl))⟩
  case size =>
    exact nx ((if_pos up).trans (writeBar_page32 page (by decide) rfl (congrArg (·, true) (ringCfg_disabled idle _))))
  case base =>
    exact nx ((if_pos up).trans (writeBar_page64 page (by decide) rfl (congrArg some (ringCfg_disabled idle _))))
  case ciwb =>
    exact nx ((if_pos up).trans (writeBar_page64 page (by decide) rfl (congrArg some (ringCfg_disabled idle _))))
  case msix => exact nx ((if_pos up).trans (writeBar2_data isOpen inside))
  case cfg =>
    refine ⟨nx ((if_pos up).trans (writeCfg_open isOpen fun a b => ?memSpace)), nx ((if_pos up).trans (writeCfg_open isOpen fun a b => ?pme)),
      fun le => nx ((if_pos up).trans (writeCfg_open isOpen fun a b => ?payload)),
      fun le => nx ((if_pos up).trans (writeCfg_open isOpen fun a b => ?read))⟩
    case memSpace => exact (if_neg a).trans (if_neg b)
    case pme => exact (if_neg a).trans (if_neg b)
    case payload => exact (if_neg a).trans ((if_neg b).trans (if_pos le))
    case read => exact (if_neg a).trans ((if_neg b).trans (if_pos le))
  case retry =>
    refine nx ((if_pos up).trans ((if_neg (fun k => there.elim k.1 (fun present => present k.2))).trans ((if_pos (cfg_busy busy)).trans (if_pos ⟨up, there⟩))))

/-! ## Mailboxes -/

/-- Settles O22. -/
theorem mailboxEventsTakeEffect : Obligations.MailboxEventsTakeEffect := by
  unfold Obligations.MailboxEventsTakeEffect
  intro s
  refine ⟨fun ready slot bad => ⟨fun isOpen low high free y hy => ?doorbell, fun isOpen no => ?noSlot, fun v hv runs isOpen =>
    ⟨fun free => ?vf, fun busy => ?vfBusy⟩⟩, fun mask isOpen => ?done, fun v isOpen => ?vmbDone,
    fun h n pf hn running idle => ⟨fun now => ?limit, fun waits => ?mram⟩, rfl⟩
  case doorbell =>
    subst hy
    exact (if_neg (by simp [ready, isOpen])).trans ((if_pos rfl).trans (if_neg (by simp [free]; omega)))
  case noSlot => exact (if_neg (by simp [ready, isOpen])).trans ((if_pos rfl).trans (if_pos no))
  case vf => exact (if_neg (by simp [ready, isOpen, runs])).trans ((if_neg hv).trans (if_neg (by simp [free])))
  case vfBusy => exact (if_neg (by simp [ready, isOpen, runs])).trans ((if_neg hv).trans (if_pos busy))
  case done => exact if_neg (by simp [isOpen])
  case vmbDone => exact if_neg (by simp [isOpen])
  case limit =>
    change execCmdTimeLimit h s = _
    unfold execCmdTimeLimit State.limitResp
    rw [pf]
    dsimp only
    rw [if_neg (by simp [idle]), if_pos ⟨running, hn⟩, if_neg (by simp [now])]
    rfl
  case mram =>
    change execCmdTimeLimit h s = _
    unfold execCmdTimeLimit State.limitResp
    rw [pf]
    dsimp only
    rw [if_neg (by simp [idle]), if_pos ⟨running, hn⟩, if_pos waits]
    rfl

end Sys2Proof.HostWrites

/-!
R79-R111. Work queues: a write to a queue page acts on its queue (`onPage_ok`); the events of fetch, dispatch and completion.
-/
namespace Sys2Proof.QueueRows
open Sys2Proof.Machine Sys2Proof.Spec Sys2Proof.Laws

/-- A write to the page of a queue is what it does to that queue. -/
theorem onPage_ok {s : State} {f p q : Nat} (isOpen : s.barOpen f = true) (page : s.queueAt f p = some q) (g : Nat → State → State) :
    s.onPage f p g = g q s := by
  unfold State.onPage
  rw [if_pos isOpen, page]

theorem onPage_next {s : State} {f p q : Nat} {g : Nat → State → State} {t : State} {o : Host.Outcome State Fault Refusal}
    (row : o = .next (s.onPage f p g)) (isOpen : s.barOpen f = true) (page : s.queueAt f p = some q) (effect : g q s = t) : o = .next t := by
  rw [row, onPage_ok isOpen page, effect]

/-- Updates of a queue that agree on its present state. -/
theorem updQueue_congr {s : State} {q : Nat} {g k : Queue → Queue} (e : g (s.queue q) = k (s.queue q)) : s.updQueue q g = s.updQueue q k := by
  have same : Tbl.upd {} s.que.queues q g = Tbl.upd {} s.que.queues q k := by
    unfold Tbl.upd
    exact congrArg _ e
  unfold State.updQueue
  rw [same]

/-- Settles O23. -/
theorem queueWritesTakeEffect : Obligations.QueueWritesTakeEffect := by
  unfold Obligations.QueueWritesTakeEffect
  intro s f p q isOpen page
  refine ⟨fun v active => ⟨fun room step => ?post, fun beyond => ?overflow⟩, fun v idle => ?notActive, fun off data size aligned inside => ?push,
    fun irq off idle on y hon hy => ?enable, fun irq on => ?disable, fun st empty => ?stopped, fun i free posted missing => ?hold,
    fun i held => ?release, fun timer count => ?moderation, fun timer irq pend => ?timer⟩
  case post =>
    exact onPage_next (show execQuePiWrite f p v s = _ from rfl) isOpen page ((if_neg (fun no => no active)).trans (if_neg (by omega)))
  case overflow =>
    exact onPage_next (show execQuePiWrite f p v s = _ from rfl) isOpen page ((if_neg (fun no => no active)).trans (if_pos (.inl beyond)))
  case notActive => exact onPage_next (show execQuePiWrite f p v s = _ from rfl) isOpen page (if_pos idle)
  case push =>
    refine onPage_next (show execPushSlotWrite f p off data s = _ from rfl) isOpen page (if_pos ⟨?_, aligned, inside⟩)
    simpa using size
  case enable =>
    subst hon
    rw [hy]
    refine onPage_next (show execQueueEnable f p irq s = _ from rfl) isOpen page ((if_neg (by simp [off, idle])).trans ?_)
    by_cases bad : (s.queue q).base = 0 ∨ (s.queue q).sizeLog2 < 3 ∨ 12 < (s.queue q).sizeLog2
    · have : ((s.queue q).base == 0 || decide ((s.queue q).sizeLog2 < 3 ∨ 12 < (s.queue q).sizeLog2)) = true := by simpa using bad
      simp only [this, if_true, if_pos bad]
    · have : ((s.queue q).base == 0 || decide ((s.queue q).sizeLog2 < 3 ∨ 12 < (s.queue q).sizeLog2)) = false := by simpa using bad
      simp only [this, Bool.false_eq_true, if_false, if_neg bad]
  case disable => exact onPage_next (show execQueueDisable f p irq s = _ from rfl) isOpen page rfl
  case stopped => exact if_pos ⟨st, empty⟩
  case hold =>
    refine onPage_next (show execQueInvalHold f p i s = _ from rfl) isOpen page (updQueue_congr ?_)
    dsimp only
    rw [if_neg (by rcases free with free | free <;> simp [free]), if_neg (by omega), missing]
  case release =>
    refine onPage_next (show execQueInvalRelease f p i s = _ from rfl) isOpen page (updQueue_congr ?_)
    exact if_pos held
  case moderation => exact onPage_next (show execQueModWrite f p timer count s = _ from rfl) isOpen page rfl
  case timer => exact if_pos ⟨timer, irq, pend⟩

/-- The fetch of entry `i` of queue `q`: its pushed copy `held` is received, or the read `r` of its place in the ring ends. -/
def fetchEntry (s : State) (q : Nat) (i : W16) (held : Option Entry) (r : Fetched) : State :=
  match held, r with
  | some e, _ => s.receive q i e.desc true (.got []) (.got [])
  | none, .fail e => (((s.wakeLink.emit (.fetch q ((s.queue q).entryAddr i))).dmaFailed e).updQueue q (fun y =>
      { y with st := .error, err := .fetch })).report 449 q
  | none, .got d li lo => (s.wakeLink.emit (.fetch q ((s.queue q).entryAddr i))).receive q i d false li lo

/-- A descriptor is fetched, or received from the push window, when its turn has come (R90, R95). -/
theorem descriptorFetch_turn {s : State} {q : Nat} {i : W16} (r : Fetched) (next : (s.queue q).nextFetch = some i) (active : (s.queue q).st = .active)
    (served : s.serving (s.queue q).fn = true) (room : s.pfRoom (s.queue q).fn = true) (token : s.tokenFree (s.queue q).fn = true)
    (ahead : (s.queue q).ahead < 32) {held : Option Entry} (entry : (s.queue q).entry i = held)
    (may : held = none → (s.fn (s.queue q).fn).bme = true) : exec (.descriptorFetch q r) s = .next (fetchEntry s q i held r) := by
  have turn : ¬ (held.isNone = true ∧ (s.fn (s.queue q).fn).bme = false) := by
    rintro ⟨none, off⟩
    simp [may (by simpa using none)] at off
  change execDescriptorFetch q r s = _
  unfold execDescriptorFetch
  dsimp only
  rw [next]
  dsimp only
  rw [if_neg (by simp [active, served, room]; omega), entry, if_neg turn, if_neg (by simp [token])]
  cases held with
  | some e => rfl
  | none => cases r <;> rfl

/-- A FENCE or NOP that is next is done at its dispatch (R88). -/
theorem nopDone_ok {s : State} {q : Nat} {i : W16} {e : Entry} {op : Byte} (next : s.dispatchable q = some (i, e)) (kind : e.desc.opcode = op) :
    s.nopDone q op = (s.updQueue q (fun z => z.setEntry i (some { e with st := .dispatched }))).finishEntry (s.queue q).fn
      { q := q, idx := i } { gen := (s.fn (s.queue q).fn).gen, tag := e.desc.tag } [] false := by
  unfold State.nopDone
  rw [next]
  exact if_pos kind

/-- Settles O24. -/
theorem queueEntriesBecomeJobs : Obligations.QueueEntriesBecomeJobs := by
  unfold Obligations.QueueEntriesBecomeJobs
  rintro s q i _ rfl
  refine ⟨fun next active served room token ahead => ⟨fun e r entry => ?pushed, fun entry bme x hx => ⟨fun d li lo => ?fetched, fun e => ?failed⟩⟩,
    fun e next => ⟨fun op room y job => ?dispatch, fun y hy => ⟨fun fence => ?fence, fun nop => ?nop⟩⟩, fun id j job st ends => ?completed⟩
  case pushed => exact descriptorFetch_turn r next active served room token ahead entry (fun no => nomatch no)
  case fetched =>
    rw [hx]
    exact descriptorFetch_turn (.got d li lo) next active served room token ahead entry (fun _ => bme)
  case failed =>
    rw [hx]
    exact descriptorFetch_turn (.fail e) next active served room token ahead entry (fun _ => bme)
  case dispatch =>
    change execJobDispatch q s = _
    unfold execJobDispatch
    rw [next]
    dsimp only
    rw [if_neg (by simp [op, room]), job]
  case fence =>
    rw [hy]
    exact nx (nopDone_ok next fence)
  case nop =>
    rw [hy]
    exact nx (nopDone_ok next nop)
  case completed =>
    change execJobEnd id s = _
    unfold execJobEnd
    rw [job]
    exact if_pos ⟨st, ends⟩

end Sys2Proof.QueueRows

/-! PROOFS. Jobs on the Render, Lath, Hawk and Sponge engines (O25 to O31). Every row of a job is `State.runJob` of a body: the rules below
say what a running job with its input read does, how a job of each engine goes on with its random words, and how it delivers its keys. -/
namespace Sys2Proof.JobRows
open Sys2Proof.Machine Sys2Proof.Spec Sys2Proof.Laws

section
variable {s y t : State} {id : JobId} {j : Job} {op : Nat} {inp : JobIn} {b0 : List Byte} {ws : List W512}
  {f : Job → List Byte → State → State}

/-- A job that is to be aborted ends so at its next row (R231, R402). -/
theorem job_aborts {st : W16} {det : W32} (found : s.findJob id = some j) (running : j.st = .running) (whole : j.desc.isHybrid = false)
    (abort : j.abort = some (st, det)) (named : j.desc.op = op) :
    (.next (s.runJob id op inp f) : Host.Outcome State Fault Refusal) = .next (s.endJob id { status := st, detail := det }) := by
  unfold State.runJob
  simp [found, running, whole, abort, named]

/-- A job whose input cannot be read ends with ST_DMA_ERROR (R105). -/
theorem job_read_fails {e : DmaErr} (found : s.findJob id = some j) (running : j.st = .running) (whole : j.desc.isHybrid = false)
    (abort : j.abort = none) (bme : (s.fn j.fn).bme = true) (named : j.desc.op = op) :
    (.next (s.runJob id op (.fail e) f) : Host.Outcome State Fault Refusal) =
      .next ((s.wakeLink.dmaFailed e).failJob id stDmaError e.code) := by
  unfold State.runJob
  simp [found, running, whole, abort, named, bme]

/-- A running job with its input read does what its body says. -/
theorem job_runs (r : JobRuns s id op j) (body : f j (fit j.desc.inLen.toNat b0) (fetched s j) = t) :
    (.next (s.runJob id op (.got b0) f) : Host.Outcome State Fault Refusal) = .next t := by
  rw [runJob_ok s id op j b0 f r, body]

/-- A running job whose body comes to its result keys delivers them. -/
theorem job_delivers {out rest : List Byte} {keys : List KeySpec} (r : JobRuns s id op j)
    (body : f j (fit j.desc.inLen.toNat b0) (fetched s j) = y.finish j out keys rest) :
    Delivers (.next (s.runJob id op (.got b0) f)) y j out keys rest :=
  fun ks z got => job_runs r (body.trans (finish_ok y z j out keys rest ks got))

/-- A running Lath job with its words drawn does what its body says of them. -/
theorem masked_runs {pre : List Nat} {g : Job → List Byte → List W512 → State → State} (r : JobRuns s id op j)
    (words : maskDrawn s j pre = some (ws, y)) (body : g j (fit j.desc.inLen.toNat b0) ws y = t) :
    (.next (s.runJob id op (.got b0) (fun j b x => x.withMasks j pre (g j b))) : Host.Outcome State Fault Refusal) = .next t :=
  job_runs r ((masks_ok s y j pre ws _ words).trans body)

/-- A running Lath job with its words drawn delivers the keys of its body. -/
theorem masked_delivers {pre : List Nat} {g : Job → List Byte → List W512 → State → State} {x : State} {out rest : List Byte}
    {keys : List KeySpec} (r : JobRuns s id op j) (words : maskDrawn s j pre = some (ws, y))
    (body : g j (fit j.desc.inLen.toNat b0) ws y = x.finish j out keys rest) :
    Delivers (.next (s.runJob id op (.got b0) (fun j b x => x.withMasks j pre (g j b)))) x j out keys rest :=
  job_delivers r ((masks_ok s y j pre ws _ words).trans body)

end

/-- Settles O25. -/
theorem jobsStopOnAbortAndFailedRead : Obligations.JobsStopOnAbortAndFailedRead := by
  unfold Obligations.JobsStopOnAbortAndFailedRead
  intro s id j found running whole
  refine ⟨fun inp st det ok abort => ⟨?_, ?_, ?_, ?_⟩, fun e ok abort bme y hy => hy ▸ ⟨?_, ?_, ?_, ?_⟩⟩
  · exact fun op => show execAeadSeal id inp s = _ from job_aborts found running whole abort op
  · exact fun op => show execKemKeygen id inp ok s = _ from job_aborts found running whole abort op
  · exact fun op => show execRsaSign id inp ok s = _ from job_aborts found running whole abort op
  · exact fun op => show execHashDigest id inp s = _ from job_aborts found running whole abort op
  · exact fun op => show execAeadSeal id (.fail e) s = _ from job_read_fails found running whole abort bme op
  · exact fun op => show execKemKeygen id (.fail e) ok s = _ from job_read_fails found running whole abort bme op
  · exact fun op => show execRsaSign id (.fail e) ok s = _ from job_read_fails found running whole abort bme op
  · exact fun op => show execHashDigest id (.fail e) s = _ from job_read_fails found running whole abort bme op

/-! ## Lookaside AEAD (R195-R197) -/

section
variable {s y0 y : State} {id : JobId} {j : Job} {op : Nat} {b0 iv : List Byte} {ws : List W512}
  {f : List Byte → List Byte → Desc → List Byte → Option (List Byte)}
  (r : JobRuns s id op j) (words : drawn (fetched s j) ((19 + j.engine / 4) :: (if j.desc.b 57 1 = 1 then [genDevice] else [])) = some (ws, y0))
  (refreshed : y = y0.drawMany (19 + j.engine / 4) (renderWords (y0.rnd j.engine).fstep (fit j.desc.inLen.toNat b0).length - 1))
  (named : iv = j.desc.iv ws)
include r words refreshed named

/-- An AEAD job with an output ends with it, and with its IV where that was random. -/
theorem aead_ends {out : List Byte} (result : f (aesKey j.key0) iv j.desc (fit j.desc.inLen.toNat b0) = some out) :
    (.next (s.aead id op (.got b0) f) : Host.Outcome State Fault Refusal) =
      .next (y.endJob id { out := out, result := if j.desc.b 57 1 = 1 then iv else [] }) := by
  unfold State.aead
  refine job_runs r ((withWords_ok _ _ _ _ _ _ words).trans ?_)
  dsimp only
  rw [← named, result, refreshed]

/-- An AEAD job whose tag does not verify ends with ST_AUTH_FAIL. -/
theorem aead_rejects (result : f (aesKey j.key0) iv j.desc (fit j.desc.inLen.toNat b0) = none) :
    (.next (s.aead id op (.got b0) f) : Host.Outcome State Fault Refusal) = .next (y.failJob id stAuthFail 0) := by
  unfold State.aead
  refine job_runs r ((withWords_ok _ _ _ _ _ _ words).trans ?_)
  dsimp only
  rw [← named, result, refreshed]

end

/-- Settles O26. -/
theorem aeadJobsComplete : Obligations.AeadJobsComplete := by
  unfold Obligations.AeadJobsComplete
  rintro s y0 y id j _ b0 ws _ _ iv _ _ _ rfl rfl words refreshed rfl named rfl rfl rfl
  refine ⟨fun r => ?_, fun r => ⟨fun m opened => ?_, fun bad => ?_⟩, fun r => ?_, fun r => ⟨fun m opened => ?_, fun bad => ?_⟩⟩
  · exact show execAeadSeal id (.got b0) s = _ from aead_ends r words refreshed named rfl
  · exact show execAeadOpen id (.got b0) s = _ from aead_ends r words refreshed named (congrArg (Option.map _) opened)
  · exact show execAeadOpen id (.got b0) s = _ from aead_rejects r words refreshed named (congrArg (Option.map _) bad)
  · exact show execGmacTag id (.got b0) s = _ from aead_ends r words refreshed named rfl
  · exact show execGmacCheck id (.got b0) s = _ from aead_ends r words refreshed named (congrArg (Option.map _) opened)
  · exact show execGmacCheck id (.got b0) s = _ from aead_rejects r words refreshed named (congrArg (Option.map _) bad)

/-! ## The lattice jobs (R283-R311) -/

/-- The secret, the ciphertext and the output of a KEM job: those of encapsulation, whose key is valid, or of decapsulation (R291, R292). -/
def KemMade (y : State) (j : Job) (w : W512) (kin ss ct out : List Byte) : Prop :=
  if j.desc.isEncaps then Config.pubValid 0x20 j.desc.set kin = true ∧ ct = fit (kemSizes j.desc.set).2 (Config.encaps 0x20 j.desc.set kin w).1 ∧
    ss = fit 32 (Config.encaps 0x20 j.desc.set kin w).2 ∧ out = ct ++ y.ownPub j
  else ct = kin ∧ ss = fit 32 (Config.decaps 0x20 j.desc.set j.key0 kin) ∧ out = []

/-- A KEM job goes on with its secret and its output. -/
theorem kem_runs {s y t : State} {id : JobId} {j : Job} {op : Nat} {b0 kin ss ct out sec : List Byte} {ws : List W512}
    {f : Job → List Byte → List Byte → List Byte → State → State} (r : JobRuns s id op j) (words : maskDrawn s j [] = some (ws, y))
    (input : kin = (fit j.desc.inLen.toNat b0).take j.desc.kemIn) (made : KemMade y j (ws.getD 0 0) kin ss ct out)
    (secret : sec = y.kemSecret j (fit j.desc.inLen.toNat b0) ss ct) (body : f j (fit j.desc.inLen.toNat b0) sec out y = t) :
    (.next (s.kem id op (.got b0) f) : Host.Outcome State Fault Refusal) = .next t := by
  unfold State.kem
  refine masked_runs r words (Eq.trans ?_ body)
  dsimp only
  rw [← input]
  unfold KemMade at made
  by_cases encaps : j.desc.isEncaps
  · rw [if_pos encaps] at made ⊢
    obtain ⟨valid, hct, hss, hout⟩ := made
    rw [if_pos valid, ← hct, ← hss, ← hout, ← secret]
  · rw [if_neg encaps] at made ⊢
    obtain ⟨hct, hss, hout⟩ := made
    rw [← hss, hout, secret, hct]

/-- Settles O27. -/
theorem kemJobsComplete : Obligations.KemJobsComplete := by
  unfold Obligations.KemJobsComplete
  rintro s y id j _ b0 ws _ _ rfl rfl rfl
  refine ⟨fun r words seed hseed => ?keygen, fun words kin ss ct out sec input made secret => ⟨fun r ks z got => ?_, fun r ks z got => ?_,
    fun r ks z got => ?_, fun r ks z got => ?_, fun r tail n htail hn ks z got => ?_⟩, fun found hyb part running abort bme words scalar ss x hscalar hss nonzero hx => ?hybrid⟩
  case keygen =>
    rw [hseed]
    exact show Delivers (execKemKeygen id (.got b0) true s) _ _ _ _ _ from masked_delivers r words rfl
  · exact show execKemEncaps id (.got b0) s = _ from kem_runs r words input made secret (finish_ok _ _ _ _ _ _ _ got)
  · exact show execKemDecaps id (.got b0) s = _ from kem_runs r words input made secret (finish_ok _ _ _ _ _ _ _ got)
  · exact show execHybEncaps id (.got b0) s = _ from kem_runs r words input made secret (finish_ok _ _ _ _ _ _ _ got)
  · exact show execHybDecaps id (.got b0) s = _ from kem_runs r words input made secret (finish_ok _ _ _ _ _ _ _ got)
  · rw [htail, hn] at got
    exact show execKemRekey id (.got b0) s = _ from kem_runs r words input made secret (finish_ok _ _ _ _ _ _ _ got)
  case hybrid =>
    have some_nonzero : ¬ ss.all (fun c => c == 0) = true := by
      obtain ⟨c, inside, nz⟩ := nonzero
      intro all
      exact nz (by simpa using List.all_eq_true.mp all c inside)
    change execHybridLathPart id (.got b0) true s = _
    unfold execHybridLathPart
    rw [found]
    dsimp only
    rw [if_neg (by simp [hyb, part, running, bme]), abort]
    dsimp only
    refine nx ((hawk_ok _ _ _ _ _ _ words).trans ?_)
    rw [← hscalar, ← hss, if_neg some_nonzero, if_neg (by decide), hx] <;> rfl

/-- Settles O28. -/
theorem signatureJobsComplete : Obligations.SignatureJobsComplete := by
  unfold Obligations.SignatureJobsComplete
  rintro s y id j _ b0 ws _ _ rfl rfl rfl
  refine ⟨fun words seed hseed => ⟨fun r => ?_, fun r => ?_⟩, fun words rnd => ⟨fun r hrnd k hk => ⟨fun few => ?_, fun many => ?_⟩, fun r hrnd => ?_⟩,
    fun pk sg => ⟨fun r hpk hsg => ?_, fun r hpk hsg => ?_⟩⟩
  · rw [hseed]
    exact show Delivers (execDsaKeygen id (.got b0) true s) _ _ _ _ _ from masked_delivers r words rfl
  · rw [hseed]
    exact show Delivers (execSlhKeygen id (.got b0) true s) _ _ _ _ _ from masked_delivers r words rfl
  · refine show execDsaSign id (.got b0) true s = _ from masked_runs r words ?_
    dsimp only
    rw [← hrnd, ← hk, if_neg (by omega), if_pos rfl]
  · refine show execDsaSign id (.got b0) true s = _ from masked_runs r words ?_
    dsimp only
    rw [← hrnd, ← hk, if_pos many]
  · refine show execSlhSign id (.got b0) true s = _ from masked_runs r words ?_
    dsimp only
    rw [← hrnd, if_pos rfl]
  · rw [hpk, hsg]
    exact show execDsaVerify id (.got b0) s = _ from job_runs r rfl
  · rw [hpk, hsg]
    exact show execSlhVerify id (.got b0) s = _ from job_runs r rfl

end Sys2Proof.JobRows

/-! PROOFS. The LMS/HSS and code-based jobs, the state of LMS keys, the key cache and the regions of Quad memory (O29). -/
namespace Sys2Proof.CodeRows
open Sys2Proof.Machine Sys2Proof.Spec Sys2Proof.Laws Sys2Proof.JobRows

/-! ## LMS and HSS (R329-R340) -/

section
variable {s y : State} {id : JobId} {j : Job} {b0 : List Byte} {ws : List W512} {k : Nat}

theorem lmsKeygen_ok (r : JobRuns s id 0x44 j) (words : maskDrawn s j [genDevice] = some (ws, y)) (first : ∀ c ∈ s.commits, c.job ≠ some id)
    (slot : y.lmsSlot = some k) (room : y.lmsCount < 512) {data : List Byte}
    (hdata : data = leBytes (16 + lmsN j.desc.set) (ws.getD 0 0).toNat ++ leBytes 9 (j.desc.b 40 9)) :
    exec (.lmsKeygen id (.got b0) true) s = .next ((y.updJob id (fun z => { z with res :=
        { out := beBytes 4 (j.desc.b 40 1) ++ beBytes 4 (j.desc.b 41 1) ++ beBytes 4 (j.desc.b 45 1) ++ data.take 16 ++
              fit (lmsN j.desc.set) (Config.pubOf 0x44 j.desc.set data), result := leBytes 8 (lmsOf data).total } })).requestCommit
          { puts := [{ slot := k, kind := 3, usage := .enc, alg := BitVec.ofNat 16 (0x1030 + j.desc.set), level := 1,
                       klen := data.length, data := data }], job := some id }) := by
  have none_asked : ¬ s.commits.any (fun c => c.job == some id) = true := by simpa using first
  change execLmsKeygen id (.got b0) true s = _
  unfold execLmsKeygen
  rw [if_neg none_asked]
  refine masked_runs r words ?_
  dsimp only
  rw [← hdata, if_neg (by decide), slot]
  exact if_neg (by omega)

theorem lmsSign_waits (r : JobRuns s id 0x45 j) (short : ((fetched s j).hss (j.refs.headD 0)).limit.toNat ≤ j.hold.getD 0) (ok : Bool) :
    exec (.lmsSign id (.got b0) ok) s = .next (fetched s j) :=
  show execLmsSign id (.got b0) ok s = _ from job_runs r (if_pos short)

theorem lmsSign_ok (r : JobRuns s id 0x45 j) (reserved : j.hold.getD 0 < ((fetched s j).hss (j.refs.headD 0)).limit.toNat)
    (words : maskDrawn s j [] = some (ws, y)) : exec (.lmsSign id (.got b0) true) s = .next (y.endJob id
        { out := fit (lmsOf j.key0).sigLen (Config.sign 0x44 j.desc.set j.key0 (leBytes 8 (j.hold.getD 0) ++ fit j.desc.inLen.toNat b0) (ws.getD 0 0)),
          result := leBytes 8 (j.hold.getD 0) ++ leBytes 8 ((lmsOf j.key0).total -
            max ((fetched s j).hss (j.refs.headD 0)).limit.toNat ((fetched s j).hss (j.refs.headD 0)).next.toNat) }) :=
  show execLmsSign id (.got b0) true s = _ from job_runs r ((if_neg (Nat.not_le.mpr reserved)).trans (masks_ok _ _ _ _ _ _ words))

theorem lmsVerify_ok (r : JobRuns s id 0x46 j) {pk sig b : List Byte} (hb : b = fit j.desc.inLen.toNat b0) (hpk : pk = b.take (j.desc.b 40 2))
    (hsig : sig = slice b (j.desc.b 40 2) (j.desc.b 44 4)) :
    exec (.lmsVerify id (.got b0)) s = .next (
      if hssOptions j.desc.set pk sig = true ∧ Config.verify 0x44 j.desc.set pk (b.drop (j.desc.b 40 2 + j.desc.b 44 4)) sig = true then
        (fetched s j).endJob id {} else (fetched s j).failJob id stVerifyFail 0) := by
  refine show execLmsVerify id (.got b0) s = _ from job_runs r ?_
  dsimp only
  rw [← hb, ← hpk, ← hsig]
  cases within : hssOptions j.desc.set pk sig with
  | false => rw [if_pos rfl, if_neg (by simp)]
  | true => simp

/-- The state in which a reservation of key `k` stands in the ring `m` and raises the limit to `r`; the next one is `w` (R332). -/
def reserved (x : State) (k : Nat) (m : Mram) (h : Hss) (w : Option W64) (r : W64) : State :=
  { x with
    lth := { x.lth with hss := Tbl.set {} x.lth.hss k { h with writing := w, started := w.isSome && !x.pwr.vinWarn } }
    mram := m.putRes k (x.slot k).stamp r }

section
variable {r : W64} (writes : (s.hss k).writing = some r) (started : (s.hss k).started = true) {x : State} (hx : x = clearAhead 1024 s)
include writes started hx

theorem reservation_ok {h : Hss} {w : Option W64} (hh : h = { s.hss k with limit := r, writing := none })
    (hw : w = h.nextWrite (lmsOf (x.keyBytes k)).total) (up : s.seamDown = false) {m : Mram} {how : ResWrite}
    (tried : (how = .first ∧ m = x.mram) ∨ (how = .retry ∧ m = x.mram.tearRes)) :
    exec (.reservationWriteDone k how) s = .next (reserved x k m h w r) := by
  change execReservationWriteDone k how s = _
  unfold execReservationWriteDone
  dsimp only
  rw [writes]
  dsimp only
  rw [if_neg (by simp [started, up]), ← hx, ← hh, ← hw, hh]
  obtain ⟨rfl, rfl⟩ | ⟨rfl, rfl⟩ := tried
  · rfl
  · rfl

theorem reservation_fails : exec (.reservationWriteDone k .fail) s = .next
    (((failAbove k (s.hss k).limit.toNat x.que.jobs { x with mram := x.mram.tearRes.tearRes }).updHss k
      (fun z => { z with writing := none, started := false })).report 130 0) := by
  change execReservationWriteDone k .fail s = _
  unfold execReservationWriteDone
  dsimp only
  rw [writes]
  dsimp only
  rw [if_neg (by simp [started]), ← hx]
  exact if_pos rfl

end

theorem lmsRebuildDone_ok (awaited : (s.hss k).rebuilding = true ∨ (s.hss k).waitFrom.isSome = true) :
    exec (.lmsRebuildDone k) s = .next (s.updHss k (fun h => { h with rebuilding := false, waitFrom := none })).assign :=
  show execLmsRebuildDone k s = _ from if_pos awaited

end

/-! ## Quad memory and supplied keys (R341, R348, R349) -/

section
variable {s : State} {id : JobId} {j : Job} {q : Nat} (found : s.findJob id = some j) (waits : j.st = .waiting)
include found waits

theorem regionAlloc_home (blocked : j.blocked = 1) (sign : j.desc.opcode = 0x45) {h : Nat}
    (home : ((s.giveHome (j.refs.headD 0)).hss (j.refs.headD 0)).home = some h) :
    exec (.regionAlloc id q) s = .next (((s.giveHome (j.refs.headD 0)).updJob id (fun x => { x with quad := some h, blocked := 0 })).assign) := by
  change execRegionAlloc id q s = _
  unfold execRegionAlloc
  rw [found]
  dsimp only
  rw [if_neg (by simp [blocked, waits]), if_pos sign, home]

theorem regionAlloc_region (blocked : j.blocked = 1) (other : j.desc.opcode ≠ 0x45) (served : ∃ i < 4, s.serves j.cls .lath (4 * q + i) = true)
    (room : s.regionRoom j q = true) {p : Nat} (place : s.regionAt q j.regionSize = some p) :
    exec (.regionAlloc id q) s = .next ((({ s with lth := { s.lth with
      regions := s.lth.regions ++ [({ quad := q, base := p, size := j.regionSize, job := id } : Region)] } }).updJob id
        (fun x => { x with quad := some q, blocked := if j.desc.opcode = 0x4D then 2 else 0 })).assign) := by
  obtain ⟨i, small, serves⟩ := served
  have some_serves : ¬ (List.range 4).all (fun i => !s.serves j.cls .lath (4 * q + i)) = true := by
    intro all
    simpa [serves] using List.all_eq_true.mp all i (List.mem_range.mpr small)
  change execRegionAlloc id q s = _
  unfold execRegionAlloc
  rw [found]
  dsimp only
  rw [if_neg (by simp [blocked, waits]), if_neg other, if_neg (fun refused => refused.elim some_serves (by simp [room])), place]

theorem mceKeyLoaded_ok {b0 : List Byte} (blocked : j.blocked = 2) (bme : (s.fn j.fn).bme = true) : exec (.mceKeyLoaded id (.got b0)) s =
    .next ((s.wakeLink.updJob id (fun x => { x with blocked := 0, keys := [fit j.desc.inLen.toNat b0] })).assign) := by
  change execMceKeyLoaded id (.got b0) s = _
  unfold execMceKeyLoaded
  rw [found]
  exact if_neg (by simp [blocked, waits, bme])

theorem mceKeyLoaded_fails (e : DmaErr) (blocked : j.blocked = 2) (bme : (s.fn j.fn).bme = true) :
    exec (.mceKeyLoaded id (.fail e)) s = .next ((s.wakeLink.dmaFailed e).failJob id stDmaError e.code) := by
  change execMceKeyLoaded id (.fail e) s = _
  unfold execMceKeyLoaded
  rw [found]
  exact if_neg (by simp [blocked, waits, bme])

end

/-- Settles O29. -/
theorem lmsAndCodeBasedJobsComplete : Obligations.LmsAndCodeBasedJobsComplete := by
  unfold Obligations.LmsAndCodeBasedJobsComplete
  constructor
  · rintro s y id j _ b0 ws _ _ k rfl rfl rfl
    refine ⟨fun r words first slot room data hdata => lmsKeygen_ok r words first slot room hdata, ?sign,
      fun r pk sig hpk hsig => lmsVerify_ok r rfl hpk hsig, fun r writes started x h w hx hh hw => ⟨fun up m how tried => ?_, ?_⟩, lmsRebuildDone_ok⟩
    case sign =>
      rintro r rfl _ rfl
      exact ⟨fun short ok => lmsSign_waits r short ok, fun enough words => lmsSign_ok r enough words⟩
    · exact reservation_ok writes started hx hh hw up tried
    · exact reservation_fails writes started hx
  · rintro s y id j _ b0 ws _ _ rfl rfl rfl
    refine ⟨fun words => ⟨fun r seed hseed => ?_, fun r n w z seed tried hseed => ?_, fun r z tried => ?_⟩,
      fun words => ⟨fun r valid => ?_, fun r => ?_, fun r pk hpk => ?_, fun r => ?_⟩, ?_,
      fun found waits blocked q => ⟨fun sign h home => regionAlloc_home found waits blocked sign home,
        fun other served room p place => regionAlloc_region found waits blocked other served room place⟩,
      fun found waits blocked bme => ⟨mceKeyLoaded_ok found waits blocked bme, fun e => mceKeyLoaded_fails found waits e blocked bme⟩⟩
    · rw [hseed]
      exact show Delivers (execHqcKeygen id (.got b0) true s) _ _ _ _ _ from masked_delivers r words rfl
    · refine show Delivers (execMceKeygen id (.got b0) true s) _ _ _ _ _ from masked_delivers r words ?_
      dsimp only
      rw [tried, hseed]
      exact if_pos rfl
    · refine show execMceKeygen id (.got b0) true s = _ from masked_runs r words ?_
      rw [tried]
    · refine show Delivers (execHqcEncaps id (.got b0) s) _ _ _ _ _ from masked_delivers r words ?_
      dsimp only
      exact if_pos valid
    · exact show Delivers (execHqcDecaps id (.got b0) s) _ _ _ _ _ from masked_delivers r words rfl
    · rw [hpk]
      exact show Delivers (execMceEncaps id (.got b0) s) _ _ _ _ _ from job_delivers r (masks_ok _ _ _ _ _ _ words)
    · exact show Delivers (execMceDecaps id (.got b0) s) _ _ _ _ _ from masked_delivers r words rfl
    · rintro r _ _ rfl rfl idle
      exact show execMceCache id (.got b0) s = _ from job_runs r (if_neg (by simp [idle]))

end Sys2Proof.CodeRows

/-! PROOFS. The jobs of the Sponge pool and of Hawk (O30, O31). -/
namespace Sys2Proof.PoolAndHawkRows
open Sys2Proof.Machine Sys2Proof.Spec Sys2Proof.Laws Sys2Proof.JobRows

/-! ## The Sponge pool (R352-R378) -/

section
variable {s : State} {id : JobId} {j : Job}

/-- A running pool job with its input read goes on once the pool generator is seeded. -/
theorem seeded_runs {op : Nat} {b0 : List Byte} {y t : State} {g : Job → List Byte → State → State} (seeded : PoolSeeded y)
    (hy : y = fetched s j) (r : JobRuns s id op j) (body : g j (fit j.desc.inLen.toNat b0) y = t) :
    (.next (s.runJob id op (.got b0) (fun j b x => x.whenSeeded id genPool (g j b))) : Host.Outcome State Fault Refusal) = .next t := by
  rw [hy] at seeded body
  exact job_runs r ((seeded_ok _ _ _ seeded).trans body)

section
variable (found : s.findJob id = some j) (pool : j.kind.isPool = true)
include found pool

section
variable (running : j.st = .running) (notImport : j.desc.op ≠ 0x61) (notKdf : j.desc.op ≠ 0x64) (rival : s.rivalWaits j = true)
  (full : s.poolIdle j = false)
include running notImport notKdf rival full

/-- A pool job that a rival waits for yields its core to it where a save slot is free (R366). -/
theorem poolYield_saves (slots : s.spg.saved.length < 64) {x : State}
    (hx : x = (s.updJob id (fun x => { x with st := .suspended })).leaveEngine j) :
    exec (.poolYield id) s = .next ({ x with
      que := { x.que with jobs := x.que.jobs.filter (fun (z : Job) => z.id != id) ++ x.que.jobs.filter (fun (z : Job) => z.id == id) }
      spg := { x.spg with saved := x.spg.saved ++ [id], yieldCnt := satInc x.spg.yieldCnt } }).assign := by
  change execPoolYield id s = _
  unfold execPoolYield
  rw [found]
  dsimp only
  rw [if_neg (by simp [running, pool, notImport, notKdf, rival, full]), if_neg (by omega), ← hx]

/-- Without a save slot it keeps its core, and NOSAVE latches (R366). -/
theorem poolYield_no_slot (kept : (s.unit (j.kind.unit j.engine)).st ≠ .draining) (slots : 64 ≤ s.spg.saved.length) :
    exec (.poolYield id) s = .next { s with spg := { s.spg with noSave := true } } := by
  change execPoolYield id s = _
  unfold execPoolYield
  rw [found]
  dsimp only
  rw [if_neg (by simp [running, pool, notImport, notKdf, rival, full]), if_pos slots, if_neg (by simp [kept])]

end

/-- A job that has yielded goes on at the first core whose next job it is (R366). -/
theorem poolResume_ok (suspended : j.st = .suspended) (free : s.held = false) {c : Nat} {r : Nat × Nat} {x : Job}
    (next : s.nextJob j.kind c = some (x, r)) (mine : x.id = id) (core : c < 8)
    (first : ∀ i < c, ∀ p, s.nextJob j.kind i = some p → p.1.id ≠ id) {z : State} (hz : z = s.takeNext j.kind c x r) :
    exec (.poolResume id) s = .next { z with spg := { z.spg with saved := z.spg.saved.filter (fun i => i != id) } } := by
  have lowest : (List.range 8).find? (fun n => match s.nextJob j.kind n with
      | some (x, _) => x.id == id
      | none => false) = some c := by
    refine List.find?_range_eq_some.mpr ⟨by simp [next, mine], List.mem_range.mpr core, fun i below => ?_⟩
    cases other : s.nextJob j.kind i with
    | none => rfl
    | some p => simpa using first i below p other
  change execPoolResume id s = _
  unfold execPoolResume
  rw [found]
  dsimp only
  rw [if_neg (by simp [suspended, pool, free])]
  split
  case h_1 none_found => exact nomatch none_found.symm.trans lowest
  case h_2 n some_found =>
    cases Option.some.inj (some_found.symm.trans lowest)
    rw [next, hz]

end

end

/-- Settles O30. -/
theorem spongeJobsComplete : Obligations.SpongeJobsComplete := by
  unfold Obligations.SpongeJobsComplete
  rintro s y id j _ b0 _ _ n rfl rfl rfl
  refine ⟨fun r hn pre hpre => ?digest, fun seeded hy => ⟨fun r => ?_, fun r => ?_, fun r sl ll cl hsl hll hcl hn ks z got => ?kdf⟩,
    fun r => ⟨fun good place => ?_, fun o bad => ?_⟩, fun found pool => ⟨fun running ni nk rival full kept slots x hx => ?_,
      fun running ni nk rival full kept slots => ?_, fun suspended free c r x next mine core first z hz => ?_⟩⟩
  case digest =>
    rw [hn, hpre]
    exact show execHashDigest id (.got b0) s = _ from job_runs r rfl
  · exact show execMacHmac id (.got b0) s = _ from seeded_runs seeded hy r rfl
  · exact show execMacKmac id (.got b0) s = _ from seeded_runs seeded hy r rfl
  case kdf =>
    rw [hsl, hll, hcl, hn] at got
    exact show execKdfDerive id (.got b0) s = _ from seeded_runs seeded hy r (finish_ok _ _ _ _ _ _ _ got)
  · refine show execHashImport id (.got b0) s = _ from job_runs r ?_
    rw [good, place]
  · refine show execHashImport id (.got b0) s = _ from job_runs r ?_
    rw [bad]
  · exact poolYield_saves found pool running ni nk rival full slots hx
  · exact poolYield_no_slot found pool running ni nk rival full kept slots
  · exact poolResume_ok found pool suspended free next mine core first hz

/-! ## Hawk (R379-R404) -/

section
variable {s y t : State} {id : JobId} {j : Job} {op : Nat} {b0 : List Byte} {ws : List W512} {g : Job → List Byte → List W512 → State → State}

/-- A running Hawk job with its words drawn does what its body says of them. -/
theorem hawk_runs {own : Job → List Byte → Nat} (r : JobRuns s id op j) (words : hawkDrawn (fetched s j) j (own j (fit j.desc.inLen.toNat b0)) = some (ws, y))
    (body : g j (fit j.desc.inLen.toNat b0) ws y = t) :
    (.next (s.runJob id op (.got b0) (fun j b x => x.withHawk j (own j b) (g j b))) : Host.Outcome State Fault Refusal) = .next t :=
  job_runs r ((hawk_ok _ _ _ _ _ _ words).trans body)

/-- An agreed value is refused where it is all zero, for X25519, or where its point is not valid (R387). -/
theorem dh_refused_iff (c : Nat) (b ss : List Byte) :
    (if c = 1 then ss.all (fun z => z == 0) else !Config.pubValid 0x71 c b) = true ↔
      ¬ (if c = 1 then ∃ z ∈ ss, z ≠ 0 else Config.pubValid 0x71 c b = true) := by
  by_cases x25519 : c = 1
  · simp [x25519]
  · simp [x25519]

end

/-- Settles O31. -/
theorem hawkJobsComplete : Obligations.HawkJobsComplete := by
  unfold Obligations.HawkJobsComplete
  constructor
  · rintro s y id j _ b0 ws _ _ rfl rfl rfl
    refine ⟨⟨fun words r priv hpriv ks z got => ?_, fun words r => ?_⟩, fun words r ss hss => ⟨fun good ks z got => ?_, fun bad ok => ?_⟩,
      fun r pk sig range hpk hsig hrange x hx => ?_⟩
    · rw [hpriv] at got ⊢
      exact show execEcKeygen id (.got b0) true s = _ from hawk_runs (own := fun _ _ => 1) r words (finish_ok _ _ _ _ _ _ _ got)
    · exact show execEcSign id (.got b0) true s = _ from hawk_runs (own := fun j _ => if j.desc.set = 2 then 0 else 1) r words rfl
    · refine show execEcDh id (.got b0) true s = _ from hawk_runs (own := fun _ _ => 0) r words ?_
      dsimp only
      rw [← hss, if_neg (fun refused => (dh_refused_iff _ _ _).mp refused good)]
      exact finish_ok _ _ _ _ _ _ _ got
    · refine show execEcDh id (.got b0) ok s = _ from hawk_runs (own := fun _ _ => 0) r words ?_
      dsimp only
      rw [← hss, if_pos ((dh_refused_iff _ _ _).mpr bad)]
    · rw [hrange, hpk, hsig, hx]
      exact show execEcVerify id (.got b0) s = _ from job_runs r rfl
  · rintro s y id j _ b0 ws _ _ _ rfl rfl rfl rfl
    refine ⟨fun r words => ?_, fun r n sig x hx hn hsig => ?_, fun r words n e em hn he hem => ?_,
      fun r words bits label ct opts msg hbits hlabel hct hopts small hmsg => ⟨fun good => ⟨fun plain => ?_, fun bond length ks z got => ?_⟩, fun bad => ?_⟩,
      fun m a x hx hm ha => ⟨fun r => ?_, fun r c hc => ?_⟩⟩
    · have pss : hawkDrawn (fetched s j) j (if (j.desc.b 40 1 == 0) = true then 1 else 0) = some (ws, y) := by simpa using words
      refine show execRsaSign id (.got b0) true s = _ from hawk_runs (own := fun j _ => if (j.desc.b 40 1 == 0) = true then 1 else 0) r pss ?_
      simp
    · rw [hsig, hn, hx]
      exact show execRsaVerify id (.got b0) s = _ from job_runs r rfl
    · rw [hem, he, hn]
      exact show execRsaEncrypt id (.got b0) s = _ from hawk_runs (own := fun _ _ => 1) r words rfl
    · refine show execRsaDecrypt id (.got b0) true s = _ from hawk_runs (own := fun _ _ => 0) r words ?_
      dsimp only
      rw [← hbits, ← hlabel, ← hct, ← hopts, ← hmsg, if_neg (by omega), if_neg (by decide), if_neg plain, if_pos good]
    · refine show execRsaDecrypt id (.got b0) true s = _ from hawk_runs (own := fun _ _ => 0) r words ?_
      dsimp only
      rw [← hbits, ← hlabel, ← hct, ← hopts, ← hmsg, if_neg (by omega), if_neg (by decide), if_pos bond, if_pos ⟨good, length⟩]
      exact finish_ok _ _ _ _ _ _ _ got
    · refine show execRsaDecrypt id (.got b0) true s = _ from hawk_runs (own := fun _ _ => 0) r words ?_
      dsimp only
      rw [← hbits, ← hlabel, ← hct, ← hopts, ← hmsg, if_neg (by omega), if_neg (by decide), bad]
      simp
    · rw [hm, ha, hx]
      exact show execBnModexp id (.got b0) s = _ from job_runs r rfl
    · rw [hm, ha, hx, hc]
      exact show execBnModmul id (.got b0) s = _ from job_runs r rfl

end Sys2Proof.PoolAndHawkRows

/-! PROOFS. Functions and the PCIe link: SR-IOV, function-level resets, D3hot, and what the link reports (O47, O48). -/
namespace Sys2Proof.FunctionRows
open Sys2Proof.Machine Sys2Proof.Spec Sys2Proof.Laws

/-! ## Functions (R43-R68) -/

section
variable {s : State} {f : Nat}

/-- Configuration requests of a function take effect when it is there, ready and in no FLR. -/
theorem cfgOpen_iff : s.cfgOpen f = true ↔ (s.fn f).flr = false ∧ (s.fn f).rrs = false ∧ (f = 0 ∨ (s.fn f).st ≠ .absent) := by
  simp [State.cfgOpen, and_assoc]

theorem cfgRetry_ok (up : s.pcie.linkUp = true) (present : f ≠ 0 → (s.fn f).st ≠ .absent) : s.cfgRetry f = s.emit (.cfgRetry f) :=
  if_pos ⟨up, Classical.or_iff_not_imp_left.mpr present⟩

theorem vfEnable_creates (off : s.pcie.vfEn = false) (isOpen : s.cfgOpen 0 = true) (full : s.mbx.undercoat = false)
    (page : s.pcie.pageSize = 1 ∨ s.pcie.pageSize = 2 ∨ s.pcie.pageSize = 4) {n : Nat} {y : State} (positive : 0 < n)
    (hn : n = (if s.pcie.ari then min s.pcie.numVfs 255 else min (min s.pcie.numVfs 255) 7))
    (hy : y = { s with pcie := { s.pcie with vfEn := true, vfLimited := decide (n < s.pcie.numVfs) } }) :
    exec .vfEnable s = .next (createVfs (evenQuota n) ((List.range n).map (fun i => i + 1)) (setQuotas (fun _ => 0) y.drainVfs y)) := by
  have supported : (s.pcie.pageSize == 1 || s.pcie.pageSize == 2 || s.pcie.pageSize == 4) = true := by simpa [or_assoc] using page
  change execVfEnable s = _
  unfold execVfEnable
  rw [if_neg (by simp [isOpen]), if_neg (by simp [off]), if_neg (by simp [full])]
  dsimp only
  rw [supported, if_pos rfl, ← hn, if_neg (by omega), hy]
  rfl

theorem vfEnable_bad_page (off : s.pcie.vfEn = false) (isOpen : s.cfgOpen 0 = true) (full : s.mbx.undercoat = false)
    (page : ¬ (s.pcie.pageSize = 1 ∨ s.pcie.pageSize = 2 ∨ s.pcie.pageSize = 4)) {y : State}
    (hy : y = { s with pcie := { s.pcie with vfEn := true, vfLimited := true } }) :
    exec .vfEnable s = .next (setQuotas (fun _ => 0) y.drainVfs y) := by
  have unsupported : (s.pcie.pageSize == 1 || s.pcie.pageSize == 2 || s.pcie.pageSize == 4) = false := by
    rw [Bool.eq_false_iff]
    exact fun k => page (by simpa [or_assoc] using k)
  change execVfEnable s = _
  unfold execVfEnable
  rw [if_neg (by simp [isOpen]), if_neg (by simp [off]), if_neg (by simp [full])]
  dsimp only
  rw [unsupported, hy]
  rfl

theorem flr_retries (up : s.pcie.linkUp = true) (present : f ≠ 0 → (s.fn f).st ≠ .absent) (busy : (s.fn f).flr = true ∨ (s.fn f).rrs = true) :
    exec (.flr f) s = .next (s.emit (.cfgRetry f)) := by
  change execFlr f s = _
  unfold execFlr
  rw [if_neg (fun k => present k.1 k.2), if_pos busy, cfgRetry_ok up present]

theorem flr_starts (isOpen : s.cfgOpen f = true) : exec (.flr f) s =
    (if f = 0 then .next ((s.removeVfs.startFlr 0 .flr).resetSriov).assign else .next (s.startFlr f .flr).assign) := by
  obtain ⟨noFlr, ready, present⟩ := cfgOpen_iff.mp isOpen
  change execFlr f s = _
  unfold execFlr
  rw [if_neg (fun k => present.elim k.1 (fun p => p k.2)), if_neg (by simp [noFlr, ready])]

theorem flrComplete_ok (flr : (s.fn f).flr = true) (drained : s.flrDrained f = true) (vf : f ≠ 0) {x y w : State} {q : Nat}
    (hx : x = { s with que := { s.que with
      queues := Tbl.map {} (fun _ (u : Queue) => if u.fn = f ∧ u.leaving = true then {} else u) s.que.queues } })
    (hq : q = (s.fn f).pendQuota.getD (s.fn f).quota)
    (hy : y = x.updFn f (fun z => if (s.fn f).st = .drain then
        (if (s.fn f).reenable then ({ gen := z.gen, st := .active, quota := q, perm := z.pendPerm.getD 0, rrs := true } : Fn)
         else ({ gen := z.gen } : Fn))
      else ({ z with flr := false, rrs := false, st := .active, quota := q, perm := z.pendPerm.getD z.perm, pendQuota := none,
                     pendPerm := none, pendQueues := [] } : Fn)))
    (hw : w = (if (s.fn f).st = .drain ∧ (s.fn f).reenable = false then y else applyQueues (s.fn f).pendQueues y)) :
    exec (.flrComplete f) s = .next (({ w with pcie := { w.pcie with flrDone := setBit w.pcie.flrDone f } } : State).fnEvent 2) := by
  change execFlrComplete f s = _
  unfold execFlrComplete
  dsimp only
  rw [if_pos ⟨flr, drained⟩, if_neg vf, ← hq, ← hx, ← hy, ← hw]

end

/-- Settles O47. -/
theorem functionEventsTakeEffect : Obligations.FunctionEventsTakeEffect := by
  unfold Obligations.FunctionEventsTakeEffect
  rintro s f _ rfl
  refine ⟨fun off isOpen => ⟨fun full page n y => vfEnable_creates off isOpen full page, fun full page y => vfEnable_bad_page off isOpen full page,
      fun undercoat => ?undercoat⟩, fun vf active noFlr => ?ready, fun on isOpen => ?disable, fun vf isOpen => ?flr, fun isOpen y hy => ?flr0,
    fun up present busy y hy => ?retry, fun flr drained => ⟨?done0, fun vf x q y hx hq hy w hw => flrComplete_ok flr drained vf hx hq hy hw⟩,
    fun loaded noFlr kept => ?restore, fun isOpen => ?bme, fun isOpen v en => ?vec, fun isOpen => ⟨?en, ?mask⟩, fun isOpen d0 => ?d3hot, fun d3hot => ?d0⟩
  case undercoat =>
    exact show execVfEnable s = _ from
      (if_neg (by simp [isOpen])).trans ((if_neg (by simp [off])).trans (if_pos undercoat))
  case ready => exact show execVfReady f s = _ from if_pos ⟨vf, active, noFlr⟩
  case disable => exact show execVfDisable s = _ from (if_neg (by simp [isOpen])).trans (if_pos on)
  case flr => exact (flr_starts isOpen).trans (if_neg vf)
  case flr0 =>
    rw [hy]
    exact (flr_starts isOpen).trans (if_pos rfl)
  case retry =>
    have shut : s.cfgOpen f = false := by
      rw [Bool.eq_false_iff]
      intro isOpen
      obtain ⟨noFlr, ready, -⟩ := cfgOpen_iff.mp isOpen
      simp [noFlr, ready] at busy
    have retried := nx (cfgRetry_ok up present)
    rw [hy]
    exact ⟨flr_retries up present busy, show execBusMasterEnable f s = _ from (if_pos shut).trans retried,
      show execD3hotEntry f s = _ from (if_pos shut).trans retried,
      fun en => show execMsixUnmask f none en s = _ from (if_neg (by simp)).trans ((if_pos ⟨rfl, shut⟩).trans retried)⟩
  case done0 =>
    rintro rfl
    exact show execFlrComplete 0 s = _ from if_pos ⟨flr, drained⟩
  case restore => exact show execPersistRestore s = _ from if_pos ⟨loaded, noFlr, kept⟩
  case bme => exact show execBusMasterEnable f s = _ from if_neg (by simp [isOpen])
  case vec => exact show execMsixUnmask f (some v) en s = _ from (if_neg (by simp [isOpen])).trans (if_neg (by simp))
  case en => exact show execMsixUnmask f none true s = _ from (if_neg (by simp)).trans (if_neg (by simp [isOpen]))
  case mask => exact show execMsixUnmask f none false s = _ from (if_neg (by simp)).trans (if_neg (by simp [isOpen]))
  case d3hot => exact show execD3hotEntry f s = _ from (if_neg (by simp [isOpen])).trans (if_neg (by simp [d0]))
  case d0 => exact show execD3hotExit f s = _ from if_pos d3hot

/-! ## The link (R45-R47, R74) -/

/-- Settles O48. -/
theorem linkEventsTakeEffect : Obligations.LinkEventsTakeEffect := by
  unfold Obligations.LinkEventsTakeEffect
  intro s
  refine ⟨fun x y z hx hy hz => ?down, fun speed width flit deg y hdeg hy => ⟨fun event => ?event, fun full sameSpeed sameWidth was => ?quiet⟩,
    fun up aspm idle => ?l1, fun id e j found running => ?read, rfl, rfl, rfl, rfl⟩
  case down =>
    rw [hz, hy, hx]
    rfl
  case event =>
    have told : (deg || s.pcie.speed != speed || s.pcie.width != width || s.pcie.degraded) = true := by simpa [or_assoc] using event
    change execLinkChange speed width flit s = _
    unfold execLinkChange
    dsimp only
    rw [← hdeg, told, if_pos rfl, hy]
  case quiet =>
    have untold : (deg || s.pcie.speed != speed || s.pcie.width != width || s.pcie.degraded) = false := by simp [full, sameSpeed, sameWidth, was]
    change execLinkChange speed width flit s = _
    unfold execLinkChange
    dsimp only
    rw [← hdeg, untold, if_neg (by decide), hy]
  case l1 => exact show execL1Entry s = _ from if_pos ⟨up, aspm, idle⟩
  case read =>
    change execDmaReadError id e s = _
    unfold execDmaReadError
    rw [found]
    exact if_pos running

end Sys2Proof.FunctionRows

/-! PROOFS. Ports: received frames, pauses, SA timers, sub-ports, Render takeovers and mask feeds (O49). -/
namespace Sys2Proof.PortEvents
open Sys2Proof.Machine Sys2Proof.Spec Sys2Proof.Laws

/-- The state in which a frame that arrived at sub-port `sub` of port `8 * d + n`, with its FEC codewords, is counted (R161). -/
def counted (s : State) (n sub corr unc : Nat) (f : Frame) (d : Nat) : State :=
  (((s.count (8 * d + n) sub cFecCorr corr).count (8 * d + n) sub cFecUncorr unc).count (8 * d + n) sub cFramesIn 1).count
    (8 * d + n) sub cOctetsIn (octets f.bytes)

section
variable {s : State} {n sub corr unc d : Nat} {f : Frame} {classify : State → State} (pair : n < 8) (enabled : (s.pair n).enabled = true)
  (live : sub < subCount (s.pair n).mode) (powered : s.powered = true)
include pair enabled live powered

theorem rxFrame_short (short : octets f.bytes < 64) :
    s.rxFrame n d sub corr unc f classify = (counted s n sub corr unc f d).count (8 * d + n) sub cUndersize 1 := by
  unfold State.rxFrame
  dsimp only
  rw [if_neg (by simp [enabled, powered]; omega), if_pos short]
  rfl

theorem rxFrame_bad_fcs (long : 64 ≤ octets f.bytes) (bad : f.fcsOk = false) :
    s.rxFrame n d sub corr unc f classify = (counted s n sub corr unc f d).count (8 * d + n) sub cFcsErr 1 := by
  unfold State.rxFrame
  dsimp only
  rw [if_neg (by simp [enabled, powered]; omega), if_neg (by omega), if_pos bad]
  rfl

theorem rxFrame_classified (long : 64 ≤ octets f.bytes) (fcs : f.fcsOk = true) (noControl : be16 f.bytes 12 ≠ 0x8808)
    (controlled : (s.pair n).uncontrolled sub f.bytes = false) {x : State} (hx : x = counted s n sub corr unc f d)
    (fits : octets f.bytes ≤ if d = 0 then (s.pair n).maxFrame else (s.pair n).maxFrame + (if (s.pair n).esp sub then 77 else 32))
    (forwards : x.forwards n sub = true) (room : bufBytes sub none (x.flow n d) + octets f.bytes ≤ shareBytes (s.pair n).mode) :
    s.rxFrame n d sub corr unc f classify = classify x := by
  unfold counted at hx
  unfold State.rxFrame
  dsimp only
  rw [if_neg (by simp [enabled, powered]; omega), if_neg (by omega), if_neg (by simp [fcs]), if_neg noControl, if_neg (by omega), ← hx,
    if_neg (by simp [forwards]), if_neg (by omega), if_neg (by simp [controlled])]

end

/-- Settles O49. -/
theorem portEventsTakeEffect : Obligations.PortEventsTakeEffect := by
  unfold Obligations.PortEventsTakeEffect
  intro s n sub
  refine ⟨fun corr unc f x pair enabled live powered seen hseen => ?frames, fun pair enabled => ⟨fun pausing => ?refresh, fun prios => ?expiry⟩,
    fun k flow => ?render, fun a i ha hi accepts => ?overlapTimer, fun d a i hd ha hi drains => ?drainTimer,
    fun live => ⟨fun down lock x hx => ?portUp, fun up => ⟨?loss, ?fec⟩, fun up => ?remote⟩,
    fun u p d v x found stays pair held spare hx => ?takeover, fun quad => ?stall, fun quad seeded => ?recovers⟩
  case frames =>
    have seen0 (d : Nat) : seen d = counted s n sub corr unc f d := by rw [hseen]; rfl
    refine ⟨fun short => ?_, fun long bad => ?_, fun long fcs noControl controlled =>
      ⟨fun hx fits forwards room => ?_, fun hx fits forwards room => ?_⟩⟩
    · rw [seen0, seen0]
      refine ⟨show execHostFrameRx n sub corr unc f s = _ from nx ?_, show execLineFrameRx n sub corr unc f s = _ from nx ?_⟩
      · simpa only [Nat.mul_zero, Nat.zero_add] using rxFrame_short (d := 0) pair enabled live powered short
      · exact rxFrame_short (d := 1) pair enabled live powered short
    · rw [seen0, seen0]
      refine ⟨show execHostFrameRx n sub corr unc f s = _ from nx ?_, show execLineFrameRx n sub corr unc f s = _ from nx ?_⟩
      · simpa only [Nat.mul_zero, Nat.zero_add] using rxFrame_bad_fcs (d := 0) pair enabled live powered long bad
      · exact rxFrame_bad_fcs (d := 1) pair enabled live powered long bad
    · exact show execHostFrameRx n sub corr unc f s = _ from
        nx (rxFrame_classified pair enabled live powered long fcs noControl controlled (hx.trans (seen0 0)) fits forwards room)
    · exact show execLineFrameRx n sub corr unc f s = _ from
        nx (rxFrame_classified pair enabled live powered long fcs noControl controlled (hx.trans (seen0 1)) fits forwards room)
  case refresh => exact show execPauseRefresh n sub s = _ from if_pos ⟨pair, pausing, enabled⟩
  case expiry => exact show execPauseExpiry n sub prios s = _ from if_pos ⟨pair, enabled⟩
  case render =>
    change execRenderFrameDone n s = _
    unfold execRenderFrameDone
    rw [flow]
  case overlapTimer => exact show execOverlapTimer a i s = _ from if_pos ⟨ha, hi, accepts⟩
  case drainTimer => exact show execDrainTimer d a i s = _ from (if_neg (by omega)).trans (if_pos drains)
  case portUp =>
    rw [hx]
    exact show execPortUp n sub s = _ from if_neg (by simp [live, down, lock])
  case loss => exact show execPortLockLoss n sub false s = _ from if_neg (by simp [live, up])
  case fec => exact show execPortLockLoss n sub true s = _ from if_neg (by simp [live, up])
  case remote => exact show execRemoteFault n sub s = _ from if_neg (by simp [live, up])
  case takeover =>
    have noDrain : ((s.unit u).st == .draining) = false := by simpa using stays
    change execRenderTakeover u s = _
    unfold execRenderTakeover
    rw [found]
    dsimp only
    rw [if_neg (by simp [held]), noDrain, if_neg (by decide), spare]
    simp only [Bool.false_eq_true, if_false]
    rw [if_pos pair, hx]
  case stall => exact show execMaskFeedStall n true s = _ from if_neg (by omega)
  case recovers => exact show execMaskFeedStall n false s = _ from (if_neg (by omega)).trans (if_pos seeded)

end Sys2Proof.PortEvents

/-! PROOFS. Float, the rails and the clocks: each event acts where its condition holds (O50, O51). -/
namespace Sys2Proof.PowerEvents
open Sys2Proof.Machine Sys2Proof.Spec Sys2Proof.Laws

/-! ## Float (R561-R566) -/

section
variable {s : State}

theorem floatGrant_ok {r : FReq} (next : s.flt.nextReq s.flt.reqs = some r) (free : r.size ≤ s.flt.free) :
    exec .floatGrant s = .next (({ s with flt := s.flt.give r } : State).granted r) := by
  change execFloatGrant s = _
  unfold execFloatGrant
  rw [next]
  exact if_pos free

/-- An acknowledged revoke pauses the job of its holder (R562). -/
theorem revokeAck_pauses {h : Holder} {j : Job} {x y : State} (revoked : s.flt.grants.any (fun g => g.who == h && g.revoked) = true)
    (hx : x = ({ s with flt := s.flt.ack h } : State)) (found : x.jobOf h = some j) (running : j.st = .running)
    (hy : y = (if j.kind = .lath then (x.updJob j.id (fun z => { z with st := .paused })).updLath j.engine (fun e => { e with running := false })
      else x.updJob j.id (fun z => { z with st := .paused }))) :
    exec (.revokeAck h) s = .next (if j.abort.isSome then y.serveWipe else y) := by
  change execRevokeAck h s = _
  unfold execRevokeAck
  rw [if_pos revoked]
  dsimp only
  rw [← hx, found]
  dsimp only
  rw [if_pos running, ← hy]

end

/-- Settles O50. -/
theorem floatEventsTakeEffect : Obligations.FloatEventsTakeEffect := by
  unfold Obligations.FloatEventsTakeEffect
  intro s
  refine ⟨fun r => floatGrant_ok, fun h j x y => revokeAck_pauses, fun h revoked => ?late, fun h holds => ?overdraw, fun off => ?assert,
    fun on => ?deassert, fun on cool => ?warn, fun on x hx => ?crit, fun on => ?lift⟩
  case late => exact show execFltRevokeLate h s = _ from if_pos revoked
  case overdraw => exact show execFltOverdraw h s = _ from if_pos holds
  case assert => exact show execFltLimitAssert s = _ from if_neg (by simp [off])
  case deassert => exact show execFltLimitDeassert s = _ from if_pos on
  case warn =>
    have capped : s.thermalCap = { s with flt := ({ s.flt with thermal := true } : Flt).fall } := if_neg (by simp [cool])
    exact show execTjWarn s = _ from (if_neg (by simp [on, cool])).trans (by rw [capped])
  case crit =>
    rw [hx]
    exact show execTjCrit s = _ from if_pos on
  case lift => exact show execThermalCapLift s = _ from if_pos on

/-! ## Rails and clocks (R545-R550, R556, R607) -/

section
variable {s : State}

/-- A lost phase is reported, and caps the tokens where fewer than 22 are left (R556). -/
theorem phaseFault_ok (on : s.computeOn = true) {n : Nat} {x : State} (phases : s.pwr.phases = n + 1)
    (hx : x = ({ s with pwr := { s.pwr with phases := n } } : State).report 514 0) :
    exec .phaseFault s = .next (if n < 22 then x.capPhases.devStatus else x) := by
  change execPhaseFault s = _
  unfold execPhaseFault
  rw [if_neg (by simp [on, phases])]
  dsimp only
  rw [phases, Nat.add_sub_cancel, ← hx]

theorem vinWarn_ok (vin : s.pwr.vin = true) (noWarn : s.pwr.vinWarn = false) {x : State}
    (hx : x = ({ s with pwr := { s.pwr with vinWarn := true } } : State)) :
    exec .vinWarn s = .next (if s.computeOn then x.reportHeld 512 7 else x) := by
  change execVinWarn s = _
  unfold execVinWarn
  rw [if_neg (by simp [vin, noWarn])]
  dsimp only
  rw [← hx]

theorem vcoreSlewDone_ok {x : State} (slewing : s.pwr.slewing = true)
    (hx : x = ({ s with pwr := { s.pwr with slewing := false, vcoreMeas := s.pwr.vcoreTarget } } : State).capPhases) :
    exec .vcoreSlewDone s = .next (if x.plb.phase = 1 then x.startDerates.goPlan else x) := by
  change execVcoreSlewDone s = _
  unfold execVcoreSlewDone
  rw [if_pos slewing]
  dsimp only
  rw [← hx]
  exact (apply_ite _ _ _ _).symm

end

/-- Settles O51. -/
theorem railAndClockEventsTakeEffect : Obligations.RailAndClockEventsTakeEffect := by
  unfold Obligations.RailAndClockEventsTakeEffect
  intro s
  refine ⟨fun on => ⟨fun n x => phaseFault_ok on, fun page small => ?rail, fun b => ?root, fun k small => ?serdes, ?refclk⟩,
    fun vin noWarn x => vinWarn_ok vin noWarn, fun warned => ?recovery, fun x => vcoreSlewDone_ok⟩
  case rail => exact show execRailOor page s = _ from if_pos ⟨on, small⟩
  case root => exact show execRootUnlock b s = _ from if_pos on
  case serdes => exact show execSdUnlock k s = _ from if_neg (by simp [on]; omega)
  case refclk => exact show execPcieRefclkLoss s = _ from if_pos on
  case recovery => exact show execVinRecovery s = _ from if_pos warned

end Sys2Proof.PowerEvents

/-! PROOFS. Starts, resets, the loss of supplies, and the power states (O52). -/
namespace Sys2Proof.StartRows
open Sys2Proof.Machine Sys2Proof.Spec Sys2Proof.Laws

section
variable {s y : State} {inp : StartIn}

/-! ## The power sequence (R569-R573) -/

theorem coldStart_ok (off : s.pwr.st = .off ∨ s.pwr.st = .backup) {x : State} (hx : x = s.computeReset .sequencing) :
    exec (.coldStart inp) s = .next (runSeq 10 1 inp
      { x with pwr := { x.pwr with vin := true, vinWarn := false, ovShut := false, fromP5 := false, lastStart := if s.pwr.ovShut then 3 else 0 }
               scr := {}, jtag := {}, grt := {} }) := by
  rw [hx]
  exact show execColdStart inp s = _ from if_pos off

theorem powerStepReady_ok (sequencing : s.pwr.st = .sequencing) {k : Nat} (least : 1 ≤ k) (most : k ≤ 9) (step : s.pwr.step = k) :
    exec (.powerStepReady inp) s = .next (runSeq 10 (k + 1) inp (s.powerStep k)) := by
  change execPowerStepReady inp s = _
  unfold execPowerStepReady
  dsimp only
  rw [step, if_pos ⟨sequencing, least⟩, if_neg (by omega)]

theorem powerStepReady_last (sequencing : s.pwr.st = .sequencing) (step : s.pwr.step = 10) (free : s.boot.resetHeld = false) :
    exec (.powerStepReady inp) s = .next (s.release inp) := by
  change execPowerStepReady inp s = _
  unfold execPowerStepReady
  dsimp only
  rw [step, if_pos ⟨sequencing, by decide⟩, if_pos rfl, if_neg (by simp [free])]

theorem seqStepTimeout_ok (sequencing : s.pwr.st = .sequencing) {k : Nat} {x : State} (least : 1 ≤ k) (most : k ≤ 9) (step : s.pwr.step = k)
    (hx : x = { s with pwr := { s.pwr with
      lastFail := BitVec.ofNat 8 k, retries := min 3 (s.pwr.tries + 1), tries := s.pwr.tries + 1 } }) :
    exec .seqStepTimeout s = .next (if s.pwr.tries < 3 then x else x.failSeq) := by
  rw [hx, ← step]
  rw [← step] at least most
  exact show execSeqStepTimeout s = _ from if_pos ⟨sequencing, least, most⟩

/-! ## Resets (R574-R581) -/

/-- The state of the two reset lines after a reset from outside (R579, R637). -/
def resetLines (s : State) (h : Bool) : State :=
  { s with boot := { s.boot with resetHeld := h }, jtag := { s.jtag with drive := jtagDrive s.jtag.ir h } }

section
variable {src : ResetSrc} (outside : src ≠ .self)
include outside

theorem warmReset_on (on : s.computeOn = true) (h : Bool) :
    exec (.warmReset src h inp) s = .next ((resetLines s h).warmReset inp h) := by
  change execWarmReset src h inp s = _
  unfold execWarmReset
  split
  · exact absurd rfl outside
  · exact if_pos on

theorem warmReset_stopped (off : s.computeOn = false) (stopped : s.pwr.st = .stopped) (h : Bool) : exec (.warmReset src h inp) s =
    .next (if src = .sysRst then ({ resetLines s h with pwr := { (resetLines s h).pwr with failRow := 0 } } : State).reseq inp else resetLines s h) := by
  change execWarmReset src h inp s = _
  unfold execWarmReset
  split
  · exact absurd rfl outside
  · dsimp only
    rw [off, if_neg (by decide), stopped]
    rfl

theorem warmReset_dustsheet (off : s.computeOn = false) (dustsheet : s.pwr.st = .dustsheet) (h : Bool) :
    exec (.warmReset src h inp) s = .next (if h then resetLines s h else (resetLines s h).wake 2) := by
  change execWarmReset src h inp s = _
  unfold execWarmReset
  split
  · exact absurd rfl outside
  · dsimp only
    rw [off, if_neg (by decide), dustsheet]
    rfl

theorem warmReset_sequencing (off : s.computeOn = false) (sequencing : s.pwr.st = .sequencing) (h : Bool) :
    exec (.warmReset src h inp) s = .next (if s.pwr.step = 10 ∧ h = false then (resetLines s h).release inp else resetLines s h) := by
  change execWarmReset src h inp s = _
  unfold execWarmReset
  split
  · exact absurd rfl outside
  · dsimp only
    rw [off, if_neg (by decide), sequencing]
    rfl

end

/-! ## DUSTSHEET (R577, R578) -/

theorem dustSample_ok (dustsheet : s.pwr.st = .dustsheet) {x : State} (hx : x = { s with pwr := { s.pwr with samples := satInc s.pwr.samples } })
    (out : Bool) : exec (.dustSample out) s = .next (if out then x.wake 4 else x) := by
  have asleep : (if s.pwr.st = .dustEntry ∧ s.noneRunning = true then s.goDust else s) = s := if_neg (by simp [dustsheet])
  change execDustSample out s = _
  unfold execDustSample
  dsimp only
  rw [asleep, if_pos dustsheet, ← hx]

theorem dustWake_starts (woken : s.pwr.wakes ≠ 0) (dustsheet : s.pwr.st = .dustsheet) {x : State} (hx : x = s.computeReset .sequencing) :
    exec (.dustWake inp) s = .next (runSeq 10 5 inp
      { x with pwr := { x.pwr with lastWake := s.pwr.wakes, samples := s.pwr.samples, lastStart := 2, wakeOut := true, fromP5 := true,
                                   dustAlarms := s.pwr.dustAlarms } }) := by
  rw [hx]
  exact show execDustWake inp s = _ from (if_neg woken).trans ((if_neg (by simp [dustsheet])).trans (if_pos dustsheet))

end

/-- Settles O52. -/
theorem startsResetsAndPowerStates : Obligations.StartsResetsAndPowerStates := by
  unfold Obligations.StartsResetsAndPowerStates
  constructor
  · intro s inp
    refine ⟨fun off x => coldStart_ok off, fun sequencing => ⟨fun k least most step => powerStepReady_ok sequencing least most step,
        fun step free => powerStepReady_last sequencing step free, fun k x least most step => seqStepTimeout_ok sequencing least most step, fun step => ?restart⟩,
      fun src y outside hy => ?outside, fun x hx => ⟨fun on due => ?self, fun due => ?lc, fun due => ?recover⟩,
      fun run least most notReady free => ?timeout, fun hold free => ?retry, fun vin => ⟨?loss, ?overvoltage, ?vbat⟩, fun noVin => ?vbatAlone,
      fun alive => ?applied, fun off => ?appliedOff⟩
    case restart => exact show execSequenceRestart inp s = _ from if_pos ⟨sequencing, step⟩
    case outside =>
      rw [hy]
      refine ⟨fun on x hx => ?on, fun off stopped h => warmReset_stopped outside off stopped h, fun off dustsheet => ?dustsheet,
        fun off sequencing step => ?sequencing⟩
      case on =>
        rw [hx]
        exact ⟨warmReset_on outside on true, warmReset_on outside on false⟩
      case dustsheet => exact ⟨warmReset_dustsheet outside off dustsheet true, warmReset_dustsheet outside off dustsheet false⟩
      case sequencing =>
        exact ⟨(warmReset_sequencing outside off sequencing true).trans (nx (if_neg (by simp))),
          (warmReset_sequencing outside off sequencing false).trans (nx (if_pos ⟨step, rfl⟩))⟩
    case self =>
      rw [hx]
      exact show execWarmReset .self false inp s = _ from if_pos ⟨on, due⟩
    case lc =>
      rw [hx]
      exact show execLcReset inp s = _ from if_pos due
    case recover =>
      rw [hx]
      exact show execFwRecoverReset inp s = _ from if_pos due
    case timeout => exact show execStartTimeout s = _ from if_pos ⟨run, least, most, notReady, free⟩
    case retry => exact show execStartRetry inp s = _ from if_pos ⟨hold, free⟩
    case loss => exact show execVinLoss s = _ from if_pos vin
    case overvoltage => exact show execVinOvervoltage s = _ from if_pos vin
    case vbat => exact show execVbatLoss s = _ from if_pos vin
    case vbatAlone => exact show execVbatLoss s = _ from if_neg (by simp [noVin])
    case applied => exact show execVbatApplied s = _ from if_neg alive
    case appliedOff => exact show execVbatApplied s = _ from if_pos off
  · intro s inp
    refine ⟨fun run started full noPorts ended quiet => ?idle, fun entry => ?dustTimeout,
      fun dustsheet x hx => ⟨dustSample_ok dustsheet hx false, dustSample_ok dustsheet hx true⟩,
      fun woken => ⟨fun entry => ?abandon, fun dustsheet x => dustWake_starts woken dustsheet⟩,
      fun dust => ⟨nx (if_pos dust), fun armed => ?alarm⟩⟩
    case idle => exact show execIdleEntry s = _ from if_pos ⟨run, started, full, noPorts, ended, quiet⟩
    case dustTimeout => exact show execDustJobTimeout s = _ from if_pos entry
    case abandon => exact show execDustWake inp s = _ from (if_neg woken).trans (if_pos entry)
    case alarm => exact show execRtcAlarm s = _ from (if_neg armed).trans (nx (if_pos dust))

end Sys2Proof.StartRows

/-! PROOFS. The random sources and generators of Grit, and the custody die (O53, O54). -/
namespace Sys2Proof.GritAndCustody
open Sys2Proof.Machine Sys2Proof.Spec Sys2Proof.Laws

/-! ## Windows of the sources (R411-R413) -/

section
variable {s : State} {i : Nat} {w : WindowTest} (source : i < 8) (started : s.grt.started = true) (enabled : (s.src i).disabled = false)
include source started enabled

theorem sourceWindowEnd_passes (run : w.run < s.otp.cutRep.toNat) (count : w.count < s.otp.cutProp.toNat) :
    exec (.sourceWindowEnd i w) s = .next (s.updSrc i (fun y =>
      if y.passed then { y with window := y.window + 1, bits := y.bits + 1024 } else { y with window := y.window + 1, passed := true })) :=
  show execSourceWindowEnd i w s = _ from
    (if_neg (by simp [started, enabled]; omega)).trans (if_pos (by simp [State.windowPass, run, count]))

section
variable {l : List Nat} {off : Bool} {x : State} (bad : s.otp.cutRep.toNat ≤ w.run ∨ s.otp.cutProp.toNat ≤ w.count)
  (hl : l = ((s.src i).recent.filter (fun w => decide ((s.src i).window < w + 1048576))) ++ [(s.src i).window])
  (hoff : off = decide (3 ≤ l.length))
  (hx : x = s.updSrc i (fun y => { y with
    window := y.window + 1, fails := satInc y.fails, recent := l, disabled := off, bits := if off then 0 else y.bits }))
include bad hl hoff hx

/-- A window that fails is reported where Seam is up; the third failure disables its source (R412, R413). -/
theorem sourceWindowEnd_fails : exec (.sourceWindowEnd i w) s = .next (if x.seamDown then x
    else if off && (if off then (x.report 192 (38 + i)).report 193 (38 + i) else x.report 192 (38 + i)).sourceLost s.healthy then
      (if off then (x.report 192 (38 + i)).report 193 (38 + i) else x.report 192 (38 + i)).gritFail
    else if off then (x.report 192 (38 + i)).report 193 (38 + i) else x.report 192 (38 + i)) := by
  have fails : ¬ s.windowPass w = true := by simp [State.windowPass]; omega
  change execSourceWindowEnd i w s = _
  unfold execSourceWindowEnd
  dsimp only
  rw [if_neg (by simp [started, enabled]; omega), if_neg fails, ← hl, ← hoff, ← hx]

end

end

/-! ## Seeds (R414-R416) -/

section
variable {s x y : State} {turn n t : Nat} {l : List Nat}

theorem seedDone_ok (started : s.grt.started = true) (alive : s.grt.st ≠ .fail) (healthy : 4 ≤ s.healthy)
    (bits : takeBits 144 0 s.grt.turn ((List.range 8).map (fun i => if s.srcHealthy i then (s.src i).bits else 0)) = some (turn, l))
    (target : s.seedTarget = some n) (hx : x = setBits (((List.range 8).filter (fun i => s.srcHealthy i)).map (fun i => (i, l.getD i 0))) s)
    (hy : y = { x with grt := { x.grt with turn := turn } }) (lost : Bool) : exec (.seedDone lost t) s =
      .next (if lost || y.seamDown then y else if (y.gen n).st = .unseeded then y.seedPart n t else y.updGen n (fun g => { g with fresh := true })) := by
  change execSeedDone lost t s = _
  unfold execSeedDone
  rw [if_neg (by simp [started, alive]; omega), bits]
  dsimp only
  rw [target]
  dsimp only
  rw [← hx, ← hy]
  exact ((apply_ite _ _ _ _).trans (congrArg _ (apply_ite _ _ _ _))).symm

end

/-! ## Reseeds (R416-R418) -/

section
variable {s : State} {n : Nat}

theorem genOverdue_ok (part : n < 38) (ok : (s.gen n).st = .ok) (due : (s.gen n).due = true) (byCount : Bool) {y : State}
    (hy : y = (s.updGen n (fun g => { g.stop .overdue with
      requests := if byCount then 131072 else g.requests, ageMs := if byCount then g.ageMs else 1100 })).report 196 n) :
    exec (.genOverdue n byCount) s = .next (if 19 ≤ n ∧ n < 28 then y.setFeed (n - 19) true else y) := by
  rw [hy]
  exact show execGenOverdue n byCount s = _ from if_pos ⟨part, ok, due⟩

section
variable (due : (s.gen n).due = true) (live : (s.gen n).st = .ok ∨ (s.gen n).st = .fail ∧ (s.gen n).cause = .overdue)
include due live

theorem reseedComplete_expander (expander : n < 19) (fresh : (s.gen n).fresh = true) :
    exec (.reseedComplete n) s = .next (s.updGen n (fun x => x.seeded (genCap n) true)) :=
  show execReseedComplete n s = _ from (if_pos expander).trans (if_pos (by simpa [due, fresh] using live))

theorem reseedComplete_mask (part : n < 38) (mask : 19 ≤ n) {p : Nat} {y : State} (hp : p = (if n = 37 then 18 else n - 19))
    (parent : (s.gen p).st = .ok) (hy : y = (s.drawFrom p).2.updGen n (fun x => x.seeded 64 true)) :
    exec (.reseedComplete n) s = .next (if n < 28 then y.setFeed (n - 19) false else y) := by
  rw [hy]
  rw [hp] at parent ⊢
  exact show execReseedComplete n s = _ from
    (if_neg (by omega)).trans ((if_pos part).trans (if_pos (by simpa [due, parent] using live)))

end

end

/-- Settles O53. -/
theorem gritEventsTakeEffect : Obligations.GritEventsTakeEffect := by
  unfold Obligations.GritEventsTakeEffect
  intro s
  refine ⟨fun i source started enabled => ⟨fun w => sourceWindowEnd_passes source started enabled, fun w bad l off x hl hoff hx => ?window⟩,
    fun turn l n t x started alive healthy bits target hx y hy => ?seed, fun started unseeded few => ?start,
    fun n part ok => ⟨?byCount, ?byAge, fun due byCount y => genOverdue_ok part ok due byCount⟩,
    fun n part due live => ⟨fun expander => reseedComplete_expander due live expander, fun mask p y => reseedComplete_mask due live part mask⟩,
    fun id n j found running draws waits => ?waits⟩
  case window =>
    have failed := sourceWindowEnd_fails source started enabled bad hl hoff hx
    refine ⟨fun down => ?_, fun up kept => ?_, fun up off z hz => ?_⟩
    · exact failed.trans (nx (if_pos down))
    · rw [failed, up, kept]
      simp
    · rw [failed, up, off, hz]
      simp
  case seed =>
    have done := fun lost => seedDone_ok (t := t) started alive healthy bits target hx hy lost
    refine ⟨(done true).trans (nx (if_pos (Bool.true_or _))), fun down => ?_, fun up unseeded => ?_, fun up seeded => ?_⟩
    · exact (done false).trans (nx (if_pos (by simp [down])))
    · exact (done false).trans (nx ((if_neg (by simp [up])).trans (if_pos unseeded)))
    · exact (done false).trans (nx ((if_neg (by simp [up])).trans (if_neg seeded)))
  case start => exact show execGritStartTimeout s = _ from if_pos ⟨started, unseeded, few⟩
  case byCount => exact show execReseedDue n true s = _ from if_pos ⟨part, ok⟩
  case byAge => exact show execReseedDue n false s = _ from if_pos ⟨part, ok⟩
  case waits =>
    change execRngWaitTimeout id n s = _
    unfold execRngWaitTimeout
    rw [found]
    exact if_pos ⟨running, draws, waits⟩

/-! ## Commits (R450, R476) -/

section
variable {s : State} {c : Commit} {t : List Commit} (queued : s.commits = c :: t) (started : c.started = true)
include queued started

theorem journalCommitDone_erased {src : Nat} {ok : Bool} (able : ok = true → s.seamDown = false ∧ s.pwr.vinWarn = false)
    (erased : s.tmp.erased = some src) : exec (.journalCommitDone ok) s = .next (s.failCommit c (stTamperErased, src)) := by
  have goes : ¬ (c.started = false ∨ (ok = true ∧ (s.seamDown = true ∨ (c.life.isSome = true ∧ s.pwr.vinWarn = true)))) := by
    rintro (stopped | ⟨verified, down | ⟨-, warned⟩⟩)
    · simp [started] at stopped
    · simp [able verified] at down
    · simp [able verified] at warned
  change execJournalCommitDone ok s = _
  unfold execJournalCommitDone
  rw [queued]
  dsimp only
  rw [if_neg goes, erased]

theorem journalCommitDone_fails (kept : s.tmp.erased = none) :
    exec (.journalCommitDone false) s = .next ((s.failCommit c (stMramFail, 0)).report 130 0) := by
  change execJournalCommitDone false s = _
  unfold execJournalCommitDone
  rw [queued]
  dsimp only
  rw [if_neg (by simp [started]), kept]
  exact (if_neg (by simp)).trans (if_neg (by simp))

theorem journalCommitDone_life (kept : s.tmp.erased = none) (up : s.seamDown = false) (vin : s.pwr.vinWarn = false) {l : LifeReq}
    (life : c.life = some l) :
    exec (.journalCommitDone true) s = .next ((({ s with commits := t } : State).endLife l c.mbx).startCommit) := by
  change execJournalCommitDone true s = _
  unfold execJournalCommitDone
  rw [queued]
  dsimp only
  rw [if_neg (by simp [started, up, vin]), kept, life]
  exact if_pos (by simp)

theorem journalCommitDone_applies (kept : s.tmp.erased = none) (up : s.seamDown = false) (plain : c.life = none) {j m}
    (image : s.commitImage c = some (j, m)) : exec (.journalCommitDone true) s =
      .next ((({ s with commits := t } : State).applyCommit c j m).answerCommit c).startCommit := by
  change execJournalCommitDone true s = _
  unfold execJournalCommitDone
  rw [queued]
  dsimp only
  rw [if_neg (by simp [started, up, plain]), kept, plain]
  dsimp only
  rw [if_neg (by simp), if_pos rfl, image]

end

/-- Settles O54. -/
theorem custodyEventsTakeEffect : Obligations.CustodyEventsTakeEffect := by
  unfold Obligations.CustodyEventsTakeEffect
  intro s
  refine ⟨fun sweeps seeded => ⟨_, (show execRefreshSweep s = _ from if_neg (by simp [sweeps, seeded])), ?sas, ?slots, rfl, rfl⟩, fun stands => ?stands,
    fun k next => ?wipe, fun c t queued started => ⟨fun src ok => journalCommitDone_erased queued started, journalCommitDone_fails queued started,
      fun kept up vin l => journalCommitDone_life queued started kept up vin, fun kept up plain j m => journalCommitDone_applies queued started kept up plain⟩,
    fun inScope debug due => ?expire, fun i on watched => ⟨?stays, ?ended⟩⟩
  case sas =>
    rintro a e w0 w1 x present rfl rfl rfl nonempty
    exact mem_map_tbl _ _ _ _ _ present nonempty
  case slots =>
    rintro k b present w rfl nonempty
    exact mem_map_tbl _ _ _ _ _ present nonempty
  case stands => exact show execRefreshSweep s = _ from if_pos stands
  case wipe =>
    change execSlotWipe s = _
    unfold execSlotWipe
    rw [next]
    rfl
  case expire => exact show execDebugExpire s = _ from if_pos ⟨inScope, debug, due⟩
  case stays => exact show execTamperAlarm i true s = _ from if_neg (by simp [on, watched])
  case ended => exact show execTamperAlarm i false s = _ from if_neg (by simp [on, watched])

end Sys2Proof.GritAndCustody

/-! PROOFS. What Scrim reports and closes, and the measurements of Plumb (O55, O56). -/
namespace Sys2Proof.ScrimAndPlumb
open Sys2Proof.Machine Sys2Proof.Spec Sys2Proof.Laws

/-! ## Scrim (R514-R535) -/

section
variable {s : State} (on : s.scrimOn = true)
include on

section
variable {c unit : Nat} (arrives : s.seamDown = false ∨ c / 32 ≠ 4)
include arrives

/-- A cause reaches the collector while that runs, and a cause of the custody die only over Seam (R515, R535). -/
theorem cause_arrives : ¬ (s.scrimOn = false ∨ (s.seamDown = true ∧ c / 32 = 4)) := by
  rintro (off | ⟨down, custody⟩)
  · simp [on] at off
  · exact arrives.elim (by simp [down]) (fun other => other custody)

theorem causeReport_new (quiet : s.scr.asserted.contains (c, unit) = false) (known : causeKnown c = true) (noWire : c % 32 ≠ 31) (stays : Bool) :
    exec (.causeReport c unit stays) s = if stays then .next ((s.assertCause c unit true).reportCause c unit).beforeReady
      else .next ((s.reportCause c unit).repeated c unit).beforeReady := by
  change execCauseReport c unit stays s = _
  unfold execCauseReport
  dsimp only
  rw [if_neg (cause_arrives on arrives), quiet, if_neg (by decide), if_neg (by simp [known, noWire])]

theorem causeReport_held (held : s.scr.asserted.contains (c, unit) = true) (stays : Bool) :
    exec (.causeReport c unit stays) s = .next (if stays then s else (s.assertCause c unit false).repeated c unit) := by
  change execCauseReport c unit stays s = _
  unfold execCauseReport
  dsimp only
  rw [if_neg (cause_arrives on arrives), held, if_pos rfl]

end

omit on in
/-- The quiet record of a held rank is closed, or starts the device again, up to seven times an hour; then cause 5 joins it (R534). -/
theorem autoExit_quiet {w : UnitId} {dev : Bool} {inp : StartIn} {r : Rec} (record : s.recordOf w dev = some r) (least : 4 ≤ r.rank) (most : r.rank < 6)
    (goesOn : s.scr.terminal = false) (armed : s.scr.quietMs ≠ 0) (first : r.nums.contains 5 = false)
    (quiet : r.startBound = true ∨ s.allQuiet r = true) :
    exec (.autoExit w dev inp) s = (if 7 ≤ s.exitsInHour then .next ((s.latchCause 5).mergeInto r { cause := 5, rank := 4 })
      else if r.startBound then .next (s.countExit.warmReset inp s.boot.resetHeld) else .next (s.countExit.closeRec r true)) := by
  have closes : ¬ (r.rank < 4 ∨ 6 ≤ r.rank ∨ s.scr.terminal = true ∨ s.scr.quietMs = 0 ∨ r.nums.contains 5 = true ∨
      (r.startBound = false ∧ s.allQuiet r = false)) := by
    rintro (low | high | terminal | off | again | ⟨unbound, noisy⟩)
    · omega
    · omega
    · simp [goesOn] at terminal
    · exact armed off
    · exact nomatch first.symm.trans again
    · simp [unbound, noisy] at quiet
  change execAutoExit w dev inp s = _
  unfold execAutoExit
  rw [record]
  exact if_neg closes

/-- A Seam transfer that fails fewer than four times is sent again (R535). -/
theorem seamRetransmit_again {auth : Bool} {n : Nat} (least : 0 < n) (most : n < 4) : exec (.seamRetransmit auth n) s =
    .next ((seamAgain (if auth then 97 else 96) n s).closeRetry { group := 3, unit := 0 }).beforeReady := by
  change execSeamRetransmit auth n s = _
  unfold execSeamRetransmit
  dsimp only
  rw [if_neg (by simp [on]; omega), Nat.min_eq_left (by omega), if_neg (by omega)]

/-- The fourth failure of a Seam transfer holds the device (R535). -/
theorem seamRetransmit_fails {auth : Bool} {n : Nat} {x : State} (most : 4 ≤ n)
    (hx : x = (seamAgain (if auth then 97 else 96) 4 s).reportHeld 98 0) :
    exec (.seamRetransmit auth n) s = .next ({ x with mram := { x.mram with seamFail := some x.bkp.rtc } } : State).beforeReady := by
  change execSeamRetransmit auth n s = _
  unfold execSeamRetransmit
  dsimp only
  rw [if_neg (by simp [on]; omega), Nat.min_eq_right most, if_pos most, ← hx]

end

/-- Settles O55. -/
theorem scrimEventsTakeEffect : Obligations.ScrimEventsTakeEffect := by
  unfold Obligations.ScrimEventsTakeEffect
  intro s on
  refine ⟨fun c unit b down custody => ?custody, fun c unit arrives quiet known noWire f hf => ?new,
    fun c unit arrives held => ⟨causeReport_held on arrives held true, causeReport_held on arrives held false⟩, fun g b unit wired => ?wire, ?check,
    fun w dev inp r record least most goesOn armed first => ⟨fun unbound quiet few => ?closes, fun bound few => ?starts, fun quiet many => ?merges⟩,
    fun n least most => ⟨seamRetransmit_again on least most, seamRetransmit_again on least most⟩, fun n auth x most => seamRetransmit_fails on most,
    fun a b down => ?scrubDown, fun a b up => ?scrub⟩
  case custody => exact show execCauseReport c unit b s = _ from if_pos (.inr ⟨down, custody⟩)
  case new =>
    rw [hf]
    exact ⟨causeReport_new on arrives quiet known noWire true, causeReport_new on arrives quiet known noWire false⟩
  case wire => exact show execWire g b unit s = _ from if_pos ⟨on, wired⟩
  case check => exact show execScrCheck s = _ from if_pos on
  case closes =>
    exact (autoExit_quiet record least most goesOn armed first (.inr quiet)).trans ((if_neg (by omega)).trans (if_neg (by simp [unbound])))
  case starts => exact (autoExit_quiet record least most goesOn armed first (.inl bound)).trans ((if_neg (by omega)).trans (if_pos bound))
  case merges => exact (autoExit_quiet record least most goesOn armed first quiet).trans (if_pos many)
  case scrubDown => exact show execMramScrub a b s = _ from if_neg (by simp [down])
  case scrub =>
    have runs : (s.scrimOn && !s.seamDown) = true := by simp [on, up]
    exact ⟨show execMramScrub 0 0 s = _ from if_pos runs, show execMramScrub (a + 1) 0 s = _ from if_pos runs,
      show execMramScrub 0 (b + 1) s = _ from if_pos runs, show execMramScrub (a + 1) (b + 1) s = _ from if_pos runs⟩

/-! ## Plumb (R605-R615) -/

/-- The state in which a drained unit is under test, or has taken the loaded Putty patch, by the purpose of its drain (R609). -/
def afterDrain (x : State) (u : Nat) : Purpose → State
  | .kat => ((x.setUnit u .test).startRoutine u false).fixRunning
  | .measure => ((x.setUnit u .test).startRoutine u true).fixRunning
  | .derate => x.setUnit u .test
  | .putty => (loadLoop 38 (((match unitEngine u, x.lth.load with
    | some (.lath, n), some p => x.updLath n p.into
    | _, _ => x).dropActive u).endDrain u)).serveQueue

section
variable {s x : State} {u : Nat} {t : TestEnt}

section
variable {es : List TestEnt} {ws : List (Nat × W32)} (hes : es = s.plb.testq.filter (fun t => t.unit == u && t.purpose == .kat))
  (hws : ws = es.flatMap (fun t => t.waiters)) (tested : (s.unit u).st = .test) (active : es.any (fun t => t.active) = true)
include hes hws tested active

theorem katDone_passes {z : State} (hz : z = ((((answerWaiters stOk 0 ws
      (((s.dropKats u).putResult u 1 0).lateLog u 3 0 es)).endDrain u).closeRetry (recUnit u)).fixRunning).serveQueue) :
    exec (.katDone u none) s = .next (if u < 36 then z.dispatchAll.flowAll else z) := by
  change execKatDone u none s = _
  unfold execKatDone
  dsimp only
  rw [← hes, ← hws, if_neg (by simp [tested, active]), ← hz]

/-- A test that fails goes on with its record: that of an earlier failure, or a new one (R610). -/
theorem katDone_fails {v : BitVec 6} (hx : x = (answerWaiters stSigFault (BitVec.toNat v) ws (((s.dropKats u).putResult u 2 v.toNat).lateLog u 4 v.toNat es)).fixRunning) :
    (x.scr.recs.find? (fun r => r.who == recUnit u && r.rank == 2) = none →
      exec (.katDone u (some v)) s = .next (x.report (selfCheck u) (recUnit u).unit).serveQueue) ∧
    (∀ r, x.scr.recs.find? (fun r => r.who == recUnit u && r.rank == 2) = some r →
      exec (.katDone u (some v)) s = .next (x.failAgain r u).serveQueue) := by
  constructor
  · intro fresh
    change execKatDone u (some v) s = _
    unfold execKatDone
    dsimp only
    rw [← hes, ← hws, if_neg (by simp [tested, active]), ← hx, fresh]
  · intro r again
    change execKatDone u (some v) s = _
    unfold execKatDone
    dsimp only
    rw [← hes, ← hws, if_neg (by simp [tested, active]), ← hx, again]

end

section
variable (hx : x = s.serveQueue) (entry : x.activeEnt u = some t) (draining : (x.unit u).st = .draining) (idle : x.noWork u = true)
include hx entry draining idle

/-- What a unit that has drained is drained for is done (R609). -/
theorem unitDrained_ok : exec (.unitDrained u) s = .next (afterDrain x u t.purpose) := by
  change execUnitDrained u s = _
  unfold execUnitDrained
  dsimp only
  rw [← hx, entry]
  refine (if_neg (by simp [draining, idle])).trans ?_
  cases t.purpose <;> rfl

end

theorem engKatTimeout_ok {es : List TestEnt} (hx : x = s.serveQueue)
    (hes : es = x.plb.testq.filter (fun t => t.unit == u && t.purpose == .kat)) (inactive : es.any (fun t => t.active) = false) :
    exec (.engKatTimeout u) s = .next (serveBad 300 (answerWaiters stAborted 5 (es.flatMap (fun t => t.waiters))
      { x with plb := { x.plb with testq := x.plb.testq.map (fun t =>
          if t.unit = u ∧ t.purpose = .kat then { t with waiters := [], late := t.late || !t.waiters.isEmpty } else t) } })) := by
  change execEngKatTimeout u s = _
  unfold execEngKatTimeout
  dsimp only
  rw [← hx, ← hes, if_neg (by simp [inactive])]

end

/-- Settles O56. -/
theorem plumbEventsTakeEffect : Obligations.PlumbEventsTakeEffect := by
  unfold Obligations.PlumbEventsTakeEffect
  intro s u
  refine ⟨fun es ws hes hws tested active => ⟨fun z => katDone_passes hes hws tested active, fun v x => katDone_fails hes hws tested active⟩,
    fun x t hx entry draining idle => ?drained, fun x es => engKatTimeout_ok, fun started full awake => ?daily,
    fun slack temp least most started => ?die, fun slack temp unit kept started => ⟨fun warm small => ?low, fun fine => ?fine⟩, fun due => ?retry,
    fun t f x y entry derate tested hf hx hy => ?relock, fun t slack temp entry measure tested => ?measured, fun cycle => ?expiry⟩
  case drained =>
    have done := unitDrained_ok hx entry draining idle
    refine ⟨?_, fun derate => ?_, fun putty n p engine load => ?_⟩
    · rintro (kat | measure)
      · rw [done, kat]
        rfl
      · rw [done, measure]
        rfl
    · rw [done, derate]
      rfl
    · rw [done, putty]
      unfold afterDrain
      simp only [engine, load]
  case daily => exact show execDailyCycle s = _ from if_pos ⟨started, full, awake⟩
  case die => exact show execPlbMarginLow u slack temp s = _ from (if_pos ⟨least, most⟩).trans (nx (if_pos started))
  case low =>
    exact show execPlbMarginLow u slack temp s = _ from
      (if_neg (by omega)).trans ((if_neg (by simp [kept, started]; omega)).trans (if_pos ⟨warm, small⟩))
  case fine =>
    exact show execPlbMarginLow u slack temp s = _ from
      (if_neg (by omega)).trans ((if_neg (by simp [kept, started]; omega)).trans (if_neg fine))
  case retry => exact show execReplanRetry s = _ from if_pos due
  case relock =>
    change execClockRelock u s = _
    unfold execClockRelock
    rw [entry]
    dsimp only
    rw [if_pos ⟨derate, tested⟩, ← hf, ← hx, ← hy]
  case measured =>
    change (_ → execDrainedMeasurementDone u slack temp s = _) ∧ (_ → execDrainedMeasurementDone u slack temp s = _)
    unfold execDrainedMeasurementDone
    rw [entry]
    dsimp only
    rw [if_neg (by simp [measure, tested])]
    exact ⟨fun within => by rw [if_pos within, if_pos within], fun outside => by rw [outside]; rfl⟩
  case expiry => exact show execCycleWaitExpiry s = _ from if_pos cycle

end Sys2Proof.ScrimAndPlumb
